-- ==== Sys2Proof/Word.lean ====
section
/-!
DEFINITION. The word types of the Sholys package and the one sparse map that every register file,
table and memory of the state uses.
-/

namespace Sys2Proof

/-- A scalar register, a program counter, a virtual address (R53). -/
abbrev Word := BitVec 64

/-- A byte of memory (R5). -/
abbrev Byte := BitVec 8

/-- A 32-bit tile element (R53). -/
abbrev Elem := BitVec 32

/-- A sparse map from numbers: keys strictly rising, no entry equal to the default of the map.
An unlisted key reads as the default, which the reader names. -/
abbrev SMap (α : Type) := List (Nat × α)

namespace SMap

/-- The value at key `k`, the default `d` when none is listed. -/
def get {α : Type} (d : α) : SMap α → Nat → α
  | [], _ => d
  | e :: t, k => if e.1 = k then e.2 else get d t k

/-- Every entry but the one at `k`. -/
def erase {α : Type} : SMap α → Nat → SMap α
  | [], _ => []
  | e :: t, k => if e.1 = k then erase t k else e :: erase t k

/-- Insert before the first larger key. -/
def insert {α : Type} : SMap α → Nat → α → SMap α
  | [], k, v => [(k, v)]
  | e :: t, k, v => if e.1 < k then e :: insert t k v else (k, v) :: e :: t

/-- Write `v` at `k`; writing the default removes the entry, so that equal maps are equal data. -/
def set {α : Type} [DecidableEq α] (d : α) (m : SMap α) (k : Nat) (v : α) : SMap α :=
  if v = d then erase m k else insert (erase m k) k v

/-- The canonical form: keys strictly rising, no default listed. -/
def wf {α : Type} [DecidableEq α] (d : α) : SMap α → Bool
  | [] => true
  | [e] => decide (e.2 ≠ d)
  | e :: f :: t => decide (e.2 ≠ d) && decide (e.1 < f.1) && wf d (f :: t)

/-- Write every entry of a list, first to last. -/
def setAll {α : Type} [DecidableEq α] (d : α) (m : SMap α) : List (Nat × α) → SMap α
  | [] => m
  | e :: t => setAll d (set d m e.1 e.2) t

end SMap

end Sys2Proof
end

