-- ==== Sys2Proof/Config.lean ====
section
/-!
DEFINITION. What the spec leaves to the implementation: free values that nothing in Lean can evaluate.
-/

namespace Sys2Proof.Config

/-- A free value: the spec states no number for it (log entry 9). The argument is the counter
`State.freeCtr` at the time of use. -/
opaque freeWord : Nat → Word

/-- How far a counter of a pseudo-channel has run on by itself since it was read last (R298): bursts of accesses that the spec does not
count out, of the firmware, of copies of whole frames and of caches that fetch ahead, row conflicts and refresh stalls, which depend
on rows and on times that the spec does not give (log entry 77). -/
opaque channelRun : Nat → Nat

/-- The place of a unit, or of a die's fabric router, in the mesh of its die: router x + 16 y. The spec gives the mesh no layout (log
entry 5). -/
opaque meshSpot : Nat → Nat

/-- How many bytes a context save writes at save_area: the spec gives neither size nor layout (log entry 57). The argument is that of
`freeWord`. -/
opaque saveSize : Nat → Nat

/-- The byte at an offset of a saved context (log entry 57); the first argument is that of `freeWord`. -/
opaque saveByte : Nat → Nat → Byte

/-- The stepping reported in MGMTID (R365): the spec leaves it to the implementation (log entry 9). -/
opaque stepping : Word

/-- What the search of R177 answers for an operand on which the model's own interval search ends
without a result (function code, exponent and fraction of the operand; log entry 10). -/
opaque specialFallback : Nat → Int → Nat → Nat

end Sys2Proof.Config
end

