-- ==== Sys2Proof/Syntax.lean ====
section
/-!
DEFINITION. The instructions, engine commands, host commands and steps of the package: one constructor of
`Instr` for each row of spec/opcode_table.json, with the operands its encoding or its description names.
-/

namespace Sys2Proof

/-- Element types (Table 7-5, R81). -/
inductive ETy where
  | f32 | f16 | bf16 | e4m3 | e5m2 | e2m1 | f64 | i32 | ui32 | i16 | ui16 | i8 | ui8
  deriving DecidableEq, Repr

/-- Rounding-mode codes (Table 7-4, R81). -/
inductive Rnd where
  | rne | rtz | rdn | rup | rna | rto | sr | dyn
  deriving DecidableEq, Repr

/-- Clamp codes (Table 7-3, R81). -/
inductive Clamp where
  | none | to01 | to11 | sat
  deriving DecidableEq, Repr

/-- The modifier fields of layout M (Table 7-2, R79) with the predicate field of W1. -/
structure Mods where
  negA : Bool
  absA : Bool
  negB : Bool
  absB : Bool
  negC : Bool
  absC : Bool
  clamp : Clamp
  scale : BitVec 6
  rnd : Rnd
  reuse : Bool
  ety : ETy
  pred : BitVec 3
  deriving DecidableEq, Repr

/-- Operands of REG format (Table 7-1). -/
structure Reg3 where
  rd : BitVec 5
  ra : BitVec 5
  rb : BitVec 5
  deriving DecidableEq, Repr

/-- Operands of REG format with rb reserved. -/
structure Reg2 where
  rd : BitVec 5
  ra : BitVec 5
  deriving DecidableEq, Repr

/-- Operands of IMM format (Table 7-1). -/
structure Imm where
  rd : BitVec 5
  ra : BitVec 5
  imm : BitVec 12
  deriving DecidableEq, Repr

/-- Operands of IMM format with u6 (R84). -/
structure ShImm where
  rd : BitVec 5
  ra : BitVec 5
  sh : BitVec 6
  deriving DecidableEq, Repr

/-- Operands of LIT (Table 7-6). -/
structure LitOps where
  rd : BitVec 5
  lit : BitVec 64
  deriving DecidableEq, Repr

/-- Operands of scalar literal (Table 7-6). -/
structure SLit where
  rd : BitVec 5
  ra : BitVec 5
  lit : BitVec 32
  deriving DecidableEq, Repr

/-- Operands of LDQ (R134). -/
structure LdqOps where
  q : BitVec 3
  ra : BitVec 5
  imm : BitVec 12
  deriving DecidableEq, Repr

/-- Operands of QPOP, QPEEK, QLEN (R135). -/
structure QRead where
  rd : BitVec 5
  q : BitVec 3
  deriving DecidableEq, Repr

/-- Operands of QPUSH (R135). -/
structure QPushOps where
  q : BitVec 3
  rb : BitVec 5
  deriving DecidableEq, Repr

/-- Operands of BR format (Table 7-1). -/
structure Br where
  ra : BitVec 5
  rb : BitVec 5
  off : BitVec 12
  deriving DecidableEq, Repr

/-- Operands of J22 format. -/
structure JmpOps where
  off : BitVec 22
  deriving DecidableEq, Repr

/-- Operands of JL format. -/
structure JalOps where
  rd : BitVec 5
  off : BitVec 17
  deriving DecidableEq, Repr

/-- Operands of LOOP (R138). -/
structure LoopOps where
  ra : BitVec 5
  off : BitVec 12
  deriving DecidableEq, Repr

/-- Operands of LPI format (R138). -/
structure LoopiOps where
  count : BitVec 10
  off : BitVec 12
  deriving DecidableEq, Repr

/-- Operands of CNT format, own slot (R141). -/
structure CntOwn where
  k : BitVec 9
  ra : BitVec 5
  deriving DecidableEq, Repr

/-- Operands of CNT format, slot of the rank in X[rb]. -/
structure CntRemote where
  k : BitVec 9
  ra : BitVec 5
  rb : BitVec 5
  deriving DecidableEq, Repr

/-- Operands of CNT format, counter page at X[xk]. -/
structure CntPage where
  xk : BitVec 5
  ra : BitVec 5
  deriving DecidableEq, Repr

/-- Operands of CWAIT on an own slot; rb holds the timeout. -/
structure CWaitOwn where
  k : BitVec 9
  ra : BitVec 5
  rb : BitVec 5
  deriving DecidableEq, Repr

/-- Operands of CWAIT on a counter page; rb holds the timeout. -/
structure CWaitPage where
  xk : BitVec 5
  ra : BitVec 5
  rb : BitVec 5
  deriving DecidableEq, Repr

/-- Operands of FENCE (Table 7-10). -/
structure FenceOps where
  flavour : BitVec 2
  scope : BitVec 3
  deriving DecidableEq, Repr

/-- Operands of an atomic; dbl selects the double width (Table 7-9). -/
structure AtomOps where
  rd : BitVec 5
  ra : BitVec 5
  rb : BitVec 5
  dbl : Bool
  deriving DecidableEq, Repr

/-- Operands of PAND, POR (R186). -/
structure Pred3 where
  pd : BitVec 3
  pa : BitVec 3
  pb : BitVec 3
  deriving DecidableEq, Repr

/-- Operands of PNOT (R186). -/
structure Pred2 where
  pd : BitVec 3
  pa : BitVec 3
  deriving DecidableEq, Repr

/-- Operands of PSET (R186). -/
structure PSetOps where
  pd : BitVec 3
  imm : BitVec 16
  deriving DecidableEq, Repr

/-- Operands of TILE format with tb reserved (R185). -/
structure Mov2 where
  td : BitVec 5
  ta : BitVec 5
  pred : BitVec 3
  deriving DecidableEq, Repr

/-- Operands of TILE format (R185). -/
structure Mov3 where
  td : BitVec 5
  ta : BitVec 5
  tb : BitVec 5
  pred : BitVec 3
  deriving DecidableEq, Repr

/-- Operands of VEXT (R185). -/
structure VextOps where
  xd : BitVec 5
  ta : BitVec 5
  tb : BitVec 5
  deriving DecidableEq, Repr

/-- Operands of RENQ (R152). -/
structure RenqOps where
  ra : BitVec 5
  rb : BitVec 5
  deriving DecidableEq, Repr

/-- Operands of SRD, SWR (R156). -/
structure SysOps where
  rd : BitVec 5
  num : BitVec 12
  deriving DecidableEq, Repr

/-- Operands of TLBSYNC (R161). -/
structure ScopeOps where
  scope : BitVec 3
  deriving DecidableEq, Repr

/-- Operands of SPGUARD (R163). -/
structure GuardOps where
  ra : BitVec 5
  rb : BitVec 5
  mark : Bool
  deriving DecidableEq, Repr

/-- Operands of TLBI (Table 7-6, R160). -/
structure TlbiOps where
  ra : BitVec 5
  rb : BitVec 5
  asid : BitVec 16
  scope : BitVec 3
  all : Bool
  deriving DecidableEq, Repr

/-- Operands of layout M with one source. -/
structure T1 where
  d : BitVec 5
  a : BitVec 5
  m : Mods
  deriving DecidableEq, Repr

/-- Operands of layout M with two sources. -/
structure T2 where
  d : BitVec 5
  a : BitVec 5
  b : BitVec 5
  m : Mods
  deriving DecidableEq, Repr

/-- Operands of layout M with three sources. -/
structure T3 where
  d : BitVec 5
  a : BitVec 5
  b : BitVec 5
  c : BitVec 5
  m : Mods
  deriving DecidableEq, Repr

/-- Operands of tile literal (Table 7-6, R172). -/
structure T2L where
  d : BitVec 5
  a : BitVec 5
  lit : BitVec 32
  m : Mods
  deriving DecidableEq, Repr

/-- Operands of tile literal VFMA: the addend is c. -/
structure T3L where
  d : BitVec 5
  a : BitVec 5
  c : BitVec 5
  lit : BitVec 32
  m : Mods
  deriving DecidableEq, Repr

/-- Operands of VSEL (R175). -/
structure SelOps where
  d : BitVec 5
  a : BitVec 5
  b : BitVec 5
  sel : BitVec 3
  m : Mods
  deriving DecidableEq, Repr

/-- Operands of VSEL with a literal b. -/
structure SelLOps where
  d : BitVec 5
  a : BitVec 5
  sel : BitVec 3
  lit : BitVec 32
  m : Mods
  deriving DecidableEq, Repr

/-- Operands of VCMP (R176). -/
structure CmpOps where
  pd : BitVec 3
  a : BitVec 5
  b : BitVec 5
  cond : BitVec 4
  any : Bool
  m : Mods
  deriving DecidableEq, Repr

/-- Operands of VCMP with a literal b. -/
structure CmpLOps where
  pd : BitVec 3
  a : BitVec 5
  cond : BitVec 4
  any : Bool
  lit : BitVec 32
  m : Mods
  deriving DecidableEq, Repr

/-- Operands of axis instruction with a 4-bit amount (Table 13-8). -/
structure AxN4 where
  d : BitVec 5
  a : BitVec 5
  n : BitVec 4
  m : Mods
  deriving DecidableEq, Repr

/-- Operands of VROTW. -/
structure AxN5 where
  d : BitVec 5
  a : BitVec 5
  n : BitVec 5
  m : Mods
  deriving DecidableEq, Repr

/-- Operands of VBCW. -/
structure AxN2 where
  d : BitVec 5
  a : BitVec 5
  n : BitVec 2
  m : Mods
  deriving DecidableEq, Repr

/-- Operands of a reduction (Table 13-9). -/
structure AxRed where
  d : BitVec 5
  a : BitVec 5
  red : BitVec 3
  m : Mods
  deriving DecidableEq, Repr

/-- Operands of VCVT (R179). -/
structure CvtOps where
  d : BitVec 5
  a : BitVec 5
  sty : ETy
  keep : Bool
  m : Mods
  deriving DecidableEq, Repr

/-- Operands of VPACK (R180). -/
structure PackOps where
  d : BitVec 5
  a : BitVec 5
  b : BitVec 5
  sty : ETy
  m : Mods
  deriving DecidableEq, Repr

/-- Operands of VUNPK (R181). -/
structure UnpkOps where
  d : BitVec 5
  a : BitVec 5
  sty : ETy
  hi : Bool
  m : Mods
  deriving DecidableEq, Repr

/-- Operands of VLD, VST (R188). -/
structure TMem where
  d : BitVec 5
  a : BitVec 5
  pitch : BitVec 8
  pred : BitVec 3
  deriving DecidableEq, Repr

/-- Operands of VLDG, VSTS (R189). -/
structure TIdx where
  d : BitVec 5
  a : BitVec 5
  b : BitVec 5
  pred : BitVec 3
  deriving DecidableEq, Repr

/-- Operands of VQPOP, VQPUSH (R190). -/
structure TQueue where
  d : BitVec 5
  q : BitVec 3
  g : BitVec 2
  pred : BitVec 3
  deriving DecidableEq, Repr

/-- Operands of ILD, IST, SLD (R191). -/
structure RecMem where
  d : BitVec 4
  a : BitVec 5
  deriving DecidableEq, Repr

/-- Operands of one scalar source. -/
structure XOnly where
  a : BitVec 5
  deriving DecidableEq, Repr

/-- Operands of SWP (Table 13-15). -/
structure SwpOps where
  d : BitVec 4
  a : BitVec 4
  b : BitVec 4
  c : BitVec 4
  op : BitVec 4
  clamp : Clamp
  scale : BitVec 6
  rnd : Rnd
  ety : ETy
  deriving DecidableEq, Repr

/-- Operands of EPUSH (R218). -/
structure EpushOps where
  a : BitVec 5
  b : BitVec 5
  queue : BitVec 2
  deriving DecidableEq, Repr

/-- Operands of EFLUSH (R220). -/
structure EflushOps where
  mask : BitVec 5
  deriving DecidableEq, Repr

/-- Operands of TEGO; the windows hold the value less one (R311). -/
structure TegoOps where
  d : BitVec 5
  a : BitVec 5
  b : BitVec 5
  lane : BitVec 3
  wl : BitVec 3
  wh : BitVec 3
  ws : BitVec 3
  deriving DecidableEq, Repr

/-- Operands of TESTAT (R313). -/
structure TestatOps where
  d : BitVec 5
  a : BitVec 5
  lane : BitVec 3
  deriving DecidableEq, Repr

/-- Operands of TETHR (R314). -/
structure TethrOps where
  a : BitVec 5
  b : BitVec 5
  lane : BitVec 3
  deriving DecidableEq, Repr

/-- Operands of two scalar sources. -/
structure XPair where
  a : BitVec 5
  b : BitVec 5
  deriving DecidableEq, Repr

/-- Operands of scalar destination and two scalar sources. -/
structure X3 where
  d : BitVec 5
  a : BitVec 5
  b : BitVec 5
  deriving DecidableEq, Repr

/-- Operands of scalar destination and one scalar source. -/
structure X2 where
  d : BitVec 5
  a : BitVec 5
  deriving DecidableEq, Repr

/-- Operands of DITSWP.free (R316). -/
structure DitFree where
  d : BitVec 5
  a : BitVec 5
  b : BitVec 5
  shadow : Bool
  deriving DecidableEq, Repr

/-- Operands of a relay channel. -/
structure Rx0 where
  ch : BitVec 6
  deriving DecidableEq, Repr

/-- Operands of RXCLOSE (R330). -/
structure Rx1 where
  d : BitVec 5
  ch : BitVec 6
  deriving DecidableEq, Repr

/-- Operands of RXRECV, RXSTAT. -/
structure Rx2 where
  d : BitVec 5
  a : BitVec 5
  ch : BitVec 6
  deriving DecidableEq, Repr

/-- Operands of RXSEND (R327). -/
structure Rx3 where
  d : BitVec 5
  a : BitVec 5
  b : BitVec 5
  ch : BitVec 6
  deriving DecidableEq, Repr

/-- Operands of DADD, DSUB, DMUL, DMAX (Table 19-2). -/
structure DBin where
  d : BitVec 4
  a : BitVec 4
  b : BitVec 4
  pw : Bool
  pred : BitVec 3
  deriving DecidableEq, Repr

/-- Operands of DMIX. -/
structure DMixOps where
  d : BitVec 4
  a : BitVec 4
  b : BitVec 4
  t : BitVec 5
  r : BitVec 4
  pred : BitVec 3
  deriving DecidableEq, Repr

/-- Operands of a distribution instruction with one source. -/
structure DUn where
  d : BitVec 4
  a : BitVec 4
  pred : BitVec 3
  deriving DecidableEq, Repr

/-- Operands of DSCL, DSHF. -/
structure DRow where
  d : BitVec 4
  a : BitVec 4
  t : BitVec 5
  r : BitVec 4
  pred : BitVec 3
  deriving DecidableEq, Repr

/-- Operands of DAPP. -/
structure DAppOps where
  d : BitVec 4
  a : BitVec 4
  fn : BitVec 4
  pred : BitVec 3
  deriving DecidableEq, Repr

/-- Operands of DTAG. -/
structure DTagOps where
  d : BitVec 4
  a : BitVec 4
  b : BitVec 4
  pred : BitVec 3
  deriving DecidableEq, Repr

/-- Operands of DLD. -/
structure DLdOps where
  d : BitVec 4
  a : BitVec 5
  mode : BitVec 2
  deriving DecidableEq, Repr

/-- Operands of DST. -/
structure DStOps where
  d : BitVec 4
  a : BitVec 5
  deriving DecidableEq, Repr

/-- Operands of DMKP, DMKQ. -/
structure DMk1 where
  d : BitVec 4
  a : BitVec 5
  r : BitVec 4
  pred : BitVec 3
  deriving DecidableEq, Repr

/-- Operands of DMKU. -/
structure DMk2 where
  d : BitVec 4
  a : BitVec 5
  rlo : BitVec 4
  rhi : BitVec 4
  pred : BitVec 3
  deriving DecidableEq, Repr

/-- Operands of DMOM; k is the moment less one. -/
structure DMomOps where
  d : BitVec 5
  a : BitVec 4
  r : BitVec 4
  k : BitVec 2
  pred : BitVec 3
  deriving DecidableEq, Repr

/-- Operands of DQNT. -/
structure DQntOps where
  d : BitVec 5
  a : BitVec 4
  r : BitVec 4
  q : BitVec 10
  pred : BitVec 3
  deriving DecidableEq, Repr

/-- The common fields of an engine command word (Table 7-13). -/
structure CmdHead where
  pushNext : Bool
  pushPrev : Bool
  popNext : Bool
  popPrev : Bool
  waitEn : Bool
  waitSlot : BitVec 9
  waitVal : BitVec 16
  addEn : Bool
  addSlot : BitVec 9
  deriving DecidableEq, Repr

/-- A counter named by CWT or CAD (Table 15-12); a page address is bits [47:3]. -/
inductive CtrRef where
  | own (slot : BitVec 9)
  | rank (slot : BitVec 9) (rank : BitVec 6)
  | page (addr : BitVec 45)
  deriving DecidableEq, Repr

/-- The operation of an engine command with its fields [47:0] (Tables 7-14, 15-7, 15-9, 15-12). -/
inductive EngOp where
  | mxlds (s : BitVec 4)
  | mxrun (acc : BitVec 2) (swap tile : Bool) (src : BitVec 5)
  | mxout (acc : BitVec 2) (clr tile : Bool) (dst : BitVec 5) (fmt : BitVec 4) (rnd : BitVec 3) (clamp : Clamp)
      (scale : BitVec 6)
  | mxzero (mask : BitVec 4)
  | mxrdaSt (acc : BitVec 2) (s : BitVec 4)
  | mxrdaLd (acc : BitVec 2) (s : BitVec 4)
  | cpy (s : BitVec 4)
  | cpyg (s : BitVec 4)
  | cpys (s : BitVec 4)
  | cpym (s : BitVec 4)
  | pub (s : BitVec 4)
  | cwt (ctr : CtrRef)
  | cad (ctr : CtrRef) (amount : BitVec 30)
  deriving DecidableEq, Repr

/-- An engine command. -/
structure EngCmd where
  h : CmdHead
  op : EngOp
  deriving DecidableEq, Repr

/-- A host command as its submission entry gives it (R349, R350): the interface whose ring holds it, its
tag and its six operands. -/
structure HostCmd where
  vi : Nat
  tag : BitVec 32
  op0 : Word
  op1 : Word
  op2 : Word
  op3 : Word
  op4 : Word
  op5 : Word
  deriving DecidableEq, Repr

/-- What a debugger writes through the management path (R73). -/
inductive DebugTarget where
  | x (cl r : Nat)
  | p (cl r : Nat)
  | pc (cl : Nat)
  | sys (cl num : Nat)
  | tile (t row col : Nat)
  | queueState (q e : Nat)
  | queueData (q e byte : Nat)
  | sreg (n : Nat)
  | ireg (n : Nat)
  | dval (d elem pt : Nat)
  | dweight (d elem pt : Nat)
  | dtag (d : Nat)
  | kslot (k : Nat)
  | acc (a row col : Nat)
  | lockCount (t : Nat)
  | tcb
  | codebook (i : Nat)
  | copySr
  | scratch (off : Nat)
  deriving DecidableEq, Repr

/-- What an access through the fabric asks of the package it reaches (R244, R262, R336 to R340). -/
inductive PeerOp where
  | load (bytes : Nat)
  | store (bytes data : Nat)
  | atomic (op bytes operand expected : Nat)
  | ctrAdd (amount : Nat)
  | mcast (group bytes data : Nat)
  /-- The response to request `of`: a cause of failure, or 0, and what was read. -/
  | answer (of fail bytes data : Nat)
  deriving DecidableEq, Repr

/-- An access under way through the fabric, as the header of its packet gives it (R336): its number; the source package, die and
party; the destination package and die; the aperture offset, for a multicast row its virtual address; the access kind; the 16-bit
sequence number; the page ordering kind; the traffic class; and whether it is a release or acquire access (R258). -/
structure PeerReq where
  id : Nat
  src : Nat
  dst : Nat
  aperture : Nat
  op : PeerOp
  die : Nat := 0
  party : Nat := 0
  dstDie : Nat := 0
  seq : Nat := 0
  kind : Nat := 0
  cls : Nat := 0
  sync : Bool := false
  deriving DecidableEq, Repr

/-- One constructor for each row of the table of operations and events. The sync bit S of an instruction word, the
code of TRAP, BKPT and SAFE, the scope of TLBSYNC, and the operands of an engine command and of a step of a unit are not carried here:
they stand in the machine's state (the instruction register, the command under way, the operands of the step under
way), which the meaning of the row reads (log entry 11). -/
inductive Instr where
  /-- ADD (R127) -/
  | add (o : Reg3)
  /-- SUB (R127) -/
  | sub (o : Reg3)
  /-- AND (R127) -/
  | and (o : Reg3)
  /-- OR (R127) -/
  | or (o : Reg3)
  /-- XOR (R127) -/
  | xor (o : Reg3)
  /-- SHL (R127) -/
  | shl (o : Reg3)
  /-- SHR (R127) -/
  | shr (o : Reg3)
  /-- SAR (R127) -/
  | sar (o : Reg3)
  /-- MIN (R127) -/
  | min (o : Reg3)
  /-- MAX (R127) -/
  | max (o : Reg3)
  /-- MINU (R127) -/
  | minu (o : Reg3)
  /-- MAXU (R127) -/
  | maxu (o : Reg3)
  /-- SEQ (R127) -/
  | seq (o : Reg3)
  /-- SNE (R127) -/
  | sne (o : Reg3)
  /-- SLT (R127) -/
  | slt (o : Reg3)
  /-- SLTU (R127) -/
  | sltu (o : Reg3)
  /-- SGE (R127) -/
  | sge (o : Reg3)
  /-- SGEU (R127) -/
  | sgeu (o : Reg3)
  /-- CLZ (R127) -/
  | clz (o : Reg2)
  /-- POPC (R127) -/
  | popc (o : Reg2)
  /-- MUL (R127) -/
  | mul (o : Reg3)
  /-- MULH (R127) -/
  | mulh (o : Reg3)
  /-- MULHU (R127) -/
  | mulhu (o : Reg3)
  /-- DIV (R127) -/
  | div (o : Reg3)
  /-- DIVU (R127) -/
  | divu (o : Reg3)
  /-- REM (R127) -/
  | rem (o : Reg3)
  /-- REMU (R127) -/
  | remu (o : Reg3)
  /-- SEL (R127) -/
  | sel (o : Reg3)
  /-- LEA_X1 (R127) -/
  | leaX1 (o : Reg3)
  /-- LEA_X2 (R127) -/
  | leaX2 (o : Reg3)
  /-- LEA_X4 (R127) -/
  | leaX4 (o : Reg3)
  /-- LEA_X8 (R127) -/
  | leaX8 (o : Reg3)
  /-- ADDI (R128) -/
  | addi (o : Imm)
  /-- SUBI (R128) -/
  | subi (o : Imm)
  /-- MULI (R128) -/
  | muli (o : Imm)
  /-- DIVI (R128) -/
  | divi (o : Imm)
  /-- REMI (R128) -/
  | remi (o : Imm)
  /-- ANDI (R128) -/
  | andi (o : Imm)
  /-- ORI (R128) -/
  | ori (o : Imm)
  /-- XORI (R128) -/
  | xori (o : Imm)
  /-- SHLI (R128) -/
  | shli (o : ShImm)
  /-- SHRI (R128) -/
  | shri (o : ShImm)
  /-- SARI (R128) -/
  | sari (o : ShImm)
  /-- SLTI (R128) -/
  | slti (o : Imm)
  /-- SLTIU (R128) -/
  | sltiu (o : Imm)
  /-- SEQI (R128) -/
  | seqi (o : Imm)
  /-- MINI (R128) -/
  | mini (o : Imm)
  /-- MAXI (R128) -/
  | maxi (o : Imm)
  /-- LIT (R129) -/
  | lit (o : LitOps)
  /-- ADD_LIT (R129) -/
  | addLit (o : SLit)
  /-- SUB_LIT (R129) -/
  | subLit (o : SLit)
  /-- AND_LIT (R129) -/
  | andLit (o : SLit)
  /-- OR_LIT (R129) -/
  | orLit (o : SLit)
  /-- XOR_LIT (R129) -/
  | xorLit (o : SLit)
  /-- SHL_LIT (R129) -/
  | shlLit (o : SLit)
  /-- SHR_LIT (R129) -/
  | shrLit (o : SLit)
  /-- SAR_LIT (R129) -/
  | sarLit (o : SLit)
  /-- MIN_LIT (R129) -/
  | minLit (o : SLit)
  /-- MAX_LIT (R129) -/
  | maxLit (o : SLit)
  /-- MINU_LIT (R129) -/
  | minuLit (o : SLit)
  /-- MAXU_LIT (R129) -/
  | maxuLit (o : SLit)
  /-- SEQ_LIT (R129) -/
  | seqLit (o : SLit)
  /-- SNE_LIT (R129) -/
  | sneLit (o : SLit)
  /-- SLT_LIT (R129) -/
  | sltLit (o : SLit)
  /-- SLTU_LIT (R129) -/
  | sltuLit (o : SLit)
  /-- SGE_LIT (R129) -/
  | sgeLit (o : SLit)
  /-- SGEU_LIT (R129) -/
  | sgeuLit (o : SLit)
  /-- MUL_LIT (R129) -/
  | mulLit (o : SLit)
  /-- MULH_LIT (R129) -/
  | mulhLit (o : SLit)
  /-- MULHU_LIT (R129) -/
  | mulhuLit (o : SLit)
  /-- DIV_LIT (R129) -/
  | divLit (o : SLit)
  /-- DIVU_LIT (R129) -/
  | divuLit (o : SLit)
  /-- REM_LIT (R129) -/
  | remLit (o : SLit)
  /-- REMU_LIT (R129) -/
  | remuLit (o : SLit)
  /-- LD_B (R130) -/
  | ldB (o : Imm)
  /-- LD_BU (R130) -/
  | ldBu (o : Imm)
  /-- LD_H (R130) -/
  | ldH (o : Imm)
  /-- LD_HU (R130) -/
  | ldHu (o : Imm)
  /-- LD_W (R130) -/
  | ldW (o : Imm)
  /-- LD_WU (R130) -/
  | ldWu (o : Imm)
  /-- LD_D (R130) -/
  | ldD (o : Imm)
  /-- ST_B (R130) -/
  | stB (o : Imm)
  /-- ST_H (R130) -/
  | stH (o : Imm)
  /-- ST_W (R130) -/
  | stW (o : Imm)
  /-- ST_D (R130) -/
  | stD (o : Imm)
  /-- LDA (R133) -/
  | lda (o : Imm)
  /-- STL (R133) -/
  | stl (o : Imm)
  /-- LDQ (R134) -/
  | ldq (o : LdqOps)
  /-- QPOP (R135) -/
  | qpop (o : QRead)
  /-- QPEEK (R135) -/
  | qpeek (o : QRead)
  /-- QPUSH (R135) -/
  | qpush (o : QPushOps)
  /-- QLEN (R135) -/
  | qlen (o : QRead)
  /-- BEQ (R136) -/
  | beq (o : Br)
  /-- BNE (R136) -/
  | bne (o : Br)
  /-- BLT (R136) -/
  | blt (o : Br)
  /-- BGE (R136) -/
  | bge (o : Br)
  /-- BLTU (R136) -/
  | bltu (o : Br)
  /-- BGEU (R136) -/
  | bgeu (o : Br)
  /-- JMP (R137) -/
  | jmp (o : JmpOps)
  /-- JAL (R137) -/
  | jal (o : JalOps)
  /-- JR (R137) -/
  | jr (o : Imm)
  /-- LOOP (R138) -/
  | loop (o : LoopOps)
  /-- LOOPI (R138) -/
  | loopi (o : LoopiOps)
  /-- CADD (R143) -/
  | cadd (o : CntOwn)
  /-- CADD_REMOTE (R143) -/
  | caddRemote (o : CntRemote)
  /-- CADD_PAGE (R143) -/
  | caddPage (o : CntPage)
  /-- CWAIT (R144) -/
  | cwait (o : CWaitOwn)
  /-- CWAIT_PAGE (R144) -/
  | cwaitPage (o : CWaitPage)
  /-- CREAD (R145) -/
  | cread (o : CntOwn)
  /-- CREAD_REMOTE (R145) -/
  | creadRemote (o : CntRemote)
  /-- CREAD_PAGE (R145) -/
  | creadPage (o : CntPage)
  /-- CRST (R146) -/
  | crst (o : CntOwn)
  /-- CRST_PAGE (R146) -/
  | crstPage (o : CntPage)
  /-- FENCE (R148) -/
  | fence (o : FenceOps)
  /-- AADD (R149) -/
  | aadd (o : AtomOps)
  /-- AMIN (R149) -/
  | amin (o : AtomOps)
  /-- AMAX (R149) -/
  | amax (o : AtomOps)
  /-- AMINU (R149) -/
  | aminu (o : AtomOps)
  /-- AMAXU (R149) -/
  | amaxu (o : AtomOps)
  /-- AAND (R149) -/
  | aand (o : AtomOps)
  /-- AOR (R149) -/
  | aor (o : AtomOps)
  /-- AXOR (R149) -/
  | axor (o : AtomOps)
  /-- ASWP (R149) -/
  | aswp (o : AtomOps)
  /-- ACAS (R149) -/
  | acas (o : AtomOps)
  /-- AFADD (R149) -/
  | afadd (o : AtomOps)
  /-- PAND (R186) -/
  | pand (o : Pred3)
  /-- POR (R186) -/
  | por (o : Pred3)
  /-- PNOT (R186) -/
  | pnot (o : Pred2)
  /-- PSET (R186) -/
  | pset (o : PSetOps)
  /-- VMOV (R185) -/
  | vmov (o : Mov2)
  /-- VSPLAT (R185) -/
  | vsplat (o : Mov2)
  /-- VINS (R185) -/
  | vins (o : Mov3)
  /-- VEXT (R185) -/
  | vext (o : VextOps)
  /-- RENQ (R152) -/
  | renq (o : RenqOps)
  /-- DLAUNCH (R153) -/
  | dlaunch (o : Reg2)
  /-- SRD (R156) -/
  | srd (o : SysOps)
  /-- SWR (R156) -/
  | swr (o : SysOps)
  /-- SPGUARD (R163) -/
  | spguard (o : GuardOps)
  /-- TLBI (R160) -/
  | tlbi (o : TlbiOps)
  /-- VADD (R173) -/
  | vadd (o : T2)
  /-- VSUB (R173) -/
  | vsub (o : T2)
  /-- VMUL (R173) -/
  | vmul (o : T2)
  /-- VFMA (R173) -/
  | vfma (o : T3)
  /-- VMIN (R173) -/
  | vmin (o : T2)
  /-- VMAX (R173) -/
  | vmax (o : T2)
  /-- VADD_LIT (R172) -/
  | vaddLit (o : T2L)
  /-- VSUB_LIT (R172) -/
  | vsubLit (o : T2L)
  /-- VMUL_LIT (R172) -/
  | vmulLit (o : T2L)
  /-- VFMA_LIT (R172) -/
  | vfmaLit (o : T3L)
  /-- VMIN_LIT (R172) -/
  | vminLit (o : T2L)
  /-- VMAX_LIT (R172) -/
  | vmaxLit (o : T2L)
  /-- VIADD (R174) -/
  | viadd (o : T2)
  /-- VISUB (R174) -/
  | visub (o : T2)
  /-- VIMUL (R174) -/
  | vimul (o : T2)
  /-- VAND (R174) -/
  | vand (o : T2)
  /-- VOR (R174) -/
  | vor (o : T2)
  /-- VXOR (R174) -/
  | vxor (o : T2)
  /-- VSHL (R174) -/
  | vshl (o : T2)
  /-- VSHR (R174) -/
  | vshr (o : T2)
  /-- VSAR (R174) -/
  | vsar (o : T2)
  /-- VSEL (R175) -/
  | vsel (o : SelOps)
  /-- VCMP (R176) -/
  | vcmp (o : CmpOps)
  /-- VIADD_LIT (R172) -/
  | viaddLit (o : T2L)
  /-- VISUB_LIT (R172) -/
  | visubLit (o : T2L)
  /-- VIMUL_LIT (R172) -/
  | vimulLit (o : T2L)
  /-- VAND_LIT (R172) -/
  | vandLit (o : T2L)
  /-- VOR_LIT (R172) -/
  | vorLit (o : T2L)
  /-- VXOR_LIT (R172) -/
  | vxorLit (o : T2L)
  /-- VSHL_LIT (R172) -/
  | vshlLit (o : T2L)
  /-- VSHR_LIT (R172) -/
  | vshrLit (o : T2L)
  /-- VSAR_LIT (R172) -/
  | vsarLit (o : T2L)
  /-- VSEL_LIT (R172) -/
  | vselLit (o : SelLOps)
  /-- VCMP_LIT (R172) -/
  | vcmpLit (o : CmpLOps)
  /-- VROTC (R182) -/
  | vrotc (o : AxN4)
  /-- VBCC (R182) -/
  | vbcc (o : AxN4)
  /-- VREDC (R183) -/
  | vredc (o : AxRed)
  /-- VROTW (R182) -/
  | vrotw (o : AxN5)
  /-- VBCW (R182) -/
  | vbcw (o : AxN2)
  /-- VBCW_COL (R182) -/
  | vbcwCol (o : AxN4)
  /-- VREDW (R183) -/
  | vredw (o : AxRed)
  /-- VTRN (R182) -/
  | vtrn (o : T1)
  /-- VRCP (R177) -/
  | vrcp (o : T1)
  /-- VRSQ (R177) -/
  | vrsq (o : T1)
  /-- VSQRT (R177) -/
  | vsqrt (o : T1)
  /-- VEXP2 (R177) -/
  | vexp2 (o : T1)
  /-- VLOG2 (R177) -/
  | vlog2 (o : T1)
  /-- VSIN (R177) -/
  | vsin (o : T1)
  /-- VCOS (R177) -/
  | vcos (o : T1)
  /-- VTANH (R177) -/
  | vtanh (o : T1)
  /-- VSIGM (R177) -/
  | vsigm (o : T1)
  /-- VERF (R177) -/
  | verf (o : T1)
  /-- VCVT (R179) -/
  | vcvt (o : CvtOps)
  /-- VPACK (R180) -/
  | vpack (o : PackOps)
  /-- VUNPK (R181) -/
  | vunpk (o : UnpkOps)
  /-- VLD (R188) -/
  | vld (o : TMem)
  /-- VST (R188) -/
  | vst (o : TMem)
  /-- VLDG (R189) -/
  | vldg (o : TIdx)
  /-- VSTS (R189) -/
  | vsts (o : TIdx)
  /-- VQPOP (R190) -/
  | vqpop (o : TQueue)
  /-- VQPUSH (R190) -/
  | vqpush (o : TQueue)
  /-- ILD (R191) -/
  | ild (o : RecMem)
  /-- IST (R191) -/
  | ist (o : RecMem)
  /-- SLD (R191) -/
  | sld (o : RecMem)
  /-- SWP (R197) -/
  | swp (o : SwpOps)
  /-- CBLD (R191) -/
  | cbld (o : XOnly)
  /-- SEED (R193) -/
  | seed (o : XOnly)
  /-- SEED_CE (R193) -/
  | seedCe (o : XOnly)
  /-- EPUSH (R218) -/
  | epush (o : EpushOps)
  /-- ESTART (R219) -/
  | estart (o : XOnly)
  /-- EFLUSH (R220) -/
  | eflush (o : EflushOps)
  /-- TCFG (R205) -/
  | tcfg (o : XOnly)
  /-- TEGO (R312) -/
  | tego (o : TegoOps)
  /-- TESTAT (R313) -/
  | testat (o : TestatOps)
  /-- TETHR (R314) -/
  | tethr (o : TethrOps)
  /-- HPTCFG (R315) -/
  | hptcfg (o : XPair)
  /-- DITSWP_SWAP (R316) -/
  | ditswpSwap (o : X3)
  /-- DITSWP_SET (R316) -/
  | ditswpSet (o : X3)
  /-- DITSWP_FREE (R316) -/
  | ditswpFree (o : DitFree)
  /-- RXOPEN (R326) -/
  | rxopen (o : X2)
  /-- RXSEND (R327) -/
  | rxsend (o : Rx3)
  /-- RXRECV (R328) -/
  | rxrecv (o : Rx2)
  /-- RXFREE (R329) -/
  | rxfree (o : Rx0)
  /-- RXCLOSE (R330) -/
  | rxclose (o : Rx1)
  /-- RXSTAT (R331) -/
  | rxstat (o : Rx2)
  /-- DADD (R277) -/
  | dadd (o : DBin)
  /-- DSUB (R277) -/
  | dsub (o : DBin)
  /-- DMUL (R277) -/
  | dmul (o : DBin)
  /-- DMAX (R277) -/
  | dmax (o : DBin)
  /-- DMIX (R281) -/
  | dmix (o : DMixOps)
  /-- DCOND (R282) -/
  | dcond (o : DUn)
  /-- DSCL (R280) -/
  | dscl (o : DRow)
  /-- DSHF (R280) -/
  | dshf (o : DRow)
  /-- DRELU (R280) -/
  | drelu (o : DUn)
  /-- DAPP (R280) -/
  | dapp (o : DAppOps)
  /-- DTAG (R283) -/
  | dtag (o : DTagOps)
  /-- DTAG_PM (R283) -/
  | dtagPm (o : DUn)
  /-- TAGNEXT (R283) -/
  | tagnext (o : DUn)
  /-- DLD (R285) -/
  | dld (o : DLdOps)
  /-- DST (R286) -/
  | dst (o : DStOps)
  /-- DMKP (R284) -/
  | dmkp (o : DMk1)
  /-- DMKU (R284) -/
  | dmku (o : DMk2)
  /-- DMKQ (R284) -/
  | dmkq (o : DMk1)
  /-- DMOM (R287) -/
  | dmom (o : DMomOps)
  /-- DQNT (R288) -/
  | dqnt (o : DQntOps)
  /-- COUNTER_WAIT_SATISFIED (R144) -/
  | counterWaitSatisfied
  /-- CWAIT_TIMEOUT (R144) -/
  | cwaitTimeout
  /-- QSYNC (R147) -/
  | qsync
  /-- EXIT (R154) -/
  | exit
  /-- SAFE (R46) -/
  | safe
  /-- TRAP (R157) -/
  | trap
  /-- TRET (R158) -/
  | tret
  /-- BKPT (R157) -/
  | bkpt
  /-- HALT (R159) -/
  | halt
  /-- NOP (R159) -/
  | nop
  /-- TLBSYNC (R161) -/
  | tlbsync
  /-- TLB_ENTRY_DROP (R269) -/
  | tlbEntryDrop
  /-- TLBI_ACKNOWLEDGE (R269) -/
  | tlbiAcknowledge
  /-- TLBSYNC_COMPLETE (R269) -/
  | tlbsyncComplete
  /-- WIDE_WORD_ISSUE (R61) -/
  | wideWordIssue
  /-- TCFG_COMPLETE (R205) -/
  | tcfgComplete
  /-- MXLDS (R223) -/
  | mxlds
  /-- MXRUN (R224) -/
  | mxrun
  /-- MXOUT (R226) -/
  | mxout
  /-- MXZERO (R227) -/
  | mxzero
  /-- MXRDA_ST (R227) -/
  | mxrdaSt
  /-- MXRDA_LD (R227) -/
  | mxrdaLd
  /-- CPY (R230) -/
  | cpy
  /-- CPYG (R232) -/
  | cpyg
  /-- CPYS (R232) -/
  | cpys
  /-- CPYM (R233) -/
  | cpym
  /-- PUB (R237) -/
  | pub
  /-- CWT (R238) -/
  | cwt
  /-- CAD (R238) -/
  | cad
  /-- COPY_ROW (R230) -/
  | copyRow
  /-- ENGINE_RETIRE (R215) -/
  | engineRetire
  /-- BRIDLE_STREAM_BEGIN (R211) -/
  | bridleStreamBegin
  /-- BRIDLE_FETCH (R211) -/
  | bridleFetch
  /-- LDQ_FILL (R134) -/
  | ldqFill
  /-- BLOCKING_COMPLETION (R59) -/
  | blockingCompletion
  /-- POSTED_STORE_ACK (R132) -/
  | postedStoreAck
  /-- GANG_FIRST_ISSUE (R32) -/
  | gangFirstIssue
  /-- GANG_COMPLETE (R50) -/
  | gangComplete
  /-- PADDOCK_DECISION (R353) -/
  | paddockDecision
  /-- PREEMPT_DRAIN_END (R49) -/
  | preemptDrainEnd
  /-- CONTEXT_SAVE_COMPLETE (R46) -/
  | contextSaveComplete
  /-- HARD_PREEMPTION (R47) -/
  | hardPreemption
  /-- ASYNC_EVENT_TAKEN (R67) -/
  | asyncEventTaken
  /-- FORCED_QUIET_POINT (R68) -/
  | forcedQuietPoint
  /-- WATCHDOG (R52) -/
  | watchdog
  /-- ENGHANG (R51) -/
  | enghang
  /-- SCRATCHPAD_CLEAR (R54) -/
  | scratchpadClear
  /-- DEBUG_HALT_REQUEST (R73) -/
  | debugHaltRequest
  /-- DEBUG_STATE_WRITE (R73) -/
  | debugStateWrite
  /-- DEBUG_RESUME (R73) -/
  | debugResume
  /-- SHARD_RECORD_READ (R302) -/
  | shardRecordRead
  /-- HOP_START (R303) -/
  | hopStart
  /-- HOP_GRANULE (R310) -/
  | hopGranule
  /-- HOP_DONE (R304) -/
  | hopDone
  /-- THROTTLE_WINDOW_END (R305) -/
  | throttleWindowEnd
  /-- TRACKING_PERIOD_END (R295) -/
  | trackingPeriodEnd
  /-- MOVE_FINAL_SWAP (R294) -/
  | moveFinalSwap
  /-- FRAME_RETURN (R292) -/
  | frameReturn
  /-- SELF_REFRESH_ENTRY (R299) -/
  | selfRefreshEntry
  /-- SLAB_START (R343) -/
  | slabStart
  /-- SLAB_SOURCE_READ (R323) -/
  | slabSourceRead
  /-- SLAB_ARRIVAL (R323) -/
  | slabArrival
  /-- RXFREE_EFFECT (R323) -/
  | rxfreeEffect
  /-- RELAY_PERMIT_GRANT (R327) -/
  | relayPermitGrant
  /-- RXRECV_DELIVER (R328) -/
  | rxrecvDeliver
  /-- CHANNEL_DRAIN_CLOSE (R324) -/
  | channelDrainClose
  /-- MESH_ROUTE (R337) -/
  | meshRoute
  /-- SWITCH_CYCLE (R338) -/
  | switchCycle
  /-- PEER_INGRESS (R244) -/
  | peerIngress
  /-- MULTICAST_FORWARD (R340) -/
  | multicastForward
  /-- PEER_TIMEOUT (R339) -/
  | peerTimeout
  /-- LINK_DOWN (R342) -/
  | linkDown
  /-- CTXCREATE (R372) -/
  | ctxcreate
  /-- CTXDESTROY (R350) -/
  | ctxdestroy
  /-- MAP (R373) -/
  | map
  /-- UNMAP (R267) -/
  | unmap
  /-- ITINREG (R302) -/
  | itinreg
  /-- SUBMIT (R153) -/
  | submit
  /-- CORRAL (R356) -/
  | corral
  /-- ENQUEUE (R357) -/
  | enqueue
  /-- CREAD_COMMAND (R350) -/
  | creadCommand
  /-- VIRESET (R358) -/
  | vireset
  /-- ASSIGN (R345) -/
  | assign
  /-- FABCFG_GROUP (R340) -/
  | fabcfgGroup
  /-- FABCFG_MIRROR (R341) -/
  | fabcfgMirror
  /-- BATCH_FORM (R357) -/
  | batchForm
  /-- SQ_NOTIFY (R349) -/
  | sqNotify
  /-- STAMP_RETRY (R349) -/
  | stampRetry
  /-- STAMP_TIMEOUT (R349) -/
  | stampTimeout
  /-- QCFG_ENABLE (R348) -/
  | qcfgEnable
  /-- QCFG_DISABLE (R348) -/
  | qcfgDisable
  /-- EQHEAD_WRITE (R351) -/
  | eqheadWrite
  /-- DBGEN_WRITE (R366) -/
  | dbgenWrite
  /-- RSTCTL_RESET (R365) -/
  | rstctlReset
  /-- RSTCTL_CLEAR_TRIP (R364) -/
  | rstctlClearTrip
  /-- REGISTER_WRITE (R365) -/
  | registerWrite
  /-- POWER_ON_RESET (R359) -/
  | powerOnReset
  /-- THERMAL_UPDATE (R362) -/
  | thermalUpdate
  /-- THERMAL_TRIP (R364) -/
  | thermalTrip
  /-- DECODING_FAULT (R87) -/
  | decodingFault
  /-- FETCH_BLOCK_ARRIVAL (R371) -/
  | fetchBlockArrival
  /-- CONFIGURATION_REQUEST (R359) -/
  | configurationRequest
  /-- ATOMIC_MESSAGE_ARRIVAL (R165) -/
  | atomicMessageArrival
  deriving DecidableEq, Repr

end Sys2Proof
end

