-- ==== Sys2Proof/WellFormed.lean ====
section
/-!
DEFINITION. The well-formedness of instructions: the codes and field combinations that row 5 of Table 7-12 and R91
refuse beyond the reserved bits, and row 6.
-/

namespace Sys2Proof

/-- Width in bits of one value (Table 7-5). -/
def ETy.width : ETy → Nat
  | .f64 => 64
  | .f32 | .i32 | .ui32 => 32
  | .f16 | .bf16 | .i16 | .ui16 => 16
  | .e4m3 | .e5m2 | .i8 | .ui8 => 8
  | .e2m1 => 4

/-- Value positions of a tile column (R167). -/
def ETy.count (t : ETy) : Nat := 512 / t.width

/-- The float types of Table 7-5. -/
def ETy.isFloat : ETy → Bool
  | .f32 | .f16 | .bf16 | .e4m3 | .e5m2 | .e2m1 | .f64 => true
  | _ => false

/-- The unsigned integer types. -/
def ETy.isUnsigned : ETy → Bool
  | .ui32 | .ui16 | .ui8 => true
  | _ => false

/-- The six integer types of Table 13-1. -/
def ETy.isInt (t : ETy) : Bool := !t.isFloat

/-- f32, f16, bf16 and f64. -/
def ETy.isWideFloat : ETy → Bool
  | .f32 | .f16 | .bf16 | .f64 => true
  | _ => false

/-- No source modifier (Table 13-1, "none"). -/
def Mods.noSrc (m : Mods) : Bool := !(m.negA || m.absA || m.negB || m.absB || m.negC || m.absC)

/-- Source modifiers on a only. -/
def Mods.srcA (m : Mods) : Bool := !(m.negB || m.absB || m.negC || m.absC)

/-- Source modifiers on a and b only. -/
def Mods.srcAB (m : Mods) : Bool := !(m.negC || m.absC)

/-- No destination field (Table 13-1, "none"). -/
def Mods.noDest (m : Mods) : Bool := decide (m.clamp = .none) && decide (m.scale = 0) && decide (m.rnd = .rne)

/-- Source modifiers are accepted for float and signed types only. -/
def Mods.signedSrc (m : Mods) (t : ETy) : Bool := !t.isUnsigned || m.noSrc

/-- The accepted fields of an f32-only move. -/
def Mods.move (m : Mods) : Bool := m.noSrc && m.noDest && decide (m.ety = .f32)

/-- VADD to VMAX (Table 13-1). -/
def Mods.fpArith (m : Mods) : Bool := m.ety.isWideFloat

/-- VIADD, VISUB, VIMUL. -/
def Mods.intArith (m : Mods) : Bool := m.ety.isInt && m.signedSrc m.ety

/-- The logic and shift minors. -/
def Mods.logic (m : Mods) : Bool := m.ety.isInt && m.noSrc && m.noDest

/-- VCMP. -/
def Mods.cmp (m : Mods) : Bool := (m.ety.isWideFloat || m.ety.isInt) && m.signedSrc m.ety && m.noDest

/-- The special functions; `wide` accepts f64 as well. -/
def Mods.special (m : Mods) (wide : Bool) : Bool :=
  m.srcA && (decide (m.ety = .f32) || decide (m.ety = .f16) || decide (m.ety = .bf16) || (wide && decide (m.ety = .f64)))

/-- A reduction code with its types (Tables 13-1, 13-9). -/
def Mods.reduce (m : Mods) (red : Nat) : Bool :=
  m.srcA && m.signedSrc m.ety &&
    (if red ≤ 2 then m.ety.isWideFloat || m.ety.isInt else decide (red ≤ 5) && m.ety.isInt)

/-- Fields that an engine command's disabled wait or add leaves reserved (R90). -/
def CmdHead.wf (h : CmdHead) : Bool :=
  (h.waitEn || (decide (h.waitSlot = 0) && decide (h.waitVal = 0))) && (h.addEn || decide (h.addSlot = 0))

/-- Row 5 of Table 7-12 beyond the reserved bits: the codes and combinations an instruction accepts. -/
def Instr.wf : Instr → Bool
  | .loop o => decide (o.off ≠ 0)
  | .loopi o => decide (o.off ≠ 0)
  | .fence o => decide (o.scope.toNat ≤ 4) && decide (o.flavour ≠ 0)
  | .tlbi o => decide (2 ≤ o.scope.toNat) && decide (o.scope.toNat ≤ 4) && (!o.all || decide (o.asid = 0))
  | .vadd o | .vsub o | .vmul o | .vmin o | .vmax o => o.m.fpArith && o.m.srcAB
  | .vfma o => o.m.fpArith
  | .vaddLit o | .vsubLit o | .vmulLit o | .vminLit o | .vmaxLit o => o.m.fpArith && o.m.srcAB
  | .vfmaLit o => o.m.fpArith
  | .viadd o | .visub o | .vimul o => o.m.intArith && o.m.srcAB
  | .viaddLit o | .visubLit o | .vimulLit o => o.m.intArith && o.m.srcAB
  | .vand o | .vor o | .vxor o | .vshl o | .vshr o | .vsar o => o.m.logic
  | .vandLit o | .vorLit o | .vxorLit o | .vshlLit o | .vshrLit o | .vsarLit o => o.m.logic
  | .vsel o => o.m.move
  | .vselLit o => o.m.move
  | .vcmp o => o.m.cmp && o.m.srcAB && decide (o.cond.toNat ≤ 7)
  | .vcmpLit o => o.m.cmp && o.m.srcAB && decide (o.cond.toNat ≤ 7)
  | .vrotc o | .vbcc o | .vbcwCol o => o.m.move
  | .vrotw o => o.m.move
  | .vbcw o => o.m.move
  | .vtrn o => o.m.move
  | .vredc o => o.m.reduce o.red.toNat
  | .vredw o => o.m.reduce o.red.toNat && decide (o.m.rnd ≠ .sr)
  | .vrcp o | .vrsq o | .vsqrt o => o.m.special true
  | .vexp2 o | .vlog2 o | .vsin o | .vcos o | .vtanh o | .vsigm o | .verf o => o.m.special false
  | .vcvt o => o.m.srcA && o.m.signedSrc o.sty && (!o.keep || decide (o.sty.count < o.m.ety.count))
  | .vpack o => o.m.srcAB && o.m.signedSrc o.sty && decide (o.m.ety.count = 2 * o.sty.count)
  | .vunpk o => o.m.srcA && o.m.signedSrc o.sty && decide (o.sty.count = 2 * o.m.ety.count)
  | .vst o => decide (o.pitch ≠ 0)
  | .swp o => decide (o.op.toNat ≤ 6) && (decide (o.op.toNat ≠ 6) || decide (o.b = 0)) &&
      (decide (o.op.toNat = 3) || decide (o.c = 0)) && decide (o.rnd ≠ .sr) &&
      (o.ety.isWideFloat || decide (o.ety = .i32) || decide (o.ety = .ui32))
  | .epush o => decide (o.queue ≠ 3)
  | .dld o => decide (o.mode ≠ 3)
  | .dapp o => decide (o.fn.toNat ≤ 9)
  | .dmkq o => decide (o.r.toNat ≤ 8)
  | .dqnt o => decide (o.q.toNat ≤ 1000)
  | _ => true

/-- The row-axis instructions (R56, R182). -/
def Instr.rowAxis : Instr → Bool
  | .vrotw _ | .vbcw _ | .vbcwCol _ | .vredw _ | .vtrn _ => true
  | _ => false

/-- The fields of an engine command that its code or its other fields leave reserved (R90, R91, R238,
Table 15-7). -/
def EngCmd.wf (c : EngCmd) : Bool :=
  c.h.wf &&
  match c.op with
  | .mxrun _ _ tile src => tile || decide (src.toNat < 16)
  | .mxout _ _ tile dst fmt rnd _ _ =>
      (tile || decide (dst.toNat < 16)) && decide (rnd.toNat ≤ 5) && (decide (fmt.toNat < 12) || decide (fmt.toNat = 15))
  | .cad (.page _) amount => decide (amount = 0)
  | .cwt _ => c.h.waitEn && decide (c.h.waitSlot = 0)
  | _ => true

end Sys2Proof
end

