-- ==== Sys2Proof/Decode.lean ====
section
/-!
DEFINITION. Decoding (R74-R92): from the bytes of an instruction to its constructor, rejecting by the names of
Table 7-12; the engine command words of Table 7-13; and, after the decoder, the encoder of the same formats.
-/

namespace Sys2Proof

/-! ### Bit fields -/

/-- Bits [lo + n - 1 : lo] of `w`. -/
def fld (w lo n : Nat) : Nat := w / 2 ^ lo % 2 ^ n

/-- The same bits as a vector. -/
def bv (w lo n : Nat) : BitVec n := BitVec.ofNat n (fld w lo n)

/-- Bit `lo` of `w`. -/
def bit (w lo : Nat) : Bool := decide (fld w lo 1 = 1)

/-- Every listed field (lowest bit, width) is zero. -/
def zeros (w : Nat) (rs : List (Nat × Nat)) : Bool := rs.all fun r => decide (fld w r.1 r.2 = 0)

/-- The value whose fields, from bit 0 upward, are the listed (width, value) pairs. -/
def cat : List (Nat × Nat) → Nat
  | [] => 0
  | p :: t => p.2 % 2 ^ p.1 + 2 ^ p.1 * cat t

/-- Little-endian value of bytes (R5). -/
def leNat : List Byte → Nat
  | [] => 0
  | b :: t => b.toNat + 256 * leNat t

/-- The `n` bytes of a value, lowest first (R5). -/
def leBytes : Nat → Nat → List Byte
  | 0, _ => []
  | n + 1, v => BitVec.ofNat 8 v :: leBytes n (v / 256)

/-! ### Code tables -/

/-- Table 7-5; the codes 0xD to 0xF are reserved. -/
def ETy.ofCode : Nat → Option ETy
  | 0 => some .f32 | 1 => some .f16 | 2 => some .bf16 | 3 => some .e4m3 | 4 => some .e5m2 | 5 => some .e2m1
  | 6 => some .f64 | 7 => some .i32 | 8 => some .ui32 | 9 => some .i16 | 10 => some .ui16 | 11 => some .i8
  | 12 => some .ui8 | _ => none

/-- The code of an element type (Table 7-5). -/
def ETy.code : ETy → Nat
  | .f32 => 0 | .f16 => 1 | .bf16 => 2 | .e4m3 => 3 | .e5m2 => 4 | .e2m1 => 5 | .f64 => 6 | .i32 => 7
  | .ui32 => 8 | .i16 => 9 | .ui16 => 10 | .i8 => 11 | .ui8 => 12

/-- Table 7-4. -/
def Rnd.ofCode : Nat → Rnd
  | 0 => .rne | 1 => .rtz | 2 => .rdn | 3 => .rup | 4 => .rna | 5 => .rto | 6 => .sr | _ => .dyn

/-- The code of a rounding mode (Table 7-4). -/
def Rnd.code : Rnd → Nat
  | .rne => 0 | .rtz => 1 | .rdn => 2 | .rup => 3 | .rna => 4 | .rto => 5 | .sr => 6 | .dyn => 7

/-- Table 7-3. -/
def Clamp.ofCode : Nat → Clamp
  | 0 => .none | 1 => .to01 | 2 => .to11 | _ => .sat

/-- The code of a clamp (Table 7-3). -/
def Clamp.code : Clamp → Nat
  | .none => 0 | .to01 => 1 | .to11 => 2 | .sat => 3

/-! ### Operand fields -/

/-- The modifier fields of layout M with the predicate of W1 (Table 7-2). -/
def decMods (w : Nat) : Option Mods :=
  (ETy.ofCode (fld w 42 4)).map fun e =>
    { negA := bit w 63, absA := bit w 62, negB := bit w 61, absB := bit w 60, negC := bit w 59, absC := bit w 58,
      clamp := Clamp.ofCode (fld w 56 2), scale := bv w 50 6, rnd := Rnd.ofCode (fld w 47 3), reuse := bit w 46,
      ety := e, pred := bv w 4 3 }

/-- The fields of `Reg3`. -/
def decReg3 (w : Nat) : Reg3 :=
  { rd := bv w 17 5, ra := bv w 12 5, rb := bv w 7 5 }

/-- The fields of `Reg2`. -/
def decReg2 (w : Nat) : Reg2 :=
  { rd := bv w 17 5, ra := bv w 12 5 }

/-- The fields of `Imm`. -/
def decImm (w : Nat) : Imm :=
  { rd := bv w 17 5, ra := bv w 12 5, imm := bv w 0 12 }

/-- The fields of `ShImm`. -/
def decShImm (w : Nat) : ShImm :=
  { rd := bv w 17 5, ra := bv w 12 5, sh := bv w 0 6 }

/-- The fields of `LitOps`. -/
def decLitOps (w : Nat) : LitOps :=
  { rd := bv w 17 5, lit := BitVec.ofNat 64 (fld w 32 32 * 2 ^ 32 + fld w 64 32) }

/-- The fields of `SLit`. -/
def decSLit (w : Nat) : SLit :=
  { rd := bv w 17 5, ra := bv w 12 5, lit := bv w 64 32 }

/-- The fields of `LdqOps`. -/
def decLdqOps (w : Nat) : LdqOps :=
  { q := bv w 17 3, ra := bv w 12 5, imm := bv w 0 12 }

/-- The fields of `QRead`. -/
def decQRead (w : Nat) : QRead :=
  { rd := bv w 17 5, q := bv w 12 3 }

/-- The fields of `QPushOps`. -/
def decQPushOps (w : Nat) : QPushOps :=
  { q := bv w 12 3, rb := bv w 7 5 }

/-- The fields of `Br`. -/
def decBr (w : Nat) : Br :=
  { ra := bv w 17 5, rb := bv w 12 5, off := bv w 0 12 }

/-- The fields of `JmpOps`. -/
def decJmpOps (w : Nat) : JmpOps :=
  { off := bv w 0 22 }

/-- The fields of `JalOps`. -/
def decJalOps (w : Nat) : JalOps :=
  { rd := bv w 17 5, off := bv w 0 17 }

/-- The fields of `LoopOps`. -/
def decLoopOps (w : Nat) : LoopOps :=
  { ra := bv w 17 5, off := bv w 0 12 }

/-- The fields of `LoopiOps`. -/
def decLoopiOps (w : Nat) : LoopiOps :=
  { count := bv w 12 10, off := bv w 0 12 }

/-- The fields of `CntOwn`. -/
def decCntOwn (w : Nat) : CntOwn :=
  { k := bv w 13 9, ra := bv w 8 5 }

/-- The fields of `CntRemote`. -/
def decCntRemote (w : Nat) : CntRemote :=
  { k := bv w 13 9, ra := bv w 8 5, rb := bv w 3 5 }

/-- The fields of `CntPage`. -/
def decCntPage (w : Nat) : CntPage :=
  { xk := bv w 17 5, ra := bv w 8 5 }

/-- The fields of `CWaitOwn`. -/
def decCWaitOwn (w : Nat) : CWaitOwn :=
  { k := bv w 13 9, ra := bv w 8 5, rb := bv w 3 5 }

/-- The fields of `CWaitPage`. -/
def decCWaitPage (w : Nat) : CWaitPage :=
  { xk := bv w 17 5, ra := bv w 8 5, rb := bv w 3 5 }

/-- The fields of `FenceOps`. -/
def decFenceOps (w : Nat) : FenceOps :=
  { flavour := bv w 3 2, scope := bv w 0 3 }

/-- The fields of `AtomOps`. -/
def decAtomOps (w : Nat) : AtomOps :=
  { rd := bv w 17 5, ra := bv w 12 5, rb := bv w 7 5, dbl := bit w 5 }

/-- The fields of `Pred3`. -/
def decPred3 (w : Nat) : Pred3 :=
  { pd := bv w 17 3, pa := bv w 12 3, pb := bv w 7 3 }

/-- The fields of `Pred2`. -/
def decPred2 (w : Nat) : Pred2 :=
  { pd := bv w 17 3, pa := bv w 12 3 }

/-- The fields of `PSetOps`. -/
def decPSetOps (w : Nat) : PSetOps :=
  { pd := bv w 17 3, imm := bv w 0 16 }

/-- The fields of `Mov2`. -/
def decMov2 (w : Nat) : Mov2 :=
  { td := bv w 17 5, ta := bv w 12 5, pred := bv w 4 3 }

/-- The fields of `Mov3`. -/
def decMov3 (w : Nat) : Mov3 :=
  { td := bv w 17 5, ta := bv w 12 5, tb := bv w 7 5, pred := bv w 4 3 }

/-- The fields of `VextOps`. -/
def decVextOps (w : Nat) : VextOps :=
  { xd := bv w 17 5, ta := bv w 12 5, tb := bv w 7 5 }

/-- The fields of `RenqOps`. -/
def decRenqOps (w : Nat) : RenqOps :=
  { ra := bv w 12 5, rb := bv w 7 5 }

/-- The fields of `SysOps`. -/
def decSysOps (w : Nat) : SysOps :=
  { rd := bv w 17 5, num := bv w 0 12 }

/-- The fields of `GuardOps`. -/
def decGuardOps (w : Nat) : GuardOps :=
  { ra := bv w 12 5, rb := bv w 7 5, mark := bit w 0 }

/-- The fields of `TlbiOps`. -/
def decTlbiOps (w : Nat) : TlbiOps :=
  { ra := bv w 12 5, rb := bv w 7 5, asid := bv w 64 16, scope := bv w 80 3, all := bit w 83 }

/-- The fields of `T2`; none for a reserved element-type code. -/
def decT2 (w : Nat) : Option T2 :=
  (decMods w).map fun m => { d := bv w 17 5, a := bv w 12 5, b := bv w 7 5, m := m }

/-- The fields of `T3`; none for a reserved element-type code. -/
def decT3 (w : Nat) : Option T3 :=
  (decMods w).map fun m => { d := bv w 17 5, a := bv w 12 5, b := bv w 7 5, c := bv w 37 5, m := m }

/-- The fields of `T2L`; none for a reserved element-type code. -/
def decT2L (w : Nat) : Option T2L :=
  (decMods w).map fun m => { d := bv w 17 5, a := bv w 12 5, lit := bv w 64 32, m := m }

/-- The fields of `T3L`; none for a reserved element-type code. -/
def decT3L (w : Nat) : Option T3L :=
  (decMods w).map fun m => { d := bv w 17 5, a := bv w 12 5, c := bv w 37 5, lit := bv w 64 32, m := m }

/-- The fields of `SelOps`; none for a reserved element-type code. -/
def decSelOps (w : Nat) : Option SelOps :=
  (decMods w).map fun m => { d := bv w 17 5, a := bv w 12 5, b := bv w 7 5, sel := bv w 32 3, m := m }

/-- The fields of `CmpOps`; none for a reserved element-type code. -/
def decCmpOps (w : Nat) : Option CmpOps :=
  (decMods w).map fun m => { pd := bv w 17 3, a := bv w 12 5, b := bv w 7 5, cond := bv w 32 4, any := bit w 36, m := m }

/-- The fields of `SelLOps`; none for a reserved element-type code. -/
def decSelLOps (w : Nat) : Option SelLOps :=
  (decMods w).map fun m => { d := bv w 17 5, a := bv w 12 5, sel := bv w 32 3, lit := bv w 64 32, m := m }

/-- The fields of `CmpLOps`; none for a reserved element-type code. -/
def decCmpLOps (w : Nat) : Option CmpLOps :=
  (decMods w).map fun m => { pd := bv w 17 3, a := bv w 12 5, cond := bv w 32 4, any := bit w 36, lit := bv w 64 32, m := m }

/-- The fields of `AxN4`; none for a reserved element-type code. -/
def decAxN4 (w : Nat) : Option AxN4 :=
  (decMods w).map fun m => { d := bv w 17 5, a := bv w 12 5, n := bv w 32 4, m := m }

/-- The fields of `AxRed`; none for a reserved element-type code. -/
def decAxRed (w : Nat) : Option AxRed :=
  (decMods w).map fun m => { d := bv w 17 5, a := bv w 12 5, red := bv w 32 3, m := m }

/-- The fields of `AxN5`; none for a reserved element-type code. -/
def decAxN5 (w : Nat) : Option AxN5 :=
  (decMods w).map fun m => { d := bv w 17 5, a := bv w 12 5, n := bv w 32 5, m := m }

/-- The fields of `AxN2`; none for a reserved element-type code. -/
def decAxN2 (w : Nat) : Option AxN2 :=
  (decMods w).map fun m => { d := bv w 17 5, a := bv w 12 5, n := bv w 32 2, m := m }

/-- The fields of `T1`; none for a reserved element-type code. -/
def decT1 (w : Nat) : Option T1 :=
  (decMods w).map fun m => { d := bv w 17 5, a := bv w 12 5, m := m }

/-- The fields of `CvtOps`; none for a reserved element-type code. -/
def decCvtOps (w : Nat) : Option CvtOps :=
  (ETy.ofCode (fld w 32 4)).bind fun sty => (decMods w).map fun m => { d := bv w 17 5, a := bv w 12 5, sty := sty, keep := bit w 36, m := m }

/-- The fields of `PackOps`; none for a reserved element-type code. -/
def decPackOps (w : Nat) : Option PackOps :=
  (ETy.ofCode (fld w 32 4)).bind fun sty => (decMods w).map fun m => { d := bv w 17 5, a := bv w 12 5, b := bv w 7 5, sty := sty, m := m }

/-- The fields of `UnpkOps`; none for a reserved element-type code. -/
def decUnpkOps (w : Nat) : Option UnpkOps :=
  (ETy.ofCode (fld w 32 4)).bind fun sty => (decMods w).map fun m => { d := bv w 17 5, a := bv w 12 5, sty := sty, hi := bit w 36, m := m }

/-- The fields of `TMem`. -/
def decTMem (w : Nat) : TMem :=
  { d := bv w 17 5, a := bv w 12 5, pitch := bv w 56 8, pred := bv w 4 3 }

/-- The fields of `TIdx`. -/
def decTIdx (w : Nat) : TIdx :=
  { d := bv w 17 5, a := bv w 12 5, b := bv w 7 5, pred := bv w 4 3 }

/-- The fields of `TQueue`. -/
def decTQueue (w : Nat) : TQueue :=
  { d := bv w 17 5, q := bv w 12 3, g := bv w 46 2, pred := bv w 4 3 }

/-- The fields of `RecMem`. -/
def decRecMem (w : Nat) : RecMem :=
  { d := bv w 17 4, a := bv w 12 5 }

/-- The fields of `SwpOps`; none for a reserved element-type code. -/
def decSwpOps (w : Nat) : Option SwpOps :=
  (ETy.ofCode (fld w 42 4)).map fun ety => { d := bv w 17 4, a := bv w 12 4, b := bv w 7 4, c := bv w 37 4, op := bv w 60 4, clamp := Clamp.ofCode (fld w 58 2), scale := bv w 52 6, rnd := Rnd.ofCode (fld w 49 3), ety := ety }

/-- The fields of `XOnly`. -/
def decXOnly (w : Nat) : XOnly :=
  { a := bv w 12 5 }

/-- The fields of `EpushOps`. -/
def decEpushOps (w : Nat) : EpushOps :=
  { a := bv w 12 5, b := bv w 7 5, queue := bv w 46 2 }

/-- The fields of `EflushOps`. -/
def decEflushOps (w : Nat) : EflushOps :=
  { mask := bv w 46 5 }

/-- The fields of `TegoOps`. -/
def decTegoOps (w : Nat) : TegoOps :=
  { d := bv w 17 5, a := bv w 12 5, b := bv w 7 5, lane := bv w 46 3, wl := bv w 49 3, wh := bv w 52 3, ws := bv w 55 3 }

/-- The fields of `TestatOps`. -/
def decTestatOps (w : Nat) : TestatOps :=
  { d := bv w 17 5, a := bv w 12 5, lane := bv w 46 3 }

/-- The fields of `TethrOps`. -/
def decTethrOps (w : Nat) : TethrOps :=
  { a := bv w 12 5, b := bv w 7 5, lane := bv w 46 3 }

/-- The fields of `XPair`. -/
def decXPair (w : Nat) : XPair :=
  { a := bv w 12 5, b := bv w 7 5 }

/-- The fields of `X3`. -/
def decX3 (w : Nat) : X3 :=
  { d := bv w 17 5, a := bv w 12 5, b := bv w 7 5 }

/-- The fields of `DitFree`. -/
def decDitFree (w : Nat) : DitFree :=
  { d := bv w 17 5, a := bv w 12 5, b := bv w 7 5, shadow := bit w 48 }

/-- The fields of `X2`. -/
def decX2 (w : Nat) : X2 :=
  { d := bv w 17 5, a := bv w 12 5 }

/-- The fields of `Rx3`. -/
def decRx3 (w : Nat) : Rx3 :=
  { d := bv w 17 5, a := bv w 12 5, b := bv w 7 5, ch := bv w 46 6 }

/-- The fields of `Rx2`. -/
def decRx2 (w : Nat) : Rx2 :=
  { d := bv w 17 5, a := bv w 12 5, ch := bv w 46 6 }

/-- The fields of `Rx0`. -/
def decRx0 (w : Nat) : Rx0 :=
  { ch := bv w 46 6 }

/-- The fields of `Rx1`. -/
def decRx1 (w : Nat) : Rx1 :=
  { d := bv w 17 5, ch := bv w 46 6 }

/-- The fields of `DBin`. -/
def decDBin (w : Nat) : DBin :=
  { d := bv w 17 4, a := bv w 12 4, b := bv w 7 4, pw := bit w 32, pred := bv w 4 3 }

/-- The fields of `DMixOps`. -/
def decDMixOps (w : Nat) : DMixOps :=
  { d := bv w 17 4, a := bv w 12 4, b := bv w 7 4, t := bv w 59 5, r := bv w 55 4, pred := bv w 4 3 }

/-- The fields of `DUn`. -/
def decDUn (w : Nat) : DUn :=
  { d := bv w 17 4, a := bv w 12 4, pred := bv w 4 3 }

/-- The fields of `DRow`. -/
def decDRow (w : Nat) : DRow :=
  { d := bv w 17 4, a := bv w 12 4, t := bv w 59 5, r := bv w 55 4, pred := bv w 4 3 }

/-- The fields of `DAppOps`. -/
def decDAppOps (w : Nat) : DAppOps :=
  { d := bv w 17 4, a := bv w 12 4, fn := bv w 32 4, pred := bv w 4 3 }

/-- The fields of `DTagOps`. -/
def decDTagOps (w : Nat) : DTagOps :=
  { d := bv w 17 4, a := bv w 12 4, b := bv w 7 4, pred := bv w 4 3 }

/-- The fields of `DLdOps`. -/
def decDLdOps (w : Nat) : DLdOps :=
  { d := bv w 17 4, a := bv w 12 5, mode := bv w 46 2 }

/-- The fields of `DStOps`. -/
def decDStOps (w : Nat) : DStOps :=
  { d := bv w 17 4, a := bv w 12 5 }

/-- The fields of `DMk1`. -/
def decDMk1 (w : Nat) : DMk1 :=
  { d := bv w 17 4, a := bv w 12 5, r := bv w 46 4, pred := bv w 4 3 }

/-- The fields of `DMk2`. -/
def decDMk2 (w : Nat) : DMk2 :=
  { d := bv w 17 4, a := bv w 12 5, rlo := bv w 46 4, rhi := bv w 50 4, pred := bv w 4 3 }

/-- The fields of `DMomOps`. -/
def decDMomOps (w : Nat) : DMomOps :=
  { d := bv w 17 5, a := bv w 12 4, r := bv w 46 4, k := bv w 50 2, pred := bv w 4 3 }

/-- The fields of `DQntOps`. -/
def decDQntOps (w : Nat) : DQntOps :=
  { d := bv w 17 5, a := bv w 12 4, r := bv w 46 4, q := bv w 50 10, pred := bv w 4 3 }

/-! ### The decoder -/

/-- Why a word sequence is no instruction (Table 7-12, rows 2, 4, 5 and 6), or that bytes are missing. -/
inductive DecErr where
  | illen | illop | illfld | short
  deriving DecidableEq, Repr

/-- The cause of a trap at an instruction that does not decode (Tables 5-5 and 7-12); bytes that end too soon come to no fetched
instruction. -/
def DecErr.cause : DecErr → Nat
  | .illen | .short => 1
  | .illop => 2
  | .illfld => 3

/-- Row 5 of Table 7-12 for the reserved fields `rs` of a format. -/
def chk (w : Nat) (rs : List (Nat × Nat)) (i : Instr) : Except DecErr Instr :=
  if zeros w rs then .ok i else .error .illfld

/-- The same for a format with an element-type code, `none` where the code is reserved. -/
def chkO (w : Nat) (rs : List (Nat × Nat)) (i : Option Instr) : Except DecErr Instr :=
  match i with
  | some i => chk w rs i
  | none => .error .illfld

/-- Major 0x00 of the 32-bit class. -/
def dec32M00 (w : Nat) : Except DecErr Instr :=
  match fld w 0 7 with
  | 0x00 => chk w [] (.add (decReg3 w))
  | 0x01 => chk w [] (.sub (decReg3 w))
  | 0x02 => chk w [] (.and (decReg3 w))
  | 0x03 => chk w [] (.or (decReg3 w))
  | 0x04 => chk w [] (.xor (decReg3 w))
  | 0x05 => chk w [] (.shl (decReg3 w))
  | 0x06 => chk w [] (.shr (decReg3 w))
  | 0x07 => chk w [] (.sar (decReg3 w))
  | 0x08 => chk w [] (.min (decReg3 w))
  | 0x09 => chk w [] (.max (decReg3 w))
  | 0x0A => chk w [] (.minu (decReg3 w))
  | 0x0B => chk w [] (.maxu (decReg3 w))
  | 0x0C => chk w [] (.seq (decReg3 w))
  | 0x0D => chk w [] (.sne (decReg3 w))
  | 0x0E => chk w [] (.slt (decReg3 w))
  | 0x0F => chk w [] (.sltu (decReg3 w))
  | 0x10 => chk w [] (.sge (decReg3 w))
  | 0x11 => chk w [] (.sgeu (decReg3 w))
  | 0x12 => chk w [(7, 5)] (.clz (decReg2 w))
  | 0x13 => chk w [(7, 5)] (.popc (decReg2 w))
  | 0x14 => chk w [] (.mul (decReg3 w))
  | 0x15 => chk w [] (.mulh (decReg3 w))
  | 0x16 => chk w [] (.mulhu (decReg3 w))
  | 0x17 => chk w [] (.div (decReg3 w))
  | 0x18 => chk w [] (.divu (decReg3 w))
  | 0x19 => chk w [] (.rem (decReg3 w))
  | 0x1A => chk w [] (.remu (decReg3 w))
  | 0x1B => chk w [] (.sel (decReg3 w))
  | 0x1C => chk w [] (.leaX1 (decReg3 w))
  | 0x1D => chk w [] (.leaX2 (decReg3 w))
  | 0x1E => chk w [] (.leaX4 (decReg3 w))
  | 0x1F => chk w [] (.leaX8 (decReg3 w))
  | _ => .error .illop

/-- Major 0x3E of the 32-bit class. -/
def dec32M3E (w : Nat) : Except DecErr Instr :=
  match fld w 0 7 with
  | 0x00 => chk w [(7, 5), (15, 2)] (.qpop (decQRead w))
  | 0x01 => chk w [(7, 5), (15, 2)] (.qpeek (decQRead w))
  | 0x02 => chk w [(15, 7)] (.qpush (decQPushOps w))
  | 0x03 => chk w [(7, 5), (15, 2)] (.qlen (decQRead w))
  | _ => .error .illop

/-- Major 0x40 of the 32-bit class. -/
def dec32M40 (w : Nat) : Except DecErr Instr :=
  if bit w 2 then chk w [(0, 2), (3, 5), (13, 4)] (.caddPage (decCntPage w))
  else if bit w 1 then chk w [(0, 1), (2, 1)] (.caddRemote (decCntRemote w))
  else chk w [(0, 8)] (.cadd (decCntOwn w))

/-- Major 0x41 of the 32-bit class. -/
def dec32M41 (w : Nat) : Except DecErr Instr :=
  if bit w 2 then chk w [(0, 2), (13, 4)] (.cwaitPage (decCWaitPage w))
  else chk w [(0, 3)] (.cwait (decCWaitOwn w))

/-- Major 0x42 of the 32-bit class. -/
def dec32M42 (w : Nat) : Except DecErr Instr :=
  if bit w 2 then chk w [(0, 2), (3, 5), (13, 4)] (.creadPage (decCntPage w))
  else if bit w 1 then chk w [(0, 1), (2, 1)] (.creadRemote (decCntRemote w))
  else chk w [(0, 8)] (.cread (decCntOwn w))

/-- Major 0x43 of the 32-bit class. -/
def dec32M43 (w : Nat) : Except DecErr Instr :=
  if bit w 2 then chk w [(0, 2), (3, 5), (13, 4)] (.crstPage (decCntPage w))
  else chk w [(0, 8)] (.crst (decCntOwn w))

/-- Row 5 for an atomic: width codes 0 and 1 are reserved (Table 7-9). -/
def chkAtom (w : Nat) (i : Instr) : Except DecErr Instr :=
  if fld w 4 1 = 0 ∧ bit w 6 then .ok i else .error .illfld

/-- Major 0x49 of the 32-bit class. -/
def dec32M49 (w : Nat) : Except DecErr Instr :=
  match fld w 0 4 with
  | 0x00 => chkAtom w (.aadd (decAtomOps w))
  | 0x01 => chkAtom w (.amin (decAtomOps w))
  | 0x02 => chkAtom w (.amax (decAtomOps w))
  | 0x03 => chkAtom w (.aminu (decAtomOps w))
  | 0x04 => chkAtom w (.amaxu (decAtomOps w))
  | 0x05 => chkAtom w (.aand (decAtomOps w))
  | 0x06 => chkAtom w (.aor (decAtomOps w))
  | 0x07 => chkAtom w (.axor (decAtomOps w))
  | 0x08 => chkAtom w (.aswp (decAtomOps w))
  | 0x09 => chkAtom w (.acas (decAtomOps w))
  | 0x0A => chkAtom w (.afadd (decAtomOps w))
  | _ => .error .illop

/-- Major 0x50 of the 32-bit class. -/
def dec32M50 (w : Nat) : Except DecErr Instr :=
  match fld w 0 7 with
  | 0x00 => chk w [(10, 2), (15, 2), (20, 2)] (.pand (decPred3 w))
  | 0x01 => chk w [(10, 2), (15, 2), (20, 2)] (.por (decPred3 w))
  | 0x02 => chk w [(7, 5), (15, 2), (20, 2)] (.pnot (decPred2 w))
  | _ => .error .illop

/-- Major 0x52 of the 32-bit class. -/
def dec32M52 (w : Nat) : Except DecErr Instr :=
  match fld w 0 4 with
  | 0x00 => chk w [(7, 5)] (.vmov (decMov2 w))
  | 0x01 => chk w [(7, 5)] (.vsplat (decMov2 w))
  | 0x02 => chk w [] (.vins (decMov3 w))
  | 0x03 => chk w [(4, 3)] (.vext (decVextOps w))
  | _ => .error .illop

/-- The 32-bit class (Tables 7-7 to 7-10). -/
def dec32 (w : Nat) : Except DecErr Instr :=
  match fld w 22 7 with
  | 0x00 => dec32M00 w
  | 0x01 => chk w [] (.addi (decImm w))
  | 0x02 => chk w [] (.subi (decImm w))
  | 0x03 => chk w [] (.muli (decImm w))
  | 0x04 => chk w [] (.divi (decImm w))
  | 0x05 => chk w [] (.remi (decImm w))
  | 0x06 => chk w [] (.andi (decImm w))
  | 0x07 => chk w [] (.ori (decImm w))
  | 0x08 => chk w [] (.xori (decImm w))
  | 0x09 => chk w [(6, 6)] (.shli (decShImm w))
  | 0x0A => chk w [(6, 6)] (.shri (decShImm w))
  | 0x0B => chk w [(6, 6)] (.sari (decShImm w))
  | 0x0C => chk w [] (.slti (decImm w))
  | 0x0D => chk w [] (.sltiu (decImm w))
  | 0x0E => chk w [] (.seqi (decImm w))
  | 0x0F => chk w [] (.mini (decImm w))
  | 0x10 => chk w [] (.maxi (decImm w))
  | 0x20 => chk w [] (.beq (decBr w))
  | 0x21 => chk w [] (.bne (decBr w))
  | 0x22 => chk w [] (.blt (decBr w))
  | 0x23 => chk w [] (.bge (decBr w))
  | 0x24 => chk w [] (.bltu (decBr w))
  | 0x25 => chk w [] (.bgeu (decBr w))
  | 0x26 => chk w [] (.jmp (decJmpOps w))
  | 0x27 => chk w [] (.jal (decJalOps w))
  | 0x28 => chk w [] (.jr (decImm w))
  | 0x29 => chk w [(12, 5)] (.loop (decLoopOps w))
  | 0x2A => chk w [] (.loopi (decLoopiOps w))
  | 0x30 => chk w [] (.ldB (decImm w))
  | 0x31 => chk w [] (.ldBu (decImm w))
  | 0x32 => chk w [] (.ldH (decImm w))
  | 0x33 => chk w [] (.ldHu (decImm w))
  | 0x34 => chk w [] (.ldW (decImm w))
  | 0x35 => chk w [] (.ldWu (decImm w))
  | 0x36 => chk w [] (.ldD (decImm w))
  | 0x37 => chk w [] (.stB (decImm w))
  | 0x38 => chk w [] (.stH (decImm w))
  | 0x39 => chk w [] (.stW (decImm w))
  | 0x3A => chk w [] (.stD (decImm w))
  | 0x3B => chk w [] (.lda (decImm w))
  | 0x3C => chk w [] (.stl (decImm w))
  | 0x3D => chk w [(20, 2)] (.ldq (decLdqOps w))
  | 0x3E => dec32M3E w
  | 0x40 => dec32M40 w
  | 0x41 => dec32M41 w
  | 0x42 => dec32M42 w
  | 0x43 => dec32M43 w
  | 0x47 => chk w [(0, 22)] .qsync
  | 0x48 => chk w [(5, 17)] (.fence (decFenceOps w))
  | 0x49 => dec32M49 w
  | 0x50 => dec32M50 w
  | 0x51 => chk w [(16, 1), (20, 2)] (.pset (decPSetOps w))
  | 0x52 => dec32M52 w
  | 0x60 => chk w [(0, 7), (17, 5)] (.renq (decRenqOps w))
  | 0x61 => chk w [(0, 12)] (.dlaunch (decReg2 w))
  | 0x62 => chk w [(0, 22)] .exit
  | 0x63 => chk w [(16, 6)] .safe
  | 0x64 => chk w [(12, 5)] (.srd (decSysOps w))
  | 0x65 => chk w [(12, 5)] (.swr (decSysOps w))
  | 0x66 => chk w [(16, 6)] .trap
  | 0x67 => chk w [(0, 22)] .tret
  | 0x68 => chk w [(16, 6)] .bkpt
  | 0x69 => chk w [(0, 22)] .halt
  | 0x6A => chk w [(0, 22)] .nop
  | 0x6B => chk w [(3, 19)] .tlbsync
  | 0x6C => chk w [(1, 6), (17, 5)] (.spguard (decGuardOps w))
  | _ => .error .illop

/-- Major 0x00 of the 64-bit class. -/
def dec64M00 (w : Nat) : Except DecErr Instr :=
  match fld w 0 4 with
  | 0x00 => chkO w [(32, 10)] ((decT2 w).map .vadd)
  | 0x01 => chkO w [(32, 10)] ((decT2 w).map .vsub)
  | 0x02 => chkO w [(32, 10)] ((decT2 w).map .vmul)
  | 0x03 => chkO w [(32, 5)] ((decT3 w).map .vfma)
  | 0x04 => chkO w [(32, 10)] ((decT2 w).map .vmin)
  | 0x05 => chkO w [(32, 10)] ((decT2 w).map .vmax)
  | _ => .error .illop

/-- Major 0x20 of the 64-bit class. -/
def dec64M20 (w : Nat) : Except DecErr Instr :=
  match fld w 0 4 with
  | 0x00 => chkO w [(32, 10)] ((decT2 w).map .viadd)
  | 0x01 => chkO w [(32, 10)] ((decT2 w).map .visub)
  | 0x02 => chkO w [(32, 10)] ((decT2 w).map .vimul)
  | 0x03 => chkO w [(32, 10)] ((decT2 w).map .vand)
  | 0x04 => chkO w [(32, 10)] ((decT2 w).map .vor)
  | 0x05 => chkO w [(32, 10)] ((decT2 w).map .vxor)
  | 0x06 => chkO w [(32, 10)] ((decT2 w).map .vshl)
  | 0x07 => chkO w [(32, 10)] ((decT2 w).map .vshr)
  | 0x08 => chkO w [(32, 10)] ((decT2 w).map .vsar)
  | 0x09 => chkO w [(35, 7)] ((decSelOps w).map .vsel)
  | 0x0A => chkO w [(20, 2), (37, 5)] ((decCmpOps w).map .vcmp)
  | _ => .error .illop

/-- Major 0x30 of the 64-bit class. -/
def dec64M30 (w : Nat) : Except DecErr Instr :=
  match fld w 0 4 with
  | 0x00 => chkO w [(7, 5), (36, 6)] ((decAxN4 w).map .vrotc)
  | 0x01 => chkO w [(7, 5), (36, 6)] ((decAxN4 w).map .vbcc)
  | 0x02 => chkO w [(7, 5), (35, 7)] ((decAxRed w).map .vredc)
  | 0x03 => chkO w [(7, 5), (37, 5)] ((decAxN5 w).map .vrotw)
  | 0x04 => if bit w 36 then chkO w [(7, 5), (37, 5)] ((decAxN4 w).map .vbcwCol)
    else chkO w [(7, 5), (34, 8)] ((decAxN2 w).map .vbcw)
  | 0x05 => chkO w [(7, 5), (35, 7)] ((decAxRed w).map .vredw)
  | 0x06 => chkO w [(7, 5), (32, 10)] ((decT1 w).map .vtrn)
  | _ => .error .illop

/-- Major 0x40 of the 64-bit class. -/
def dec64M40 (w : Nat) : Except DecErr Instr :=
  match fld w 0 4 with
  | 0x00 => chkO w [(7, 5), (32, 10)] ((decT1 w).map .vrcp)
  | 0x01 => chkO w [(7, 5), (32, 10)] ((decT1 w).map .vrsq)
  | 0x02 => chkO w [(7, 5), (32, 10)] ((decT1 w).map .vsqrt)
  | 0x03 => chkO w [(7, 5), (32, 10)] ((decT1 w).map .vexp2)
  | 0x04 => chkO w [(7, 5), (32, 10)] ((decT1 w).map .vlog2)
  | 0x05 => chkO w [(7, 5), (32, 10)] ((decT1 w).map .vsin)
  | 0x06 => chkO w [(7, 5), (32, 10)] ((decT1 w).map .vcos)
  | 0x07 => chkO w [(7, 5), (32, 10)] ((decT1 w).map .vtanh)
  | 0x08 => chkO w [(7, 5), (32, 10)] ((decT1 w).map .vsigm)
  | 0x09 => chkO w [(7, 5), (32, 10)] ((decT1 w).map .verf)
  | _ => .error .illop

/-- Major 0x41 of the 64-bit class. -/
def dec64M41 (w : Nat) : Except DecErr Instr :=
  match fld w 0 4 with
  | 0x00 => chkO w [(7, 5), (37, 5)] ((decCvtOps w).map .vcvt)
  | 0x01 => chkO w [(36, 6)] ((decPackOps w).map .vpack)
  | 0x02 => chkO w [(7, 5), (37, 5)] ((decUnpkOps w).map .vunpk)
  | _ => .error .illop

/-- Major 0x50 of the 64-bit class. -/
def dec64M50 (w : Nat) : Except DecErr Instr :=
  match fld w 0 4 with
  | 0x00 => chk w [(7, 5), (32, 24)] (.vld (decTMem w))
  | 0x01 => chk w [(7, 5), (32, 24)] (.vst (decTMem w))
  | 0x02 => chk w [(32, 32)] (.vldg (decTIdx w))
  | 0x03 => chk w [(32, 32)] (.vsts (decTIdx w))
  | 0x04 => chk w [(7, 5), (15, 2), (32, 14), (48, 16)] (.vqpop (decTQueue w))
  | 0x05 => chk w [(7, 5), (15, 2), (32, 14), (48, 16)] (.vqpush (decTQueue w))
  | _ => .error .illop

/-- Major 0x51 of the 64-bit class. -/
def dec64M51 (w : Nat) : Except DecErr Instr :=
  match fld w 0 4 with
  | 0x00 => chk w [(4, 8), (21, 1), (32, 32)] (.ild (decRecMem w))
  | 0x01 => chk w [(4, 8), (21, 1), (32, 32)] (.ist (decRecMem w))
  | 0x02 => chk w [(4, 8), (21, 1), (32, 32)] (.sld (decRecMem w))
  | 0x03 => chkO w [(4, 3), (11, 1), (16, 1), (21, 1), (32, 5), (41, 1), (46, 3)] ((decSwpOps w).map .swp)
  | 0x04 => chk w [(4, 8), (17, 5), (32, 32)] (.cbld (decXOnly w))
  | 0x05 => if bit w 46 then chk w [(4, 8), (17, 5), (32, 14), (47, 17)] (.seedCe (decXOnly w))
    else chk w [(4, 8), (17, 5), (32, 32)] (.seed (decXOnly w))
  | _ => .error .illop

/-- Major 0x60 of the 64-bit class. -/
def dec64M60 (w : Nat) : Except DecErr Instr :=
  match fld w 0 4 with
  | 0x00 => chk w [(4, 3), (17, 5), (32, 14), (48, 16)] (.epush (decEpushOps w))
  | 0x01 => chk w [(4, 8), (17, 5), (32, 32)] (.estart (decXOnly w))
  | 0x02 => chk w [(4, 18), (32, 14), (51, 13)] (.eflush (decEflushOps w))
  | 0x03 => chk w [(4, 8), (17, 5), (32, 32)] (.tcfg (decXOnly w))
  | _ => .error .illop

/-- Major 0x61 of the 64-bit class. -/
def dec64M61 (w : Nat) : Except DecErr Instr :=
  match fld w 0 4 with
  | 0x00 => chk w [(4, 3), (32, 14), (58, 6)] (.tego (decTegoOps w))
  | 0x01 => chk w [(4, 8), (32, 14), (49, 15)] (.testat (decTestatOps w))
  | 0x02 => chk w [(4, 3), (17, 5), (32, 14), (49, 15)] (.tethr (decTethrOps w))
  | 0x03 => chk w [(4, 3), (17, 5), (32, 32)] (.hptcfg (decXPair w))
  | 0x04 => (match fld w 46 2 with
    | 0 => chk w [(4, 3), (32, 32)] (.ditswpSwap (decX3 w))
    | 1 => chk w [(4, 3), (32, 14), (48, 16)] (.ditswpSet (decX3 w))
    | 2 => chk w [(4, 3), (32, 14), (49, 15)] (.ditswpFree (decDitFree w))
    | _ => .error .illfld)
  | _ => .error .illop

/-- Major 0x62 of the 64-bit class. -/
def dec64M62 (w : Nat) : Except DecErr Instr :=
  match fld w 0 4 with
  | 0x00 => chk w [(4, 8), (32, 32)] (.rxopen (decX2 w))
  | 0x01 => chk w [(4, 3), (32, 14), (52, 12)] (.rxsend (decRx3 w))
  | 0x02 => chk w [(4, 8), (32, 14), (52, 12)] (.rxrecv (decRx2 w))
  | 0x03 => chk w [(4, 18), (32, 14), (52, 12)] (.rxfree (decRx0 w))
  | 0x04 => chk w [(4, 13), (32, 14), (52, 12)] (.rxclose (decRx1 w))
  | 0x05 => chk w [(4, 8), (32, 14), (52, 12)] (.rxstat (decRx2 w))
  | _ => .error .illop

/-- Major 0x70 of the 64-bit class. -/
def dec64M70 (w : Nat) : Except DecErr Instr :=
  match fld w 0 4 with
  | 0x00 => chk w [(11, 1), (16, 1), (21, 1), (33, 31)] (.dadd (decDBin w))
  | 0x01 => chk w [(11, 1), (16, 1), (21, 1), (33, 31)] (.dsub (decDBin w))
  | 0x02 => chk w [(11, 1), (16, 1), (21, 1), (33, 31)] (.dmul (decDBin w))
  | 0x03 => chk w [(11, 1), (16, 1), (21, 1), (33, 31)] (.dmax (decDBin w))
  | 0x04 => chk w [(11, 1), (16, 1), (21, 1), (32, 23)] (.dmix (decDMixOps w))
  | 0x05 => chk w [(7, 5), (16, 1), (21, 1), (32, 32)] (.dcond (decDUn w))
  | 0x06 => chk w [(7, 5), (16, 1), (21, 1), (32, 23)] (.dscl (decDRow w))
  | 0x07 => chk w [(7, 5), (16, 1), (21, 1), (32, 23)] (.dshf (decDRow w))
  | 0x08 => chk w [(7, 5), (16, 1), (21, 1), (32, 32)] (.drelu (decDUn w))
  | 0x09 => chk w [(7, 5), (16, 1), (21, 1), (36, 28)] (.dapp (decDAppOps w))
  | 0x0A => if bit w 32 then chk w [(7, 5), (16, 1), (21, 1), (33, 31)] (.dtagPm (decDUn w))
    else chk w [(11, 1), (16, 1), (21, 1), (32, 32)] (.dtag (decDTagOps w))
  | 0x0B => chk w [(7, 5), (16, 1), (21, 1), (32, 32)] (.tagnext (decDUn w))
  | _ => .error .illop

/-- Major 0x71 of the 64-bit class. -/
def dec64M71 (w : Nat) : Except DecErr Instr :=
  match fld w 0 4 with
  | 0x00 => chk w [(4, 8), (21, 1), (32, 14), (48, 16)] (.dld (decDLdOps w))
  | 0x01 => chk w [(4, 8), (21, 1), (32, 32)] (.dst (decDStOps w))
  | 0x02 => chk w [(7, 5), (21, 1), (32, 14), (50, 14)] (.dmkp (decDMk1 w))
  | 0x03 => chk w [(7, 5), (21, 1), (32, 14), (54, 10)] (.dmku (decDMk2 w))
  | 0x04 => chk w [(7, 5), (21, 1), (32, 14), (50, 14)] (.dmkq (decDMk1 w))
  | 0x05 => chk w [(7, 5), (16, 1), (32, 14), (52, 12)] (.dmom (decDMomOps w))
  | 0x06 => chk w [(7, 5), (16, 1), (32, 14), (60, 4)] (.dqnt (decDQntOps w))
  | _ => .error .illop

/-- The 64-bit class (Table 7-11). -/
def dec64 (w : Nat) : Except DecErr Instr :=
  match fld w 22 7 with
  | 0x00 => dec64M00 w
  | 0x20 => dec64M20 w
  | 0x30 => dec64M30 w
  | 0x40 => dec64M40 w
  | 0x41 => dec64M41 w
  | 0x50 => dec64M50 w
  | 0x51 => dec64M51 w
  | 0x60 => dec64M60 w
  | 0x61 => dec64M61 w
  | 0x62 => dec64M62 w
  | 0x70 => dec64M70 w
  | 0x71 => dec64M71 w
  | _ => .error .illop

/-- Major 0x01 of the 96-bit class. -/
def dec96M01 (w : Nat) : Except DecErr Instr :=
  match fld w 0 7 with
  | 0x00 => chk w [(7, 5), (32, 32)] (.addLit (decSLit w))
  | 0x01 => chk w [(7, 5), (32, 32)] (.subLit (decSLit w))
  | 0x02 => chk w [(7, 5), (32, 32)] (.andLit (decSLit w))
  | 0x03 => chk w [(7, 5), (32, 32)] (.orLit (decSLit w))
  | 0x04 => chk w [(7, 5), (32, 32)] (.xorLit (decSLit w))
  | 0x05 => chk w [(7, 5), (32, 32)] (.shlLit (decSLit w))
  | 0x06 => chk w [(7, 5), (32, 32)] (.shrLit (decSLit w))
  | 0x07 => chk w [(7, 5), (32, 32)] (.sarLit (decSLit w))
  | 0x08 => chk w [(7, 5), (32, 32)] (.minLit (decSLit w))
  | 0x09 => chk w [(7, 5), (32, 32)] (.maxLit (decSLit w))
  | 0x0A => chk w [(7, 5), (32, 32)] (.minuLit (decSLit w))
  | 0x0B => chk w [(7, 5), (32, 32)] (.maxuLit (decSLit w))
  | 0x0C => chk w [(7, 5), (32, 32)] (.seqLit (decSLit w))
  | 0x0D => chk w [(7, 5), (32, 32)] (.sneLit (decSLit w))
  | 0x0E => chk w [(7, 5), (32, 32)] (.sltLit (decSLit w))
  | 0x0F => chk w [(7, 5), (32, 32)] (.sltuLit (decSLit w))
  | 0x10 => chk w [(7, 5), (32, 32)] (.sgeLit (decSLit w))
  | 0x11 => chk w [(7, 5), (32, 32)] (.sgeuLit (decSLit w))
  | 0x14 => chk w [(7, 5), (32, 32)] (.mulLit (decSLit w))
  | 0x15 => chk w [(7, 5), (32, 32)] (.mulhLit (decSLit w))
  | 0x16 => chk w [(7, 5), (32, 32)] (.mulhuLit (decSLit w))
  | 0x17 => chk w [(7, 5), (32, 32)] (.divLit (decSLit w))
  | 0x18 => chk w [(7, 5), (32, 32)] (.divuLit (decSLit w))
  | 0x19 => chk w [(7, 5), (32, 32)] (.remLit (decSLit w))
  | 0x1A => chk w [(7, 5), (32, 32)] (.remuLit (decSLit w))
  | _ => .error .illop

/-- Major 0x10 of the 96-bit class. -/
def dec96M10 (w : Nat) : Except DecErr Instr :=
  match fld w 0 4 with
  | 0x00 => chkO w [(7, 5), (32, 10)] ((decT2L w).map .vaddLit)
  | 0x01 => chkO w [(7, 5), (32, 10)] ((decT2L w).map .vsubLit)
  | 0x02 => chkO w [(7, 5), (32, 10)] ((decT2L w).map .vmulLit)
  | 0x03 => chkO w [(7, 5), (32, 5)] ((decT3L w).map .vfmaLit)
  | 0x04 => chkO w [(7, 5), (32, 10)] ((decT2L w).map .vminLit)
  | 0x05 => chkO w [(7, 5), (32, 10)] ((decT2L w).map .vmaxLit)
  | _ => .error .illop

/-- Major 0x11 of the 96-bit class. -/
def dec96M11 (w : Nat) : Except DecErr Instr :=
  match fld w 0 4 with
  | 0x00 => chkO w [(7, 5), (32, 10)] ((decT2L w).map .viaddLit)
  | 0x01 => chkO w [(7, 5), (32, 10)] ((decT2L w).map .visubLit)
  | 0x02 => chkO w [(7, 5), (32, 10)] ((decT2L w).map .vimulLit)
  | 0x03 => chkO w [(7, 5), (32, 10)] ((decT2L w).map .vandLit)
  | 0x04 => chkO w [(7, 5), (32, 10)] ((decT2L w).map .vorLit)
  | 0x05 => chkO w [(7, 5), (32, 10)] ((decT2L w).map .vxorLit)
  | 0x06 => chkO w [(7, 5), (32, 10)] ((decT2L w).map .vshlLit)
  | 0x07 => chkO w [(7, 5), (32, 10)] ((decT2L w).map .vshrLit)
  | 0x08 => chkO w [(7, 5), (32, 10)] ((decT2L w).map .vsarLit)
  | 0x09 => chkO w [(7, 5), (35, 7)] ((decSelLOps w).map .vselLit)
  | 0x0A => chkO w [(7, 5), (20, 2), (37, 5)] ((decCmpLOps w).map .vcmpLit)
  | _ => .error .illop

/-- The 96-bit class (R86). -/
def dec96 (w : Nat) : Except DecErr Instr :=
  match fld w 22 7 with
  | 0x00 => chk w [(0, 17)] (.lit (decLitOps w))
  | 0x01 => dec96M01 w
  | 0x10 => dec96M10 w
  | 0x11 => dec96M11 w
  | 0x20 => chk w [(0, 7), (17, 5), (32, 32), (84, 12)] (.tlbi (decTlbiOps w))
  | _ => .error .illop

/-- The length in bytes that a first word states (R74); 0 for the code 0b11. -/
def wordLen (w0 : Nat) : Nat :=
  match fld w0 30 2 with
  | 0 => 4 | 1 => 8 | 2 => 12 | _ => 0

/-- The scope codes 5 to 7 of TLBSYNC are reserved (Table 7-10). -/
def Instr.scopeOk (i : Instr) (w : Nat) : Bool :=
  match i with
  | .tlbsync => decide (fld w 0 3 ≤ 4)
  | _ => true

/-- Decoding of the words of one instruction, its first word in bits [31:0] (Table 7-12, rows 2, 4, 5, 6). -/
def decode (w : Nat) : Except DecErr Instr :=
  let r := match fld w 30 2 with
    | 0 => dec32 w | 1 => dec64 w | 2 => dec96 w | _ => .error .illen
  match r with
  | .error e => .error e
  | .ok i => if i.wf && (!i.rowAxis || bit w 29) && i.scopeOk w then .ok i else .error .illfld

/-- Decoding of bytes as they lie in memory: the instruction and the bytes after it. -/
def decodeBytes (bs : List Byte) : Except DecErr (Instr × List Byte) :=
  if bs.length < 4 then .error .short
  else
    let n := wordLen (leNat (bs.take 4))
    if n = 0 then .error .illen
    else if bs.length < n then .error .short
    else match decode (leNat (bs.take n)) with
      | .error e => .error e
      | .ok i => .ok (i, bs.drop n)

/-- What the decoder reads from an instruction whose bits are `w`, the bits above `nbits` being zero. -/
def decodeTableWord (nbits w : Nat) : Option Instr :=
  match decodeBytes (leBytes 12 (w % 2 ^ nbits)) with
  | .ok r => some r.1
  | .error _ => none

/-- The sync bit of an instruction word (R61, R74). -/
def wordSync (w : Nat) : Bool := bit w 29

/-! ### Engine command words (Table 7-13) -/

/-- Bits [95:48] but the opcode. -/
def decCmdHead (w : Nat) : CmdHead :=
  { pushNext := bit w 87, pushPrev := bit w 86, popNext := bit w 85, popPrev := bit w 84, waitEn := bit w 74,
    waitSlot := bv w 75 9, waitVal := bv w 58 16, addEn := bit w 48, addSlot := bv w 49 9 }

/-- The counter reference of Table 15-12. -/
def decCtrRef (w : Nat) : Option CtrRef :=
  match fld w 46 2 with
  | 0 => if zeros w [(9, 7)] then some (.own (bv w 0 9)) else none
  | 1 => if zeros w [(15, 1)] then some (.rank (bv w 0 9) (bv w 9 6)) else none
  | 2 => if zeros w [(45, 1)] then some (.page (bv w 0 45)) else none
  | _ => none

/-- An operation whose listed fields are reserved (R91). -/
def cmdIf (w : Nat) (rs : List (Nat × Nat)) (o : EngOp) : Option EngOp := if zeros w rs then some o else none

/-- The operation of a command word (Table 7-14, Tables 15-7, 15-9, 15-12); none raises ENGILL (R91). -/
def decEngOp (w : Nat) : Option EngOp :=
  match fld w 88 8 with
  | 0x00 => cmdIf w [(4, 44)] (.mxlds (bv w 0 4))
  | 0x01 => cmdIf w [(9, 39)] (.mxrun (bv w 0 2) (bit w 2) (bit w 3) (bv w 4 5))
  | 0x02 => cmdIf w [(24, 24)] (.mxout (bv w 0 2) (bit w 2) (bit w 3) (bv w 4 5) (bv w 9 4) (bv w 13 3)
      (Clamp.ofCode (fld w 16 2)) (bv w 18 6))
  | 0x03 => cmdIf w [(4, 44)] (.mxzero (bv w 0 4))
  | 0x04 => cmdIf w [(3, 1), (8, 40)]
      (if bit w 2 then .mxrdaLd (bv w 0 2) (bv w 4 4) else .mxrdaSt (bv w 0 2) (bv w 4 4))
  | 0x20 => cmdIf w [(4, 44)] (.cpy (bv w 0 4))
  | 0x21 => cmdIf w [(4, 44)] (.cpyg (bv w 0 4))
  | 0x22 => cmdIf w [(4, 44)] (.cpys (bv w 0 4))
  | 0x23 => cmdIf w [(4, 44)] (.cpym (bv w 0 4))
  | 0x24 => cmdIf w [(4, 44)] (.pub (bv w 0 4))
  | 0x40 => (decCtrRef w).bind fun c => if decide (fld w 46 2 = 2) || zeros w [(16, 30)] then some (.cwt c) else none
  | 0x41 => (decCtrRef w).map fun c => .cad c (if fld w 46 2 = 2 then 0 else bv w 16 30)
  | _ => none

/-- An engine command word; none for one that raises ENGILL (R91). -/
def decodeCmd (w : Nat) : Option EngCmd :=
  (decEngOp w).bind fun o =>
    let c : EngCmd := { h := decCmdHead w, op := o }
    if c.wf then some c else none

/-! ### The encoder -/

/-- Major opcode, sync bit and length (R74). -/
def encHead (maj : Nat) (s : Bool) (len : Nat) : List (Nat × Nat) := [(7, maj), (1, s.toNat), (2, len)]

/-- Bits [63:42] of layout M (Table 7-2). -/
def encMods (m : Mods) : List (Nat × Nat) :=
  [(4, m.ety.code), (1, m.reuse.toNat), (3, m.rnd.code), (6, m.scale.toNat), (2, m.clamp.code), (1, m.absC.toNat),
   (1, m.negC.toNat), (1, m.absB.toNat), (1, m.negB.toNat), (1, m.absA.toNat), (1, m.negA.toNat)]

/-- The fields, from bit 0 upward, of the 32-bit format with the operands of `Reg3`. -/
def encReg3 (maj x1 : Nat) (s : Bool) (o : Reg3) : List (Nat × Nat) :=
  [(7, x1), (5, o.rb.toNat), (5, o.ra.toNat), (5, o.rd.toNat)] ++ encHead maj s 0

/-- The fields, from bit 0 upward, of the 32-bit format with the operands of `Reg2`. -/
def encReg2 (maj x1 : Nat) (s : Bool) (o : Reg2) : List (Nat × Nat) :=
  [(7, x1), (5, 0), (5, o.ra.toNat), (5, o.rd.toNat)] ++ encHead maj s 0

/-- The fields, from bit 0 upward, of the 32-bit format with the operands of `Imm`. -/
def encImm (maj : Nat) (s : Bool) (o : Imm) : List (Nat × Nat) :=
  [(12, o.imm.toNat), (5, o.ra.toNat), (5, o.rd.toNat)] ++ encHead maj s 0

/-- The fields, from bit 0 upward, of the 32-bit format with the operands of `ShImm`. -/
def encShImm (maj : Nat) (s : Bool) (o : ShImm) : List (Nat × Nat) :=
  [(6, o.sh.toNat), (6, 0), (5, o.ra.toNat), (5, o.rd.toNat)] ++ encHead maj s 0

/-- The fields, from bit 0 upward, of the 96-bit format with the operands of `LitOps`. -/
def encLitOps (maj : Nat) (s : Bool) (o : LitOps) : List (Nat × Nat) :=
  [(17, 0), (5, o.rd.toNat)] ++ encHead maj s 2 ++ [(32, o.lit.toNat / 2 ^ 32), (32, o.lit.toNat)]

/-- The fields, from bit 0 upward, of the 96-bit format with the operands of `SLit`. -/
def encSLit (maj x1 : Nat) (s : Bool) (o : SLit) : List (Nat × Nat) :=
  [(7, x1), (5, 0), (5, o.ra.toNat), (5, o.rd.toNat)] ++ encHead maj s 2 ++ [(32, 0), (32, o.lit.toNat)]

/-- The fields, from bit 0 upward, of the 32-bit format with the operands of `LdqOps`. -/
def encLdqOps (maj : Nat) (s : Bool) (o : LdqOps) : List (Nat × Nat) :=
  [(12, o.imm.toNat), (5, o.ra.toNat), (3, o.q.toNat), (2, 0)] ++ encHead maj s 0

/-- The fields, from bit 0 upward, of the 32-bit format with the operands of `QRead`. -/
def encQRead (maj x1 : Nat) (s : Bool) (o : QRead) : List (Nat × Nat) :=
  [(7, x1), (5, 0), (3, o.q.toNat), (2, 0), (5, o.rd.toNat)] ++ encHead maj s 0

/-- The fields, from bit 0 upward, of the 32-bit format with the operands of `QPushOps`. -/
def encQPushOps (maj x1 : Nat) (s : Bool) (o : QPushOps) : List (Nat × Nat) :=
  [(7, x1), (5, o.rb.toNat), (3, o.q.toNat), (7, 0)] ++ encHead maj s 0

/-- The fields, from bit 0 upward, of the 32-bit format with the operands of `Br`. -/
def encBr (maj : Nat) (s : Bool) (o : Br) : List (Nat × Nat) :=
  [(12, o.off.toNat), (5, o.rb.toNat), (5, o.ra.toNat)] ++ encHead maj s 0

/-- The fields, from bit 0 upward, of the 32-bit format with the operands of `JmpOps`. -/
def encJmpOps (maj : Nat) (s : Bool) (o : JmpOps) : List (Nat × Nat) :=
  [(22, o.off.toNat)] ++ encHead maj s 0

/-- The fields, from bit 0 upward, of the 32-bit format with the operands of `JalOps`. -/
def encJalOps (maj : Nat) (s : Bool) (o : JalOps) : List (Nat × Nat) :=
  [(17, o.off.toNat), (5, o.rd.toNat)] ++ encHead maj s 0

/-- The fields, from bit 0 upward, of the 32-bit format with the operands of `LoopOps`. -/
def encLoopOps (maj : Nat) (s : Bool) (o : LoopOps) : List (Nat × Nat) :=
  [(12, o.off.toNat), (5, 0), (5, o.ra.toNat)] ++ encHead maj s 0

/-- The fields, from bit 0 upward, of the 32-bit format with the operands of `LoopiOps`. -/
def encLoopiOps (maj : Nat) (s : Bool) (o : LoopiOps) : List (Nat × Nat) :=
  [(12, o.off.toNat), (10, o.count.toNat)] ++ encHead maj s 0

/-- The fields, from bit 0 upward, of the 32-bit format with the operands of `CntOwn`. -/
def encCntOwn (maj : Nat) (s : Bool) (o : CntOwn) : List (Nat × Nat) :=
  [(8, 0), (5, o.ra.toNat), (9, o.k.toNat)] ++ encHead maj s 0

/-- The fields, from bit 0 upward, of the 32-bit format with the operands of `CntRemote`. -/
def encCntRemote (maj x1 : Nat) (s : Bool) (o : CntRemote) : List (Nat × Nat) :=
  [(1, 0), (1, x1), (1, 0), (5, o.rb.toNat), (5, o.ra.toNat), (9, o.k.toNat)] ++ encHead maj s 0

/-- The fields, from bit 0 upward, of the 32-bit format with the operands of `CntPage`. -/
def encCntPage (maj x1 : Nat) (s : Bool) (o : CntPage) : List (Nat × Nat) :=
  [(2, 0), (1, x1), (5, 0), (5, o.ra.toNat), (4, 0), (5, o.xk.toNat)] ++ encHead maj s 0

/-- The fields, from bit 0 upward, of the 32-bit format with the operands of `CWaitOwn`. -/
def encCWaitOwn (maj : Nat) (s : Bool) (o : CWaitOwn) : List (Nat × Nat) :=
  [(3, 0), (5, o.rb.toNat), (5, o.ra.toNat), (9, o.k.toNat)] ++ encHead maj s 0

/-- The fields, from bit 0 upward, of the 32-bit format with the operands of `CWaitPage`. -/
def encCWaitPage (maj x1 : Nat) (s : Bool) (o : CWaitPage) : List (Nat × Nat) :=
  [(2, 0), (1, x1), (5, o.rb.toNat), (5, o.ra.toNat), (4, 0), (5, o.xk.toNat)] ++ encHead maj s 0

/-- The fields, from bit 0 upward, of the 32-bit format with the operands of `Plain`. -/
def encPlain (maj : Nat) (s : Bool) : List (Nat × Nat) :=
  [(22, 0)] ++ encHead maj s 0

/-- The fields, from bit 0 upward, of the 32-bit format with the operands of `FenceOps`. -/
def encFenceOps (maj : Nat) (s : Bool) (o : FenceOps) : List (Nat × Nat) :=
  [(3, o.scope.toNat), (2, o.flavour.toNat), (17, 0)] ++ encHead maj s 0

/-- The fields, from bit 0 upward, of the 32-bit format with the operands of `AtomOps`. -/
def encAtomOps (maj x1 x2 : Nat) (s : Bool) (o : AtomOps) : List (Nat × Nat) :=
  [(4, x1), (1, 0), (1, o.dbl.toNat), (1, x2), (5, o.rb.toNat), (5, o.ra.toNat), (5, o.rd.toNat)] ++ encHead maj s 0

/-- The fields, from bit 0 upward, of the 32-bit format with the operands of `Pred3`. -/
def encPred3 (maj x1 : Nat) (s : Bool) (o : Pred3) : List (Nat × Nat) :=
  [(7, x1), (3, o.pb.toNat), (2, 0), (3, o.pa.toNat), (2, 0), (3, o.pd.toNat), (2, 0)] ++ encHead maj s 0

/-- The fields, from bit 0 upward, of the 32-bit format with the operands of `Pred2`. -/
def encPred2 (maj x1 : Nat) (s : Bool) (o : Pred2) : List (Nat × Nat) :=
  [(7, x1), (5, 0), (3, o.pa.toNat), (2, 0), (3, o.pd.toNat), (2, 0)] ++ encHead maj s 0

/-- The fields, from bit 0 upward, of the 32-bit format with the operands of `PSetOps`. -/
def encPSetOps (maj : Nat) (s : Bool) (o : PSetOps) : List (Nat × Nat) :=
  [(16, o.imm.toNat), (1, 0), (3, o.pd.toNat), (2, 0)] ++ encHead maj s 0

/-- The fields, from bit 0 upward, of the 32-bit format with the operands of `Mov2`. -/
def encMov2 (maj x1 : Nat) (s : Bool) (o : Mov2) : List (Nat × Nat) :=
  [(4, x1), (3, o.pred.toNat), (5, 0), (5, o.ta.toNat), (5, o.td.toNat)] ++ encHead maj s 0

/-- The fields, from bit 0 upward, of the 32-bit format with the operands of `Mov3`. -/
def encMov3 (maj x1 : Nat) (s : Bool) (o : Mov3) : List (Nat × Nat) :=
  [(4, x1), (3, o.pred.toNat), (5, o.tb.toNat), (5, o.ta.toNat), (5, o.td.toNat)] ++ encHead maj s 0

/-- The fields, from bit 0 upward, of the 32-bit format with the operands of `VextOps`. -/
def encVextOps (maj x1 : Nat) (s : Bool) (o : VextOps) : List (Nat × Nat) :=
  [(4, x1), (3, 0), (5, o.tb.toNat), (5, o.ta.toNat), (5, o.xd.toNat)] ++ encHead maj s 0

/-- The fields, from bit 0 upward, of the 32-bit format with the operands of `RenqOps`. -/
def encRenqOps (maj : Nat) (s : Bool) (o : RenqOps) : List (Nat × Nat) :=
  [(7, 0), (5, o.rb.toNat), (5, o.ra.toNat), (5, 0)] ++ encHead maj s 0

/-- The fields, from bit 0 upward, of the 32-bit format with the operands of `Reg2`. -/
def encReg22 (maj : Nat) (s : Bool) (o : Reg2) : List (Nat × Nat) :=
  [(12, 0), (5, o.ra.toNat), (5, o.rd.toNat)] ++ encHead maj s 0

/-- The fields, from bit 0 upward, of the 32-bit format with the operands of `Code16`. -/
def encCode16 (maj : Nat) (s : Bool) (code : Nat) : List (Nat × Nat) :=
  [(16, code), (6, 0)] ++ encHead maj s 0

/-- The fields, from bit 0 upward, of the 32-bit format with the operands of `SysOps`. -/
def encSysOps (maj : Nat) (s : Bool) (o : SysOps) : List (Nat × Nat) :=
  [(12, o.num.toNat), (5, 0), (5, o.rd.toNat)] ++ encHead maj s 0

/-- The fields, from bit 0 upward, of the 32-bit format with the operands of `Code16`. -/
def encCode162 (maj : Nat) (s : Bool) (code : Nat) : List (Nat × Nat) :=
  [(3, code), (19, 0)] ++ encHead maj s 0

/-- The fields, from bit 0 upward, of the 32-bit format with the operands of `GuardOps`. -/
def encGuardOps (maj : Nat) (s : Bool) (o : GuardOps) : List (Nat × Nat) :=
  [(1, o.mark.toNat), (6, 0), (5, o.rb.toNat), (5, o.ra.toNat), (5, 0)] ++ encHead maj s 0

/-- The fields, from bit 0 upward, of the 96-bit format with the operands of `TlbiOps`. -/
def encTlbiOps (maj : Nat) (s : Bool) (o : TlbiOps) : List (Nat × Nat) :=
  [(7, 0), (5, o.rb.toNat), (5, o.ra.toNat), (5, 0)] ++ encHead maj s 2 ++ [(32, 0), (16, o.asid.toNat), (3, o.scope.toNat), (1, o.all.toNat), (12, 0)]

/-- The fields, from bit 0 upward, of the 64-bit format with the operands of `T2`. -/
def encT2 (maj x1 : Nat) (s : Bool) (o : T2) : List (Nat × Nat) :=
  [(4, x1), (3, o.m.pred.toNat), (5, o.b.toNat), (5, o.a.toNat), (5, o.d.toNat)] ++ encHead maj s 1 ++ [(10, 0)] ++ encMods o.m

/-- The fields, from bit 0 upward, of the 64-bit format with the operands of `T3`. -/
def encT3 (maj x1 : Nat) (s : Bool) (o : T3) : List (Nat × Nat) :=
  [(4, x1), (3, o.m.pred.toNat), (5, o.b.toNat), (5, o.a.toNat), (5, o.d.toNat)] ++ encHead maj s 1 ++ [(5, 0), (5, o.c.toNat)] ++ encMods o.m

/-- The fields, from bit 0 upward, of the 96-bit format with the operands of `T2L`. -/
def encT2L (maj x1 : Nat) (s : Bool) (o : T2L) : List (Nat × Nat) :=
  [(4, x1), (3, o.m.pred.toNat), (5, 0), (5, o.a.toNat), (5, o.d.toNat)] ++ encHead maj s 2 ++ [(10, 0)] ++ encMods o.m ++ [(32, o.lit.toNat)]

/-- The fields, from bit 0 upward, of the 96-bit format with the operands of `T3L`. -/
def encT3L (maj x1 : Nat) (s : Bool) (o : T3L) : List (Nat × Nat) :=
  [(4, x1), (3, o.m.pred.toNat), (5, 0), (5, o.a.toNat), (5, o.d.toNat)] ++ encHead maj s 2 ++ [(5, 0), (5, o.c.toNat)] ++ encMods o.m ++ [(32, o.lit.toNat)]

/-- The fields, from bit 0 upward, of the 64-bit format with the operands of `SelOps`. -/
def encSelOps (maj x1 : Nat) (s : Bool) (o : SelOps) : List (Nat × Nat) :=
  [(4, x1), (3, o.m.pred.toNat), (5, o.b.toNat), (5, o.a.toNat), (5, o.d.toNat)] ++ encHead maj s 1 ++ [(3, o.sel.toNat), (7, 0)] ++ encMods o.m

/-- The fields, from bit 0 upward, of the 64-bit format with the operands of `CmpOps`. -/
def encCmpOps (maj x1 : Nat) (s : Bool) (o : CmpOps) : List (Nat × Nat) :=
  [(4, x1), (3, o.m.pred.toNat), (5, o.b.toNat), (5, o.a.toNat), (3, o.pd.toNat), (2, 0)] ++ encHead maj s 1 ++ [(4, o.cond.toNat), (1, o.any.toNat), (5, 0)] ++ encMods o.m

/-- The fields, from bit 0 upward, of the 96-bit format with the operands of `SelLOps`. -/
def encSelLOps (maj x1 : Nat) (s : Bool) (o : SelLOps) : List (Nat × Nat) :=
  [(4, x1), (3, o.m.pred.toNat), (5, 0), (5, o.a.toNat), (5, o.d.toNat)] ++ encHead maj s 2 ++ [(3, o.sel.toNat), (7, 0)] ++ encMods o.m ++ [(32, o.lit.toNat)]

/-- The fields, from bit 0 upward, of the 96-bit format with the operands of `CmpLOps`. -/
def encCmpLOps (maj x1 : Nat) (s : Bool) (o : CmpLOps) : List (Nat × Nat) :=
  [(4, x1), (3, o.m.pred.toNat), (5, 0), (5, o.a.toNat), (3, o.pd.toNat), (2, 0)] ++ encHead maj s 2 ++ [(4, o.cond.toNat), (1, o.any.toNat), (5, 0)] ++ encMods o.m ++ [(32, o.lit.toNat)]

/-- The fields, from bit 0 upward, of the 64-bit format with the operands of `AxN4`. -/
def encAxN4 (maj x1 : Nat) (s : Bool) (o : AxN4) : List (Nat × Nat) :=
  [(4, x1), (3, o.m.pred.toNat), (5, 0), (5, o.a.toNat), (5, o.d.toNat)] ++ encHead maj s 1 ++ [(4, o.n.toNat), (6, 0)] ++ encMods o.m

/-- The fields, from bit 0 upward, of the 64-bit format with the operands of `AxRed`. -/
def encAxRed (maj x1 : Nat) (s : Bool) (o : AxRed) : List (Nat × Nat) :=
  [(4, x1), (3, o.m.pred.toNat), (5, 0), (5, o.a.toNat), (5, o.d.toNat)] ++ encHead maj s 1 ++ [(3, o.red.toNat), (7, 0)] ++ encMods o.m

/-- The fields, from bit 0 upward, of the 64-bit format with the operands of `AxN5`. -/
def encAxN5 (maj x1 : Nat) (s : Bool) (o : AxN5) : List (Nat × Nat) :=
  [(4, x1), (3, o.m.pred.toNat), (5, 0), (5, o.a.toNat), (5, o.d.toNat)] ++ encHead maj s 1 ++ [(5, o.n.toNat), (5, 0)] ++ encMods o.m

/-- The fields, from bit 0 upward, of the 64-bit format with the operands of `AxN2`. -/
def encAxN2 (maj x1 : Nat) (s : Bool) (o : AxN2) : List (Nat × Nat) :=
  [(4, x1), (3, o.m.pred.toNat), (5, 0), (5, o.a.toNat), (5, o.d.toNat)] ++ encHead maj s 1 ++ [(2, o.n.toNat), (8, 0)] ++ encMods o.m

/-- The fields, from bit 0 upward, of the 64-bit format with the operands of `AxN4`. -/
def encAxN42 (maj x1 x2 : Nat) (s : Bool) (o : AxN4) : List (Nat × Nat) :=
  [(4, x1), (3, o.m.pred.toNat), (5, 0), (5, o.a.toNat), (5, o.d.toNat)] ++ encHead maj s 1 ++ [(4, o.n.toNat), (1, x2), (5, 0)] ++ encMods o.m

/-- The fields, from bit 0 upward, of the 64-bit format with the operands of `T1`. -/
def encT1 (maj x1 : Nat) (s : Bool) (o : T1) : List (Nat × Nat) :=
  [(4, x1), (3, o.m.pred.toNat), (5, 0), (5, o.a.toNat), (5, o.d.toNat)] ++ encHead maj s 1 ++ [(10, 0)] ++ encMods o.m

/-- The fields, from bit 0 upward, of the 64-bit format with the operands of `CvtOps`. -/
def encCvtOps (maj x1 : Nat) (s : Bool) (o : CvtOps) : List (Nat × Nat) :=
  [(4, x1), (3, o.m.pred.toNat), (5, 0), (5, o.a.toNat), (5, o.d.toNat)] ++ encHead maj s 1 ++ [(4, o.sty.code), (1, o.keep.toNat), (5, 0)] ++ encMods o.m

/-- The fields, from bit 0 upward, of the 64-bit format with the operands of `PackOps`. -/
def encPackOps (maj x1 : Nat) (s : Bool) (o : PackOps) : List (Nat × Nat) :=
  [(4, x1), (3, o.m.pred.toNat), (5, o.b.toNat), (5, o.a.toNat), (5, o.d.toNat)] ++ encHead maj s 1 ++ [(4, o.sty.code), (6, 0)] ++ encMods o.m

/-- The fields, from bit 0 upward, of the 64-bit format with the operands of `UnpkOps`. -/
def encUnpkOps (maj x1 : Nat) (s : Bool) (o : UnpkOps) : List (Nat × Nat) :=
  [(4, x1), (3, o.m.pred.toNat), (5, 0), (5, o.a.toNat), (5, o.d.toNat)] ++ encHead maj s 1 ++ [(4, o.sty.code), (1, o.hi.toNat), (5, 0)] ++ encMods o.m

/-- The fields, from bit 0 upward, of the 64-bit format with the operands of `TMem`. -/
def encTMem (maj x1 : Nat) (s : Bool) (o : TMem) : List (Nat × Nat) :=
  [(4, x1), (3, o.pred.toNat), (5, 0), (5, o.a.toNat), (5, o.d.toNat)] ++ encHead maj s 1 ++ [(24, 0), (8, o.pitch.toNat)]

/-- The fields, from bit 0 upward, of the 64-bit format with the operands of `TIdx`. -/
def encTIdx (maj x1 : Nat) (s : Bool) (o : TIdx) : List (Nat × Nat) :=
  [(4, x1), (3, o.pred.toNat), (5, o.b.toNat), (5, o.a.toNat), (5, o.d.toNat)] ++ encHead maj s 1 ++ [(32, 0)]

/-- The fields, from bit 0 upward, of the 64-bit format with the operands of `TQueue`. -/
def encTQueue (maj x1 : Nat) (s : Bool) (o : TQueue) : List (Nat × Nat) :=
  [(4, x1), (3, o.pred.toNat), (5, 0), (3, o.q.toNat), (2, 0), (5, o.d.toNat)] ++ encHead maj s 1 ++ [(14, 0), (2, o.g.toNat), (16, 0)]

/-- The fields, from bit 0 upward, of the 64-bit format with the operands of `RecMem`. -/
def encRecMem (maj x1 : Nat) (s : Bool) (o : RecMem) : List (Nat × Nat) :=
  [(4, x1), (8, 0), (5, o.a.toNat), (4, o.d.toNat), (1, 0)] ++ encHead maj s 1 ++ [(32, 0)]

/-- The fields, from bit 0 upward, of the 64-bit format with the operands of `SwpOps`. -/
def encSwpOps (maj x1 : Nat) (s : Bool) (o : SwpOps) : List (Nat × Nat) :=
  [(4, x1), (3, 0), (4, o.b.toNat), (1, 0), (4, o.a.toNat), (1, 0), (4, o.d.toNat), (1, 0)] ++ encHead maj s 1 ++ [(5, 0), (4, o.c.toNat), (1, 0), (4, o.ety.code), (3, 0), (3, o.rnd.code), (6, o.scale.toNat), (2, o.clamp.code), (4, o.op.toNat)]

/-- The fields, from bit 0 upward, of the 64-bit format with the operands of `XOnly`. -/
def encXOnly (maj x1 : Nat) (s : Bool) (o : XOnly) : List (Nat × Nat) :=
  [(4, x1), (8, 0), (5, o.a.toNat), (5, 0)] ++ encHead maj s 1 ++ [(32, 0)]

/-- The fields, from bit 0 upward, of the 64-bit format with the operands of `XOnly`. -/
def encXOnly2 (maj x1 x2 : Nat) (s : Bool) (o : XOnly) : List (Nat × Nat) :=
  [(4, x1), (8, 0), (5, o.a.toNat), (5, 0)] ++ encHead maj s 1 ++ [(14, 0), (1, x2), (17, 0)]

/-- The fields, from bit 0 upward, of the 64-bit format with the operands of `EpushOps`. -/
def encEpushOps (maj x1 : Nat) (s : Bool) (o : EpushOps) : List (Nat × Nat) :=
  [(4, x1), (3, 0), (5, o.b.toNat), (5, o.a.toNat), (5, 0)] ++ encHead maj s 1 ++ [(14, 0), (2, o.queue.toNat), (16, 0)]

/-- The fields, from bit 0 upward, of the 64-bit format with the operands of `EflushOps`. -/
def encEflushOps (maj x1 : Nat) (s : Bool) (o : EflushOps) : List (Nat × Nat) :=
  [(4, x1), (18, 0)] ++ encHead maj s 1 ++ [(14, 0), (5, o.mask.toNat), (13, 0)]

/-- The fields, from bit 0 upward, of the 64-bit format with the operands of `TegoOps`. -/
def encTegoOps (maj x1 : Nat) (s : Bool) (o : TegoOps) : List (Nat × Nat) :=
  [(4, x1), (3, 0), (5, o.b.toNat), (5, o.a.toNat), (5, o.d.toNat)] ++ encHead maj s 1 ++ [(14, 0), (3, o.lane.toNat), (3, o.wl.toNat), (3, o.wh.toNat), (3, o.ws.toNat), (6, 0)]

/-- The fields, from bit 0 upward, of the 64-bit format with the operands of `TestatOps`. -/
def encTestatOps (maj x1 : Nat) (s : Bool) (o : TestatOps) : List (Nat × Nat) :=
  [(4, x1), (8, 0), (5, o.a.toNat), (5, o.d.toNat)] ++ encHead maj s 1 ++ [(14, 0), (3, o.lane.toNat), (15, 0)]

/-- The fields, from bit 0 upward, of the 64-bit format with the operands of `TethrOps`. -/
def encTethrOps (maj x1 : Nat) (s : Bool) (o : TethrOps) : List (Nat × Nat) :=
  [(4, x1), (3, 0), (5, o.b.toNat), (5, o.a.toNat), (5, 0)] ++ encHead maj s 1 ++ [(14, 0), (3, o.lane.toNat), (15, 0)]

/-- The fields, from bit 0 upward, of the 64-bit format with the operands of `XPair`. -/
def encXPair (maj x1 : Nat) (s : Bool) (o : XPair) : List (Nat × Nat) :=
  [(4, x1), (3, 0), (5, o.b.toNat), (5, o.a.toNat), (5, 0)] ++ encHead maj s 1 ++ [(32, 0)]

/-- The fields, from bit 0 upward, of the 64-bit format with the operands of `X3`. -/
def encX3 (maj x1 : Nat) (s : Bool) (o : X3) : List (Nat × Nat) :=
  [(4, x1), (3, 0), (5, o.b.toNat), (5, o.a.toNat), (5, o.d.toNat)] ++ encHead maj s 1 ++ [(32, 0)]

/-- The fields, from bit 0 upward, of the 64-bit format with the operands of `X3`. -/
def encX32 (maj x1 x2 : Nat) (s : Bool) (o : X3) : List (Nat × Nat) :=
  [(4, x1), (3, 0), (5, o.b.toNat), (5, o.a.toNat), (5, o.d.toNat)] ++ encHead maj s 1 ++ [(14, 0), (2, x2), (16, 0)]

/-- The fields, from bit 0 upward, of the 64-bit format with the operands of `DitFree`. -/
def encDitFree (maj x1 x2 : Nat) (s : Bool) (o : DitFree) : List (Nat × Nat) :=
  [(4, x1), (3, 0), (5, o.b.toNat), (5, o.a.toNat), (5, o.d.toNat)] ++ encHead maj s 1 ++ [(14, 0), (2, x2), (1, o.shadow.toNat), (15, 0)]

/-- The fields, from bit 0 upward, of the 64-bit format with the operands of `X2`. -/
def encX2 (maj x1 : Nat) (s : Bool) (o : X2) : List (Nat × Nat) :=
  [(4, x1), (8, 0), (5, o.a.toNat), (5, o.d.toNat)] ++ encHead maj s 1 ++ [(32, 0)]

/-- The fields, from bit 0 upward, of the 64-bit format with the operands of `Rx3`. -/
def encRx3 (maj x1 : Nat) (s : Bool) (o : Rx3) : List (Nat × Nat) :=
  [(4, x1), (3, 0), (5, o.b.toNat), (5, o.a.toNat), (5, o.d.toNat)] ++ encHead maj s 1 ++ [(14, 0), (6, o.ch.toNat), (12, 0)]

/-- The fields, from bit 0 upward, of the 64-bit format with the operands of `Rx2`. -/
def encRx2 (maj x1 : Nat) (s : Bool) (o : Rx2) : List (Nat × Nat) :=
  [(4, x1), (8, 0), (5, o.a.toNat), (5, o.d.toNat)] ++ encHead maj s 1 ++ [(14, 0), (6, o.ch.toNat), (12, 0)]

/-- The fields, from bit 0 upward, of the 64-bit format with the operands of `Rx0`. -/
def encRx0 (maj x1 : Nat) (s : Bool) (o : Rx0) : List (Nat × Nat) :=
  [(4, x1), (18, 0)] ++ encHead maj s 1 ++ [(14, 0), (6, o.ch.toNat), (12, 0)]

/-- The fields, from bit 0 upward, of the 64-bit format with the operands of `Rx1`. -/
def encRx1 (maj x1 : Nat) (s : Bool) (o : Rx1) : List (Nat × Nat) :=
  [(4, x1), (13, 0), (5, o.d.toNat)] ++ encHead maj s 1 ++ [(14, 0), (6, o.ch.toNat), (12, 0)]

/-- The fields, from bit 0 upward, of the 64-bit format with the operands of `DBin`. -/
def encDBin (maj x1 : Nat) (s : Bool) (o : DBin) : List (Nat × Nat) :=
  [(4, x1), (3, o.pred.toNat), (4, o.b.toNat), (1, 0), (4, o.a.toNat), (1, 0), (4, o.d.toNat), (1, 0)] ++ encHead maj s 1 ++ [(1, o.pw.toNat), (31, 0)]

/-- The fields, from bit 0 upward, of the 64-bit format with the operands of `DMixOps`. -/
def encDMixOps (maj x1 : Nat) (s : Bool) (o : DMixOps) : List (Nat × Nat) :=
  [(4, x1), (3, o.pred.toNat), (4, o.b.toNat), (1, 0), (4, o.a.toNat), (1, 0), (4, o.d.toNat), (1, 0)] ++ encHead maj s 1 ++ [(23, 0), (4, o.r.toNat), (5, o.t.toNat)]

/-- The fields, from bit 0 upward, of the 64-bit format with the operands of `DUn`. -/
def encDUn (maj x1 : Nat) (s : Bool) (o : DUn) : List (Nat × Nat) :=
  [(4, x1), (3, o.pred.toNat), (5, 0), (4, o.a.toNat), (1, 0), (4, o.d.toNat), (1, 0)] ++ encHead maj s 1 ++ [(32, 0)]

/-- The fields, from bit 0 upward, of the 64-bit format with the operands of `DRow`. -/
def encDRow (maj x1 : Nat) (s : Bool) (o : DRow) : List (Nat × Nat) :=
  [(4, x1), (3, o.pred.toNat), (5, 0), (4, o.a.toNat), (1, 0), (4, o.d.toNat), (1, 0)] ++ encHead maj s 1 ++ [(23, 0), (4, o.r.toNat), (5, o.t.toNat)]

/-- The fields, from bit 0 upward, of the 64-bit format with the operands of `DAppOps`. -/
def encDAppOps (maj x1 : Nat) (s : Bool) (o : DAppOps) : List (Nat × Nat) :=
  [(4, x1), (3, o.pred.toNat), (5, 0), (4, o.a.toNat), (1, 0), (4, o.d.toNat), (1, 0)] ++ encHead maj s 1 ++ [(4, o.fn.toNat), (28, 0)]

/-- The fields, from bit 0 upward, of the 64-bit format with the operands of `DTagOps`. -/
def encDTagOps (maj x1 : Nat) (s : Bool) (o : DTagOps) : List (Nat × Nat) :=
  [(4, x1), (3, o.pred.toNat), (4, o.b.toNat), (1, 0), (4, o.a.toNat), (1, 0), (4, o.d.toNat), (1, 0)] ++ encHead maj s 1 ++ [(32, 0)]

/-- The fields, from bit 0 upward, of the 64-bit format with the operands of `DUn`. -/
def encDUn2 (maj x1 x2 : Nat) (s : Bool) (o : DUn) : List (Nat × Nat) :=
  [(4, x1), (3, o.pred.toNat), (5, 0), (4, o.a.toNat), (1, 0), (4, o.d.toNat), (1, 0)] ++ encHead maj s 1 ++ [(1, x2), (31, 0)]

/-- The fields, from bit 0 upward, of the 64-bit format with the operands of `DLdOps`. -/
def encDLdOps (maj x1 : Nat) (s : Bool) (o : DLdOps) : List (Nat × Nat) :=
  [(4, x1), (8, 0), (5, o.a.toNat), (4, o.d.toNat), (1, 0)] ++ encHead maj s 1 ++ [(14, 0), (2, o.mode.toNat), (16, 0)]

/-- The fields, from bit 0 upward, of the 64-bit format with the operands of `DStOps`. -/
def encDStOps (maj x1 : Nat) (s : Bool) (o : DStOps) : List (Nat × Nat) :=
  [(4, x1), (8, 0), (5, o.a.toNat), (4, o.d.toNat), (1, 0)] ++ encHead maj s 1 ++ [(32, 0)]

/-- The fields, from bit 0 upward, of the 64-bit format with the operands of `DMk1`. -/
def encDMk1 (maj x1 : Nat) (s : Bool) (o : DMk1) : List (Nat × Nat) :=
  [(4, x1), (3, o.pred.toNat), (5, 0), (5, o.a.toNat), (4, o.d.toNat), (1, 0)] ++ encHead maj s 1 ++ [(14, 0), (4, o.r.toNat), (14, 0)]

/-- The fields, from bit 0 upward, of the 64-bit format with the operands of `DMk2`. -/
def encDMk2 (maj x1 : Nat) (s : Bool) (o : DMk2) : List (Nat × Nat) :=
  [(4, x1), (3, o.pred.toNat), (5, 0), (5, o.a.toNat), (4, o.d.toNat), (1, 0)] ++ encHead maj s 1 ++ [(14, 0), (4, o.rlo.toNat), (4, o.rhi.toNat), (10, 0)]

/-- The fields, from bit 0 upward, of the 64-bit format with the operands of `DMomOps`. -/
def encDMomOps (maj x1 : Nat) (s : Bool) (o : DMomOps) : List (Nat × Nat) :=
  [(4, x1), (3, o.pred.toNat), (5, 0), (4, o.a.toNat), (1, 0), (5, o.d.toNat)] ++ encHead maj s 1 ++ [(14, 0), (4, o.r.toNat), (2, o.k.toNat), (12, 0)]

/-- The fields, from bit 0 upward, of the 64-bit format with the operands of `DQntOps`. -/
def encDQntOps (maj x1 : Nat) (s : Bool) (o : DQntOps) : List (Nat × Nat) :=
  [(4, x1), (3, o.pred.toNat), (5, 0), (4, o.a.toNat), (1, 0), (5, o.d.toNat)] ++ encHead maj s 1 ++ [(14, 0), (4, o.r.toNat), (10, o.q.toNat), (4, 0)]

/-- The fields of an instruction of the three length classes, from bit 0 upward: `s` is its sync bit and `code` the
code of TRAP, BKPT and SAFE or the scope of TLBSYNC. Any other row has none. -/
def encFields (s : Bool) (code : Nat) : Instr → List (Nat × Nat)
  | .add o => encReg3 0x00 0x00 s o
  | .sub o => encReg3 0x00 0x01 s o
  | .and o => encReg3 0x00 0x02 s o
  | .or o => encReg3 0x00 0x03 s o
  | .xor o => encReg3 0x00 0x04 s o
  | .shl o => encReg3 0x00 0x05 s o
  | .shr o => encReg3 0x00 0x06 s o
  | .sar o => encReg3 0x00 0x07 s o
  | .min o => encReg3 0x00 0x08 s o
  | .max o => encReg3 0x00 0x09 s o
  | .minu o => encReg3 0x00 0x0A s o
  | .maxu o => encReg3 0x00 0x0B s o
  | .seq o => encReg3 0x00 0x0C s o
  | .sne o => encReg3 0x00 0x0D s o
  | .slt o => encReg3 0x00 0x0E s o
  | .sltu o => encReg3 0x00 0x0F s o
  | .sge o => encReg3 0x00 0x10 s o
  | .sgeu o => encReg3 0x00 0x11 s o
  | .clz o => encReg2 0x00 0x12 s o
  | .popc o => encReg2 0x00 0x13 s o
  | .mul o => encReg3 0x00 0x14 s o
  | .mulh o => encReg3 0x00 0x15 s o
  | .mulhu o => encReg3 0x00 0x16 s o
  | .div o => encReg3 0x00 0x17 s o
  | .divu o => encReg3 0x00 0x18 s o
  | .rem o => encReg3 0x00 0x19 s o
  | .remu o => encReg3 0x00 0x1A s o
  | .sel o => encReg3 0x00 0x1B s o
  | .leaX1 o => encReg3 0x00 0x1C s o
  | .leaX2 o => encReg3 0x00 0x1D s o
  | .leaX4 o => encReg3 0x00 0x1E s o
  | .leaX8 o => encReg3 0x00 0x1F s o
  | .addi o => encImm 0x01 s o
  | .subi o => encImm 0x02 s o
  | .muli o => encImm 0x03 s o
  | .divi o => encImm 0x04 s o
  | .remi o => encImm 0x05 s o
  | .andi o => encImm 0x06 s o
  | .ori o => encImm 0x07 s o
  | .xori o => encImm 0x08 s o
  | .shli o => encShImm 0x09 s o
  | .shri o => encShImm 0x0A s o
  | .sari o => encShImm 0x0B s o
  | .slti o => encImm 0x0C s o
  | .sltiu o => encImm 0x0D s o
  | .seqi o => encImm 0x0E s o
  | .mini o => encImm 0x0F s o
  | .maxi o => encImm 0x10 s o
  | .lit o => encLitOps 0x00 s o
  | .addLit o => encSLit 0x01 0x00 s o
  | .subLit o => encSLit 0x01 0x01 s o
  | .andLit o => encSLit 0x01 0x02 s o
  | .orLit o => encSLit 0x01 0x03 s o
  | .xorLit o => encSLit 0x01 0x04 s o
  | .shlLit o => encSLit 0x01 0x05 s o
  | .shrLit o => encSLit 0x01 0x06 s o
  | .sarLit o => encSLit 0x01 0x07 s o
  | .minLit o => encSLit 0x01 0x08 s o
  | .maxLit o => encSLit 0x01 0x09 s o
  | .minuLit o => encSLit 0x01 0x0A s o
  | .maxuLit o => encSLit 0x01 0x0B s o
  | .seqLit o => encSLit 0x01 0x0C s o
  | .sneLit o => encSLit 0x01 0x0D s o
  | .sltLit o => encSLit 0x01 0x0E s o
  | .sltuLit o => encSLit 0x01 0x0F s o
  | .sgeLit o => encSLit 0x01 0x10 s o
  | .sgeuLit o => encSLit 0x01 0x11 s o
  | .mulLit o => encSLit 0x01 0x14 s o
  | .mulhLit o => encSLit 0x01 0x15 s o
  | .mulhuLit o => encSLit 0x01 0x16 s o
  | .divLit o => encSLit 0x01 0x17 s o
  | .divuLit o => encSLit 0x01 0x18 s o
  | .remLit o => encSLit 0x01 0x19 s o
  | .remuLit o => encSLit 0x01 0x1A s o
  | .ldB o => encImm 0x30 s o
  | .ldBu o => encImm 0x31 s o
  | .ldH o => encImm 0x32 s o
  | .ldHu o => encImm 0x33 s o
  | .ldW o => encImm 0x34 s o
  | .ldWu o => encImm 0x35 s o
  | .ldD o => encImm 0x36 s o
  | .stB o => encImm 0x37 s o
  | .stH o => encImm 0x38 s o
  | .stW o => encImm 0x39 s o
  | .stD o => encImm 0x3A s o
  | .lda o => encImm 0x3B s o
  | .stl o => encImm 0x3C s o
  | .ldq o => encLdqOps 0x3D s o
  | .qpop o => encQRead 0x3E 0x00 s o
  | .qpeek o => encQRead 0x3E 0x01 s o
  | .qpush o => encQPushOps 0x3E 0x02 s o
  | .qlen o => encQRead 0x3E 0x03 s o
  | .beq o => encBr 0x20 s o
  | .bne o => encBr 0x21 s o
  | .blt o => encBr 0x22 s o
  | .bge o => encBr 0x23 s o
  | .bltu o => encBr 0x24 s o
  | .bgeu o => encBr 0x25 s o
  | .jmp o => encJmpOps 0x26 s o
  | .jal o => encJalOps 0x27 s o
  | .jr o => encImm 0x28 s o
  | .loop o => encLoopOps 0x29 s o
  | .loopi o => encLoopiOps 0x2A s o
  | .cadd o => encCntOwn 0x40 s o
  | .caddRemote o => encCntRemote 0x40 0x01 s o
  | .caddPage o => encCntPage 0x40 0x01 s o
  | .cwait o => encCWaitOwn 0x41 s o
  | .cwaitPage o => encCWaitPage 0x41 0x01 s o
  | .cread o => encCntOwn 0x42 s o
  | .creadRemote o => encCntRemote 0x42 0x01 s o
  | .creadPage o => encCntPage 0x42 0x01 s o
  | .crst o => encCntOwn 0x43 s o
  | .crstPage o => encCntPage 0x43 0x01 s o
  | .qsync => encPlain 0x47 s
  | .fence o => encFenceOps 0x48 s o
  | .aadd o => encAtomOps 0x49 0x00 0x01 s o
  | .amin o => encAtomOps 0x49 0x01 0x01 s o
  | .amax o => encAtomOps 0x49 0x02 0x01 s o
  | .aminu o => encAtomOps 0x49 0x03 0x01 s o
  | .amaxu o => encAtomOps 0x49 0x04 0x01 s o
  | .aand o => encAtomOps 0x49 0x05 0x01 s o
  | .aor o => encAtomOps 0x49 0x06 0x01 s o
  | .axor o => encAtomOps 0x49 0x07 0x01 s o
  | .aswp o => encAtomOps 0x49 0x08 0x01 s o
  | .acas o => encAtomOps 0x49 0x09 0x01 s o
  | .afadd o => encAtomOps 0x49 0x0A 0x01 s o
  | .pand o => encPred3 0x50 0x00 s o
  | .por o => encPred3 0x50 0x01 s o
  | .pnot o => encPred2 0x50 0x02 s o
  | .pset o => encPSetOps 0x51 s o
  | .vmov o => encMov2 0x52 0x00 s o
  | .vsplat o => encMov2 0x52 0x01 s o
  | .vins o => encMov3 0x52 0x02 s o
  | .vext o => encVextOps 0x52 0x03 s o
  | .renq o => encRenqOps 0x60 s o
  | .dlaunch o => encReg22 0x61 s o
  | .exit => encPlain 0x62 s
  | .safe => encCode16 0x63 s code
  | .srd o => encSysOps 0x64 s o
  | .swr o => encSysOps 0x65 s o
  | .trap => encCode16 0x66 s code
  | .tret => encPlain 0x67 s
  | .bkpt => encCode16 0x68 s code
  | .halt => encPlain 0x69 s
  | .nop => encPlain 0x6A s
  | .tlbsync => encCode162 0x6B s code
  | .spguard o => encGuardOps 0x6C s o
  | .tlbi o => encTlbiOps 0x20 s o
  | .vadd o => encT2 0x00 0x00 s o
  | .vsub o => encT2 0x00 0x01 s o
  | .vmul o => encT2 0x00 0x02 s o
  | .vfma o => encT3 0x00 0x03 s o
  | .vmin o => encT2 0x00 0x04 s o
  | .vmax o => encT2 0x00 0x05 s o
  | .vaddLit o => encT2L 0x10 0x00 s o
  | .vsubLit o => encT2L 0x10 0x01 s o
  | .vmulLit o => encT2L 0x10 0x02 s o
  | .vfmaLit o => encT3L 0x10 0x03 s o
  | .vminLit o => encT2L 0x10 0x04 s o
  | .vmaxLit o => encT2L 0x10 0x05 s o
  | .viadd o => encT2 0x20 0x00 s o
  | .visub o => encT2 0x20 0x01 s o
  | .vimul o => encT2 0x20 0x02 s o
  | .vand o => encT2 0x20 0x03 s o
  | .vor o => encT2 0x20 0x04 s o
  | .vxor o => encT2 0x20 0x05 s o
  | .vshl o => encT2 0x20 0x06 s o
  | .vshr o => encT2 0x20 0x07 s o
  | .vsar o => encT2 0x20 0x08 s o
  | .vsel o => encSelOps 0x20 0x09 s o
  | .vcmp o => encCmpOps 0x20 0x0A s o
  | .viaddLit o => encT2L 0x11 0x00 s o
  | .visubLit o => encT2L 0x11 0x01 s o
  | .vimulLit o => encT2L 0x11 0x02 s o
  | .vandLit o => encT2L 0x11 0x03 s o
  | .vorLit o => encT2L 0x11 0x04 s o
  | .vxorLit o => encT2L 0x11 0x05 s o
  | .vshlLit o => encT2L 0x11 0x06 s o
  | .vshrLit o => encT2L 0x11 0x07 s o
  | .vsarLit o => encT2L 0x11 0x08 s o
  | .vselLit o => encSelLOps 0x11 0x09 s o
  | .vcmpLit o => encCmpLOps 0x11 0x0A s o
  | .vrotc o => encAxN4 0x30 0x00 s o
  | .vbcc o => encAxN4 0x30 0x01 s o
  | .vredc o => encAxRed 0x30 0x02 s o
  | .vrotw o => encAxN5 0x30 0x03 s o
  | .vbcw o => encAxN2 0x30 0x04 s o
  | .vbcwCol o => encAxN42 0x30 0x04 0x01 s o
  | .vredw o => encAxRed 0x30 0x05 s o
  | .vtrn o => encT1 0x30 0x06 s o
  | .vrcp o => encT1 0x40 0x00 s o
  | .vrsq o => encT1 0x40 0x01 s o
  | .vsqrt o => encT1 0x40 0x02 s o
  | .vexp2 o => encT1 0x40 0x03 s o
  | .vlog2 o => encT1 0x40 0x04 s o
  | .vsin o => encT1 0x40 0x05 s o
  | .vcos o => encT1 0x40 0x06 s o
  | .vtanh o => encT1 0x40 0x07 s o
  | .vsigm o => encT1 0x40 0x08 s o
  | .verf o => encT1 0x40 0x09 s o
  | .vcvt o => encCvtOps 0x41 0x00 s o
  | .vpack o => encPackOps 0x41 0x01 s o
  | .vunpk o => encUnpkOps 0x41 0x02 s o
  | .vld o => encTMem 0x50 0x00 s o
  | .vst o => encTMem 0x50 0x01 s o
  | .vldg o => encTIdx 0x50 0x02 s o
  | .vsts o => encTIdx 0x50 0x03 s o
  | .vqpop o => encTQueue 0x50 0x04 s o
  | .vqpush o => encTQueue 0x50 0x05 s o
  | .ild o => encRecMem 0x51 0x00 s o
  | .ist o => encRecMem 0x51 0x01 s o
  | .sld o => encRecMem 0x51 0x02 s o
  | .swp o => encSwpOps 0x51 0x03 s o
  | .cbld o => encXOnly 0x51 0x04 s o
  | .seed o => encXOnly 0x51 0x05 s o
  | .seedCe o => encXOnly2 0x51 0x05 0x01 s o
  | .epush o => encEpushOps 0x60 0x00 s o
  | .estart o => encXOnly 0x60 0x01 s o
  | .eflush o => encEflushOps 0x60 0x02 s o
  | .tcfg o => encXOnly 0x60 0x03 s o
  | .tego o => encTegoOps 0x61 0x00 s o
  | .testat o => encTestatOps 0x61 0x01 s o
  | .tethr o => encTethrOps 0x61 0x02 s o
  | .hptcfg o => encXPair 0x61 0x03 s o
  | .ditswpSwap o => encX3 0x61 0x04 s o
  | .ditswpSet o => encX32 0x61 0x04 0x01 s o
  | .ditswpFree o => encDitFree 0x61 0x04 0x02 s o
  | .rxopen o => encX2 0x62 0x00 s o
  | .rxsend o => encRx3 0x62 0x01 s o
  | .rxrecv o => encRx2 0x62 0x02 s o
  | .rxfree o => encRx0 0x62 0x03 s o
  | .rxclose o => encRx1 0x62 0x04 s o
  | .rxstat o => encRx2 0x62 0x05 s o
  | .dadd o => encDBin 0x70 0x00 s o
  | .dsub o => encDBin 0x70 0x01 s o
  | .dmul o => encDBin 0x70 0x02 s o
  | .dmax o => encDBin 0x70 0x03 s o
  | .dmix o => encDMixOps 0x70 0x04 s o
  | .dcond o => encDUn 0x70 0x05 s o
  | .dscl o => encDRow 0x70 0x06 s o
  | .dshf o => encDRow 0x70 0x07 s o
  | .drelu o => encDUn 0x70 0x08 s o
  | .dapp o => encDAppOps 0x70 0x09 s o
  | .dtag o => encDTagOps 0x70 0x0A s o
  | .dtagPm o => encDUn2 0x70 0x0A 0x01 s o
  | .tagnext o => encDUn 0x70 0x0B s o
  | .dld o => encDLdOps 0x71 0x00 s o
  | .dst o => encDStOps 0x71 0x01 s o
  | .dmkp o => encDMk1 0x71 0x02 s o
  | .dmku o => encDMk2 0x71 0x03 s o
  | .dmkq o => encDMk1 0x71 0x04 s o
  | .dmom o => encDMomOps 0x71 0x05 s o
  | .dqnt o => encDQntOps 0x71 0x06 s o
  | _ => []

/-- The bits of an instruction, its first word in bits [31:0]. -/
def encode (s : Bool) (code : Nat) (i : Instr) : Nat := cat (encFields s code i)

/-- The number of 32-bit words of an instruction (R74); 0 for a row that is no instruction of the three classes. -/
def Instr.words : Instr → Nat
  | .add _ => 1
  | .sub _ => 1
  | .and _ => 1
  | .or _ => 1
  | .xor _ => 1
  | .shl _ => 1
  | .shr _ => 1
  | .sar _ => 1
  | .min _ => 1
  | .max _ => 1
  | .minu _ => 1
  | .maxu _ => 1
  | .seq _ => 1
  | .sne _ => 1
  | .slt _ => 1
  | .sltu _ => 1
  | .sge _ => 1
  | .sgeu _ => 1
  | .clz _ => 1
  | .popc _ => 1
  | .mul _ => 1
  | .mulh _ => 1
  | .mulhu _ => 1
  | .div _ => 1
  | .divu _ => 1
  | .rem _ => 1
  | .remu _ => 1
  | .sel _ => 1
  | .leaX1 _ => 1
  | .leaX2 _ => 1
  | .leaX4 _ => 1
  | .leaX8 _ => 1
  | .addi _ => 1
  | .subi _ => 1
  | .muli _ => 1
  | .divi _ => 1
  | .remi _ => 1
  | .andi _ => 1
  | .ori _ => 1
  | .xori _ => 1
  | .shli _ => 1
  | .shri _ => 1
  | .sari _ => 1
  | .slti _ => 1
  | .sltiu _ => 1
  | .seqi _ => 1
  | .mini _ => 1
  | .maxi _ => 1
  | .lit _ => 3
  | .addLit _ => 3
  | .subLit _ => 3
  | .andLit _ => 3
  | .orLit _ => 3
  | .xorLit _ => 3
  | .shlLit _ => 3
  | .shrLit _ => 3
  | .sarLit _ => 3
  | .minLit _ => 3
  | .maxLit _ => 3
  | .minuLit _ => 3
  | .maxuLit _ => 3
  | .seqLit _ => 3
  | .sneLit _ => 3
  | .sltLit _ => 3
  | .sltuLit _ => 3
  | .sgeLit _ => 3
  | .sgeuLit _ => 3
  | .mulLit _ => 3
  | .mulhLit _ => 3
  | .mulhuLit _ => 3
  | .divLit _ => 3
  | .divuLit _ => 3
  | .remLit _ => 3
  | .remuLit _ => 3
  | .ldB _ => 1
  | .ldBu _ => 1
  | .ldH _ => 1
  | .ldHu _ => 1
  | .ldW _ => 1
  | .ldWu _ => 1
  | .ldD _ => 1
  | .stB _ => 1
  | .stH _ => 1
  | .stW _ => 1
  | .stD _ => 1
  | .lda _ => 1
  | .stl _ => 1
  | .ldq _ => 1
  | .qpop _ => 1
  | .qpeek _ => 1
  | .qpush _ => 1
  | .qlen _ => 1
  | .beq _ => 1
  | .bne _ => 1
  | .blt _ => 1
  | .bge _ => 1
  | .bltu _ => 1
  | .bgeu _ => 1
  | .jmp _ => 1
  | .jal _ => 1
  | .jr _ => 1
  | .loop _ => 1
  | .loopi _ => 1
  | .cadd _ => 1
  | .caddRemote _ => 1
  | .caddPage _ => 1
  | .cwait _ => 1
  | .cwaitPage _ => 1
  | .cread _ => 1
  | .creadRemote _ => 1
  | .creadPage _ => 1
  | .crst _ => 1
  | .crstPage _ => 1
  | .qsync => 1
  | .fence _ => 1
  | .aadd _ => 1
  | .amin _ => 1
  | .amax _ => 1
  | .aminu _ => 1
  | .amaxu _ => 1
  | .aand _ => 1
  | .aor _ => 1
  | .axor _ => 1
  | .aswp _ => 1
  | .acas _ => 1
  | .afadd _ => 1
  | .pand _ => 1
  | .por _ => 1
  | .pnot _ => 1
  | .pset _ => 1
  | .vmov _ => 1
  | .vsplat _ => 1
  | .vins _ => 1
  | .vext _ => 1
  | .renq _ => 1
  | .dlaunch _ => 1
  | .exit => 1
  | .safe => 1
  | .srd _ => 1
  | .swr _ => 1
  | .trap => 1
  | .tret => 1
  | .bkpt => 1
  | .halt => 1
  | .nop => 1
  | .tlbsync => 1
  | .spguard _ => 1
  | .tlbi _ => 3
  | .vadd _ => 2
  | .vsub _ => 2
  | .vmul _ => 2
  | .vfma _ => 2
  | .vmin _ => 2
  | .vmax _ => 2
  | .vaddLit _ => 3
  | .vsubLit _ => 3
  | .vmulLit _ => 3
  | .vfmaLit _ => 3
  | .vminLit _ => 3
  | .vmaxLit _ => 3
  | .viadd _ => 2
  | .visub _ => 2
  | .vimul _ => 2
  | .vand _ => 2
  | .vor _ => 2
  | .vxor _ => 2
  | .vshl _ => 2
  | .vshr _ => 2
  | .vsar _ => 2
  | .vsel _ => 2
  | .vcmp _ => 2
  | .viaddLit _ => 3
  | .visubLit _ => 3
  | .vimulLit _ => 3
  | .vandLit _ => 3
  | .vorLit _ => 3
  | .vxorLit _ => 3
  | .vshlLit _ => 3
  | .vshrLit _ => 3
  | .vsarLit _ => 3
  | .vselLit _ => 3
  | .vcmpLit _ => 3
  | .vrotc _ => 2
  | .vbcc _ => 2
  | .vredc _ => 2
  | .vrotw _ => 2
  | .vbcw _ => 2
  | .vbcwCol _ => 2
  | .vredw _ => 2
  | .vtrn _ => 2
  | .vrcp _ => 2
  | .vrsq _ => 2
  | .vsqrt _ => 2
  | .vexp2 _ => 2
  | .vlog2 _ => 2
  | .vsin _ => 2
  | .vcos _ => 2
  | .vtanh _ => 2
  | .vsigm _ => 2
  | .verf _ => 2
  | .vcvt _ => 2
  | .vpack _ => 2
  | .vunpk _ => 2
  | .vld _ => 2
  | .vst _ => 2
  | .vldg _ => 2
  | .vsts _ => 2
  | .vqpop _ => 2
  | .vqpush _ => 2
  | .ild _ => 2
  | .ist _ => 2
  | .sld _ => 2
  | .swp _ => 2
  | .cbld _ => 2
  | .seed _ => 2
  | .seedCe _ => 2
  | .epush _ => 2
  | .estart _ => 2
  | .eflush _ => 2
  | .tcfg _ => 2
  | .tego _ => 2
  | .testat _ => 2
  | .tethr _ => 2
  | .hptcfg _ => 2
  | .ditswpSwap _ => 2
  | .ditswpSet _ => 2
  | .ditswpFree _ => 2
  | .rxopen _ => 2
  | .rxsend _ => 2
  | .rxrecv _ => 2
  | .rxfree _ => 2
  | .rxclose _ => 2
  | .rxstat _ => 2
  | .dadd _ => 2
  | .dsub _ => 2
  | .dmul _ => 2
  | .dmax _ => 2
  | .dmix _ => 2
  | .dcond _ => 2
  | .dscl _ => 2
  | .dshf _ => 2
  | .drelu _ => 2
  | .dapp _ => 2
  | .dtag _ => 2
  | .dtagPm _ => 2
  | .tagnext _ => 2
  | .dld _ => 2
  | .dst _ => 2
  | .dmkp _ => 2
  | .dmku _ => 2
  | .dmkq _ => 2
  | .dmom _ => 2
  | .dqnt _ => 2
  | _ => 0

/-- The bytes of an instruction as they lie in memory. -/
def encodeBytes (s : Bool) (code : Nat) (i : Instr) : List Byte := leBytes (4 * i.words) (encode s code i)

/-- Bits [95:48] of a command word (Table 7-13). -/
def encCmdHead (op : Nat) (h : CmdHead) : List (Nat × Nat) :=
  [(1, h.addEn.toNat), (9, h.addSlot.toNat), (16, h.waitVal.toNat), (1, h.waitEn.toNat), (9, h.waitSlot.toNat),
   (1, h.popPrev.toNat), (1, h.popNext.toNat), (1, h.pushPrev.toNat), (1, h.pushNext.toNat), (8, op)]

/-- Bits [47:0] of CWT and CAD (Table 15-12). -/
def encCtrRef (c : CtrRef) (amount : BitVec 30) : List (Nat × Nat) :=
  match c with
  | .own k => [(9, k.toNat), (7, 0), (30, amount.toNat), (2, 0)]
  | .rank k r => [(9, k.toNat), (6, r.toNat), (1, 0), (30, amount.toNat), (2, 1)]
  | .page a => [(45, a.toNat), (1, 0), (2, 2)]

/-- Bits [47:0] of a command word (Tables 15-7, 15-9, 15-12). -/
def EngOp.fields : EngOp → List (Nat × Nat)
  | .mxlds s => [(4, s.toNat), (44, 0)]
  | .mxrun acc swap tile src => [(2, acc.toNat), (1, swap.toNat), (1, tile.toNat), (5, src.toNat), (39, 0)]
  | .mxout acc clr tile dst fmt rnd clamp scale =>
      [(2, acc.toNat), (1, clr.toNat), (1, tile.toNat), (5, dst.toNat), (4, fmt.toNat), (3, rnd.toNat),
       (2, clamp.code), (6, scale.toNat), (24, 0)]
  | .mxzero mask => [(4, mask.toNat), (44, 0)]
  | .mxrdaSt acc s => [(2, acc.toNat), (1, 0), (1, 0), (4, s.toNat), (40, 0)]
  | .mxrdaLd acc s => [(2, acc.toNat), (1, 1), (1, 0), (4, s.toNat), (40, 0)]
  | .cpy s => [(4, s.toNat), (44, 0)]
  | .cpyg s => [(4, s.toNat), (44, 0)]
  | .cpys s => [(4, s.toNat), (44, 0)]
  | .cpym s => [(4, s.toNat), (44, 0)]
  | .pub s => [(4, s.toNat), (44, 0)]
  | .cwt c => encCtrRef c 0
  | .cad c a => encCtrRef c a

/-- The opcode of a command (Table 7-14). -/
def EngOp.opcode : EngOp → Nat
  | .mxlds _ => 0x00 | .mxrun .. => 0x01 | .mxout .. => 0x02 | .mxzero _ => 0x03 | .mxrdaSt .. => 0x04
  | .mxrdaLd .. => 0x04 | .cpy _ => 0x20 | .cpyg _ => 0x21 | .cpys _ => 0x22 | .cpym _ => 0x23 | .pub _ => 0x24
  | .cwt _ => 0x40 | .cad .. => 0x41

/-- The 96 bits of an engine command. -/
def encodeCmd (c : EngCmd) : Nat := cat (c.op.fields ++ encCmdHead c.op.opcode c.h)

/-- The row of the table that a command's operation is. -/
def EngOp.instr : EngOp → Instr
  | .mxlds _ => .mxlds | .mxrun .. => .mxrun | .mxout .. => .mxout | .mxzero _ => .mxzero | .mxrdaSt .. => .mxrdaSt
  | .mxrdaLd .. => .mxrdaLd | .cpy _ => .cpy | .cpyg _ => .cpyg | .cpys _ => .cpys | .cpym _ => .cpym | .pub _ => .pub
  | .cwt _ => .cwt | .cad .. => .cad

end Sys2Proof
end

