-- ==== Sys2Proof/Machine/Flags.lean ====
section
/-!
DEFINITION. Number formats, exact values, rounding and the exception flags (R103-R114), the clamps (R169), integer
results (R170) and the stochastic-rounding generator (R122, R123).
-/

namespace Sys2Proof.Machine

/-! ### Formats (Table 9-1) -/

/-- The floating-point formats of R103. -/
inductive Fmt where
  | b128 | fp64 | fp32 | fp16 | bf16 | e5m2 | e4m3 | e2m1
  deriving DecidableEq, Repr

/-- Exponent width. -/
def Fmt.eb : Fmt → Nat
  | .b128 => 15 | .fp64 => 11 | .fp32 => 8 | .fp16 => 5 | .bf16 => 8 | .e5m2 => 5 | .e4m3 => 4 | .e2m1 => 2

/-- Fraction width. -/
def Fmt.fb : Fmt → Nat
  | .b128 => 112 | .fp64 => 52 | .fp32 => 23 | .fp16 => 10 | .bf16 => 7 | .e5m2 => 2 | .e4m3 => 3 | .e2m1 => 1

/-- Exponent bias. -/
def Fmt.bias : Fmt → Nat
  | .b128 => 16383 | .fp64 => 1023 | .fp32 => 127 | .fp16 => 15 | .bf16 => 127 | .e5m2 => 15 | .e4m3 => 7 | .e2m1 => 1

/-- Width of a value. -/
def Fmt.width (f : Fmt) : Nat := 1 + f.eb + f.fb

/-- The formats with infinities (Table 9-2). -/
def Fmt.hasInf : Fmt → Bool
  | .e4m3 | .e2m1 => false
  | _ => true

/-- Exponent and significand of the largest finite value: it is `maxMant * 2 ^ maxExp`. -/
def Fmt.maxMant (f : Fmt) : Nat :=
  match f with
  | .e4m3 => 14
  | f => 2 ^ (f.fb + 1) - 1

/-- The exponent of the last place of the largest binade. -/
def Fmt.maxExp (f : Fmt) : Int :=
  match f with
  | .e4m3 => 5
  | .e2m1 => 1
  | f => (f.bias : Int) - f.fb

/-- The exponent of the last place of the subnormals. -/
def Fmt.minExp (f : Fmt) : Int := 1 - (f.bias : Int) - f.fb

/-- The sign bit in place. -/
def Fmt.signBits (f : Fmt) (s : Bool) : Nat := if s then 2 ^ (f.width - 1) else 0

/-- The canonical NaN (Table 9-2); E2M1 has none and answers +0 (R106). -/
def Fmt.nanBits (f : Fmt) : Nat :=
  match f with
  | .e4m3 => 0x7F
  | .e2m1 => 0
  | f => (2 ^ f.eb - 1) * 2 ^ f.fb + 2 ^ (f.fb - 1)

/-- The largest finite pattern with a sign. -/
def Fmt.maxBits (f : Fmt) (s : Bool) : Nat :=
  f.signBits s +
  match f with
  | .e4m3 => 0x7E
  | .e2m1 => 0x7
  | f => (2 ^ f.eb - 1) * 2 ^ f.fb - 1

/-- Infinity, or the largest finite value where the format has no infinity. -/
def Fmt.infBits (f : Fmt) (s : Bool) : Nat :=
  if f.hasInf then f.signBits s + (2 ^ f.eb - 1) * 2 ^ f.fb else f.maxBits s

/-! ### Exact values -/

/-- A value of a format: NaN, an infinity, or `(-1)^s * m * 2^e` exactly (`m = 0` is a signed zero). -/
inductive FVal where
  | nan
  | inf (s : Bool)
  | fin (s : Bool) (m : Nat) (e : Int)
  deriving DecidableEq, Repr

/-- The value of a pattern (R103, Table 9-2). -/
def Fmt.value (f : Fmt) (bits : Nat) : FVal :=
  let s := decide (bits / 2 ^ (f.width - 1) % 2 = 1)
  let e := bits / 2 ^ f.fb % 2 ^ f.eb
  let m := bits % 2 ^ f.fb
  let ieee := f.hasInf && decide (e = 2 ^ f.eb - 1)
  if ieee then (if m = 0 then .inf s else .nan)
  else if f = .e4m3 ∧ e = 15 ∧ m = 7 then .nan
  else if e = 0 then .fin s m f.minExp
  else .fin s (m + 2 ^ f.fb) (f.minExp + (e - 1 : Nat))

namespace FVal

/-- Zero of a sign. -/
def zero (s : Bool) : FVal := .fin s 0 0

/-- An integer. -/
def ofInt (i : Int) : FVal := .fin (decide (i < 0)) i.natAbs 0

/-- Whether the value is NaN. -/
def isNan : FVal → Bool
  | .nan => true
  | _ => false

/-- Whether the value is infinite. -/
def isInf : FVal → Bool
  | .inf _ => true
  | _ => false

/-- Whether the value is a zero. -/
def isZero : FVal → Bool
  | .fin _ 0 _ => true
  | _ => false

/-- The sign of a number; NaN counts as positive. -/
def sign : FVal → Bool
  | .nan => false
  | .inf s => s
  | .fin s _ _ => s

/-- Negation; a NaN stays NaN. -/
def neg : FVal → FVal
  | .nan => .nan
  | .inf s => .inf !s
  | .fin s m e => .fin (!s) m e

/-- Magnitude. -/
def abs : FVal → FVal
  | .nan => .nan
  | .inf _ => .inf false
  | .fin _ m e => .fin false m e

/-- `modify` of R168: abs first, then neg. -/
def modify (x : FVal) (n ab : Bool) : FVal :=
  let y := if ab then x.abs else x
  if n then y.neg else y

/-- Signed significand on the grid `2^e`, for `e` at or below the value's own exponent. -/
def atExp (s : Bool) (m : Nat) (e0 e : Int) : Int :=
  let v : Int := (m * 2 ^ (e0 - e).toNat : Nat)
  if s then -v else v

/-- Exact sum of two finite values as a signed significand and an exponent. -/
def addFin (s1 : Bool) (m1 : Nat) (e1 : Int) (s2 : Bool) (m2 : Nat) (e2 : Int) : Int × Int :=
  let e := min e1 e2
  (atExp s1 m1 e1 e + atExp s2 m2 e2 e, e)

/-- The exact sum of finite values; `rdn` gives the sign of an exact zero sum of opposite signs (R108). -/
def add (rdn : Bool) : FVal → FVal → FVal
  | .nan, _ => .nan
  | _, .nan => .nan
  | .inf s, .inf t => if s = t then .inf s else .nan
  | .inf s, .fin .. => .inf s
  | .fin .., .inf t => .inf t
  | .fin s1 m1 e1, .fin s2 m2 e2 =>
      let r := addFin s1 m1 e1 s2 m2 e2
      if r.1 = 0 then (if m1 = 0 ∧ m2 = 0 ∧ s1 = s2 then .fin s1 0 0 else .fin rdn 0 0)
      else .fin (decide (r.1 < 0)) r.1.natAbs r.2

/-- The exact product; zero times infinity is NaN. -/
def mul : FVal → FVal → FVal
  | .nan, _ => .nan
  | _, .nan => .nan
  | .inf s, .inf t => .inf (s != t)
  | .inf s, .fin t m _ => if m = 0 then .nan else .inf (s != t)
  | .fin s m _, .inf t => if m = 0 then .nan else .inf (s != t)
  | .fin s m e, .fin t n g => .fin (s != t) (m * n) (e + g)

/-- The value times `2^k`; zeros, infinities and NaN are unchanged (R168). -/
def scale (x : FVal) (k : Int) : FVal :=
  match x with
  | .fin s m e => if m = 0 then .fin s 0 0 else .fin s m (e + k)
  | y => y

/-- Ordered less-than, with the zeros equal; false with a NaN. -/
def lt : FVal → FVal → Bool
  | .nan, _ => false
  | _, .nan => false
  | .inf s, .inf t => s && !t
  | .inf s, .fin .. => s
  | .fin .., .inf t => !t
  | .fin s1 m1 e1, .fin s2 m2 e2 =>
      let e := min e1 e2
      decide (atExp s1 m1 e1 e < atExp s2 m2 e2 e)

/-- Ordered equality, with the zeros equal; false with a NaN. -/
def eq : FVal → FVal → Bool
  | .nan, _ => false
  | _, .nan => false
  | .inf s, .inf t => s == t
  | .inf _, .fin .. => false
  | .fin .., .inf _ => false
  | .fin s1 m1 e1, .fin s2 m2 e2 =>
      let e := min e1 e2
      decide (atExp s1 m1 e1 e = atExp s2 m2 e2 e)

/-- Less-than with -0 below +0 (R173). -/
def ltz (a b : FVal) : Bool := a.lt b || (a.isZero && b.isZero && a.sign && !b.sign)

/-- The smaller value, -0 below +0. -/
def minz (a b : FVal) : FVal := if a.isNan || b.isNan then .nan else if b.ltz a then b else a

/-- The larger value, -0 below +0. -/
def maxz (a b : FVal) : FVal := if a.isNan || b.isNan then .nan else if a.ltz b then b else a

end FVal

/-! ### Flags (Table 9-6) -/

/-- STATUS[4:0]. -/
abbrev FFlags := BitVec 5

/-- No flag. -/
def fNone : FFlags := 0
/-- STATUS[0]. -/
def fInvalid : FFlags := 1
/-- STATUS[1]. -/
def fDivzero : FFlags := 2
/-- STATUS[2], always with inexact. -/
def fOverflow : FFlags := 4
/-- STATUS[3]. -/
def fUnderflow : FFlags := 8
/-- STATUS[4]. -/
def fInexact : FFlags := 16

/-! ### Rounding (R108-R110) -/

/-- How a value is rounded: the mode (the dynamic code acts as RNE) and the random bits of SR with their count. -/
structure RMode where
  mode : Rnd
  rbits : Nat
  nb : Nat
  deriving DecidableEq, Repr

/-- Round to nearest even. -/
def RMode.rne : RMode := { mode := .rne, rbits := 0, nb := 0 }

/-- Round to odd. -/
def RMode.rto : RMode := { mode := .rto, rbits := 0, nb := 0 }

/-- The magnitude `n * 2^e` (plus less than `2^e` when `sticky`) on the grid `2^q`: the significand chosen, whether
it is the neighbour away from zero, and whether the value was off the grid. -/
def roundAt (r : RMode) (s : Bool) (n : Nat) (e : Int) (sticky : Bool) (q : Int) : Nat × Bool × Bool :=
  if q ≤ e then
    let lo := n * 2 ^ (e - q).toNat
    if sticky then
      let up := match r.mode with
        | .rdn => s
        | .rup => !s
        | .rto => decide (lo % 2 = 0)
        | _ => false
      (if up then lo + 1 else lo, up, true)
    else (lo, false, false)
  else
    let sh := (q - e).toNat
    let lo := n / 2 ^ sh
    let rem := n % 2 ^ sh
    let half := 2 ^ (sh - 1)
    if rem = 0 ∧ sticky = false then (lo, false, false)
    else
      let up := match r.mode with
        | .rne | .dyn => decide (half < rem) || (decide (rem = half) && (sticky || decide (lo % 2 = 1)))
        | .rna => decide (half ≤ rem)
        | .rtz => false
        | .rdn => s
        | .rup => !s
        | .rto => decide (lo % 2 = 0)
        | .sr => decide (r.rbits < rem * 2 ^ r.nb / 2 ^ sh)
      (if up then lo + 1 else lo, up, true)

/-- The pattern of `m * 2^q` for `q` at or above the subnormal grid and `m` at most `2^(fb+1)`. -/
def Fmt.pack (f : Fmt) (s : Bool) (m : Nat) (q : Int) : Nat :=
  f.signBits s +
  (if m < 2 ^ f.fb then m
   else if m < 2 ^ (f.fb + 1) then ((q - f.minExp).toNat + 1) * 2 ^ f.fb + (m - 2 ^ f.fb)
   else ((q - f.minExp).toNat + 2) * 2 ^ f.fb)

/-- The result of an overflow (Table 9-5); `up` says that SR chose hi. -/
def Fmt.overflowBits (f : Fmt) (r : RMode) (s up : Bool) : Nat :=
  let toInf := match r.mode with
    | .rne | .rna | .dyn => true
    | .rtz | .rto => false
    | .rdn => s
    | .rup => !s
    | .sr => up
  if toInf then f.infBits s else f.maxBits s

/-- `round` of a nonzero finite value (R108-R112): the pattern and the flags. -/
def Fmt.round (f : Fmt) (r : RMode) (s : Bool) (n : Nat) (e : Int) (sticky : Bool) : Nat × FFlags :=
  let top : Int := e + Nat.log2 n
  let q0 := top - f.fb
  let q := max q0 f.minExp
  let a := roundAt r s n e sticky q
  -- compare with the largest finite value on the coarser of the two grids
  let past :=
    if f.maxExp ≤ q then decide (f.maxMant < a.1 * 2 ^ (q - f.maxExp).toNat)
    else decide (f.maxMant * 2 ^ (f.maxExp - q).toNat < a.1)
  if past then (f.overflowBits r s a.2.1, fOverflow ||| fInexact)
  else
    let tiny :=
      a.2.2 && decide (q0 < f.minExp) &&
        (let u := roundAt r s n e sticky q0
         decide (u.1 < 2 ^ (f.minExp + f.fb - q0).toNat))
    (f.pack s a.1 q, (if a.2.2 then fInexact else fNone) ||| (if tiny then fUnderflow else fNone))

/-- The pattern and flags of an exact result; a zero keeps its sign, an infinity stays one, a NaN is canonical. -/
def Fmt.ofVal (f : Fmt) (r : RMode) (v : FVal) : Nat × FFlags :=
  match v with
  | .nan => (f.nanBits, fNone)
  | .inf s => (f.infBits s, fNone)
  | .fin s m e => if m = 0 then (f.signBits s, fNone) else f.round r s m e false

/-- Rounding a finite magnitude to an integer by mode (R170). -/
def roundInt (r : RMode) (s : Bool) (n : Nat) (e : Int) : Int :=
  let a := roundAt r s n e false 0
  if s then -(a.1 : Int) else (a.1 : Int)

/-! ### Clamps -/

/-- clamp_f of R169 on a pattern. -/
def clampF (c : Clamp) (f : Fmt) (bits : Nat) : Nat :=
  let v := f.value bits
  let one := (f.ofVal .rne (.fin false 1 0)).1
  match c with
  | .none => bits
  | .to01 =>
      if v.isNan || v.isZero || v.sign then 0 else if (FVal.fin false 1 0).lt v then one else bits
  | .to11 =>
      if v.isNan then 0
      else if (FVal.fin false 1 0).lt v then one
      else if v.lt (FVal.fin true 1 0) then one + f.signBits true
      else bits
  | .sat =>
      match v with
      | .inf s => f.maxBits s
      | _ => bits

/-- The limits of an integer type of width `w`. -/
def intMin (signed : Bool) (w : Nat) : Int := if signed then -(2 ^ (w - 1) : Int) else 0

/-- The largest value of an integer type of width `w`. -/
def intMax (signed : Bool) (w : Nat) : Int := if signed then 2 ^ (w - 1) - 1 else 2 ^ w - 1

/-- The value congruent to `n` modulo `2^w` in the type's range. -/
def intWrap (signed : Bool) (w : Nat) (n : Int) : Int :=
  let u := n % 2 ^ w
  if signed && decide (2 ^ (w - 1) ≤ u) then u - 2 ^ w else u

/-- The clamp of R170. -/
def clampInt (c : Clamp) (signed : Bool) (w : Nat) (n : Int) : Int :=
  match c with
  | .sat => min (max n (intMin signed w)) (intMax signed w)
  | .none => intWrap signed w n
  | .to01 => min (max (intWrap signed w n) 0) 1
  | .to11 => min (max (intWrap signed w n) (-1)) 1

/-- The w-bit pattern of an integer. -/
def intBits (w : Nat) (n : Int) : Nat := (n % 2 ^ w).toNat

/-- The value of a w-bit pattern. -/
def intVal (signed : Bool) (w bits : Nat) : Int :=
  if signed && decide (2 ^ (w - 1) ≤ bits % 2 ^ w) then (bits % 2 ^ w : Nat) - 2 ^ w else ((bits % 2 ^ w : Nat) : Int)

/-! ### The stochastic-rounding generator -/

/-- The value stored for a written seed (R122). -/
def srStore (v : BitVec 32) : BitVec 32 := if v = 0 then 0x9E3779B9 else v

/-- One advance (R122). -/
def srAdvance (s : BitVec 32) : BitVec 32 :=
  let s := s ^^^ (s <<< 13)
  let s := s ^^^ (s >>> 17)
  s ^^^ (s <<< 5)

/-- Random bits per value for a destination of width `w` (R123). -/
def srCount (w : Nat) : Nat := if w = 8 then 8 else if w = 4 then 4 else 16

/-- The bits of sub-element `m` of lane `i` for a destination of width `w` (R123). -/
def srBits (s : BitVec 32) (i m w : Nat) : Nat :=
  let rot := (s.rotateLeft (2 * i % 32)).toNat
  let b := srCount w
  rot / 2 ^ (b * m) % 2 ^ b

/-- A rounding mode with the bits of lane `i`, sub-element `m`. -/
def mkMode (mode : Rnd) (s : BitVec 32) (i m w : Nat) : RMode :=
  { mode := mode, rbits := srBits s i m w, nb := srCount w }

/-! ### Element types -/

/-- The format of a float element type. -/
def etyFmt : ETy → Fmt
  | .f64 => .fp64 | .f16 => .fp16 | .bf16 => .bf16 | .e4m3 => .e4m3 | .e5m2 => .e5m2 | .e2m1 => .e2m1 | _ => .fp32

end Sys2Proof.Machine
end

