-- ==== Sys2Proof/Machine/State.lean ====
section
/-!
DEFINITION. The state of the package as plain data, the reasons a step can stop, and the state after reset.
-/

namespace Sys2Proof.Machine

/-! ### Why a step stops -/

/-- Faults of the machine itself. The traps, node faults and engine faults of the spec are next states. -/
inductive Fault where
  /-- The module has removed power after a thermal trip (R364): no step exists any more. Raised by `step`. Safe: the
  spec gives no behaviour without power. -/
  | powerRemoved
  deriving DecidableEq, Repr

/-- Refusals. -/
inductive Refusal where
  /-- A row whose meaning is not written yet. Raised by an arm of `exec` only. Safe. -/
  | notModelled (mnemonic : String)
  deriving DecidableEq, Repr

/-! ### Cluster -/

/-- A counter as an instruction or command names it (R141): a slot of a physical core, or the counter at a
device-physical address reached through a virtual one. -/
inductive CtrName where
  | slot (core k : Nat)
  | page (pa va : Nat)
  deriving DecidableEq, Repr

/-- Why a cluster does not issue (R44, Table 3-5). -/
inductive WaitKind where
  /-- CWAIT on a slot or a counter page (Table 11-8, WAITING); values: target, deadline or 0, status register. -/
  | cwait (c : CtrName)
  /-- CWAIT whose page was unmapped (Table 11-8, UNMAPPED), with the number of the TLBI. -/
  | unmapped (c : CtrName) (ticket : Nat)
  /-- A pop or peek of an unfilled queue entry (R64). -/
  | queue (q : Nat)
  /-- A write to a locked tile register (R63). -/
  | lock (t : Nat)
  /-- An S-set instruction waiting for its three companions (R61); the word is in `vals`. -/
  | rendezvous
  /-- RENQ or ESTART to a full inbox (R152), with the target core and rank. -/
  | inbox (core rank : Nat)
  /-- EPUSH to a full queue or one held by TCFG, or TCFG itself (Table 3-5). -/
  | engQueue (q : Nat)
  /-- RXOPEN (0), RXSEND (1), RXRECV (2) on a channel. -/
  | relay (ch kind : Nat)
  /-- QSYNC (R147). -/
  | qsync
  /-- TLBSYNC (R161). -/
  | tlbsync
  /-- FENCE (R148). -/
  | fence
  /-- Any other blocking instruction (R59). -/
  | blocking
  /-- An access to an SO page while an earlier one of the cluster awaits its acknowledgement (R253). -/
  | order (ea : Nat)
  /-- A fetch wait for a 64-byte block (R371). -/
  | fetch (block : Nat)
  /-- Trap entry: earlier results still land before the first handler instruction (R70). -/
  | trapEntry
  /-- Held in the device runtime after a trap, for a debugger (R368). -/
  | runtime
  deriving DecidableEq, Repr

/-- A wait: its kind, the instruction held, its effective address, the operands read at issue, the cycle it began and
the S bit of the word. -/
structure Hold where
  kind : WaitKind
  instr : Instr
  ea : Word
  vals : List Nat
  since : Nat
  sync : Bool
  deriving DecidableEq, Repr

/-- What a cluster is doing (R44, R46, R154). A halted one may have issued its part of a wide word and still wait alone to
perform it (R61). -/
inductive Activity where
  | idle
  | running
  | waiting (h : Hold)
  | atSafe (index : Nat)
  | exited
  | halted (wide : Bool)
  deriving DecidableEq, Repr

/-- A buffered DT store (R131, R147, R187): its address, the device-physical address, its size and the bytes it
stores, by offset. -/
structure DtStore where
  va : Nat
  pa : Nat
  size : Nat
  cells : List (Nat × Byte)
  deriving DecidableEq, Repr

/-- A posted store not yet acknowledged (R132, R244): its number, its address and the cause its failure will
report, 0 for none. -/
structure Posted where
  id : Nat
  ea : Word
  fail : Nat
  /-- Whether it lies on an SO page (R253). -/
  so : Bool := false
  /-- Whether its page is mirrored, and whether it has release semantics. -/
  mirrored : Bool := false
  sync : Bool := false
  /-- What the egress has still to send of it to other packages: peer address and access. -/
  out : List (Nat × PeerOp) := []
  deriving DecidableEq, Repr

/-- The state that exists once per cluster (Table 5-1, Table 5-3). -/
structure Cluster where
  /-- PC (R53). -/
  pc : Word
  /-- X0-X31; X0 is never listed (R55). -/
  x : SMap Word
  /-- P0-P7; an unlisted one is all ones, P0 is never listed (R55). -/
  p : SMap (BitVec 16)
  /-- STATUS[4:0] (R112). -/
  flags : FFlags
  /-- STATUS[7:5] (R111). -/
  rnd : BitVec 3
  /-- STATUS[8], supervisor mode (R69). -/
  super : Bool
  /-- TRAPPC (R70). -/
  trapPc : Word
  /-- TRAPCAUSE. -/
  trapCause : Word
  /-- TRAPINFO. -/
  trapInfo : Word
  /-- TRAPSTAT. -/
  trapStat : Word
  /-- TVEC. -/
  tvec : Word
  /-- SSCR0-SSCR3. -/
  sscr : SMap Word
  /-- LSTART0, LSTART1 (R138). -/
  lstart : SMap Word
  /-- LEND0, LEND1. -/
  lend : SMap Word
  /-- LCOUNT0, LCOUNT1. -/
  lcount : SMap Word
  /-- LDEPTH. -/
  ldepth : BitVec 2
  /-- SRSTATE (R122). -/
  srstate : BitVec 32
  /-- The register whose contents the operand latch holds (R66). -/
  latch : Option (BitVec 5)
  /-- What the cluster is doing. -/
  act : Activity
  /-- Buffered DT stores, oldest first (R131). -/
  dtBuf : List DtStore
  /-- The pending GUARD report (R164): its TRAPINFO. -/
  guardRep : Option Word
  /-- The pending CNTOVF report (R143). -/
  cntovfRep : Option Word
  /-- The pending MIRRFAIL or PROT report of a posted store (R132, R244): cause and TRAPINFO. -/
  mirrRep : Option (Nat × Word)
  /-- Posted stores not yet acknowledged. -/
  posted : List Posted
  /-- The TLBIs of this cluster not yet acknowledged (R161): ticket numbers. -/
  tlbis : List Nat
  /-- The 64-byte block of the last instruction issued (R371). -/
  block : Option Nat
  /-- A pending asynchronous event and the cycle it came (R67, R68): 0 hard pre-emption, 1 debugger halt, 2 WATCHDOG. -/
  event : Option (Nat × Nat)
  /-- Whether the cluster has executed QSYNC since the last boundary (R147). -/
  arrived : Bool
  /-- The cycle in which the cluster last issued, plus one; 0 for never. -/
  issuedAt : Nat
  deriving DecidableEq, Repr

/-- The entry of the device runtime in ROM, the reset value of TVEC (R360). -/
def romEntry : Word := 0xFFFFF0000000

/-- A cluster at reset and at dispatch (Table 5-1, Table 5-3, R360). -/
def Cluster.reset : Cluster :=
  { pc := 0, x := [], p := [], flags := 0, rnd := 0, super := false, trapPc := 0, trapCause := 0, trapInfo := 0,
    trapStat := 0, tvec := romEntry, sscr := [], lstart := [], lend := [], lcount := [], ldepth := 0,
    srstate := 0x9E3779B9, latch := none, act := .idle, dtBuf := [], guardRep := none, cntovfRep := none,
    mirrRep := none, posted := [], tlbis := [], block := none, event := none, arrived := false, issuedAt := 0 }

/-! ### Results in flight -/

/-- What a landing result writes (R57, R60). -/
inductive Write where
  /-- X[r] of the cluster. -/
  | x (r : Nat) (v : Word)
  /-- The bits `mask` of P[r] of the cluster. -/
  | p (r : Nat) (mask v : BitVec 16)
  /-- Tile elements, by number (1024 * register + 64 * row + column). -/
  | tile (cells : List (Nat × Elem))
  /-- STATUS flags of the cluster (R113). -/
  | flags (f : FFlags)
  /-- A queue entry's data; the entry becomes FILLED (R64). -/
  | queue (q e data : Nat)
  /-- Distribution points, by number (512 * register + 8 * element + point): value and weight. -/
  | dist (cells : List (Nat × BitVec 32 × BitVec 32))
  /-- The tag of a distribution register (R270). -/
  | dtag (d : Nat) (tag : BitVec 16)
  /-- S[n] (R191). -/
  | sreg (n : Nat) (v : BitVec 256)
  /-- I[n] (R191). -/
  | ireg (n : Nat) (v : BitVec 1024)
  /-- The index fields of I[n], dimension k listed at k (R200). -/
  | iidx (n : Nat) (idx : List Nat)
  /-- Bytes of the codebook table (R191). -/
  | codebook (bytes : List (Nat × Byte))
  /-- Guard marks of granules `first` to `first + count - 1` (R163). -/
  | guard (first count : Nat) (mark : Bool)
  /-- The copy engine's generator (R193). -/
  | copySr (v : BitVec 32)
  /-- Accumulation of a row (R118): the tree results added to accumulator elements. -/
  | accAdd (cells : List (Nat × BitVec 128))
  /-- Accumulator elements written (R227). -/
  | accSet (cells : List (Nat × BitVec 128))
  /-- The accumulators of a mask cleared (R227). -/
  | accZero (mask : Nat)
  /-- Lock counts of tile registers raised or lowered by one (R63). -/
  | lock (ts : List Nat) (up : Bool)
  /-- ASID (R72). -/
  | asid (v : BitVec 16)
  /-- TAGALLOC (R72). -/
  | tagAlloc (v : BitVec 16)
  deriving DecidableEq, Repr

/-- A result in flight of cluster `cl`, or of an engine for 4: it lands at the end of cycle `due`; its instruction or command
issued in cycle `iss`, which orders the results of one cycle (R60). -/
structure Landing where
  due : Nat
  iss : Nat
  cl : Nat
  w : Write
  deriving DecidableEq, Repr

/-! ### Queue registers (Table 5-4) -/

/-- Entry states. -/
inductive QState where
  | free | reserved | filled | poisoned
  deriving DecidableEq, Repr

/-- An entry: its state, its 256 bytes as a little-endian number, the load address it was reserved for. -/
structure QEntry where
  st : QState
  data : Nat
  addr : Word
  deriving DecidableEq, Repr

/-- A FREE entry. -/
def QEntry.empty : QEntry := { st := .free, data := 0, addr := 0 }

/-! ### Engine queues (R210-R215) -/

/-- What a command stopped by XLATE resumes from (R240): its next row, the descriptors it copied at issue, the codebook
it decodes with, the rows an MXOUT has read and not yet stored (row, data, scales), its GUARD touch (R164), its place among
the commands issued, and whether its checks at issue were done; one that XLATE stopped in them makes them again. -/
structure Resume where
  row : Nat
  sdesc : Nat
  cdesc : Nat
  cbook : SMap Byte
  rows : List (Nat × Nat × Nat)
  guard : Option Word := none
  order : Nat := 0
  checked : Bool := true
  deriving DecidableEq, Repr

/-- A command waiting in a queue: the cycle in which it entered, its section of a stream, the stream's number, its origin
for a report (the stream's address, or the issuing cluster of an EPUSH) and, for a stopped one, where it resumes. -/
structure QCmd where
  cmd : EngCmd
  placed : Nat
  sect : Option Nat
  stream : Nat
  origin : Word
  resume : Option Resume
  deriving DecidableEq, Repr

/-- A command that has issued and not retired (R215): its number, queue, the cycle of its row 0, what it copied at issue,
its next row, the earliest cycle in which it can retire once its last access is performed, and the GUARD touch that
will be reported when it retires (R164). `gate` is the open time of an access (R370): the row plus one, and the cycle from which
the access is made. -/
structure Issued where
  id : Nat
  queue : Nat
  c : QCmd
  t0 : Nat
  r : Resume
  tcb : Word
  doneAt : Option Nat
  guard : Option Word
  gate : Nat × Nat := (0, 0)
  deriving DecidableEq, Repr

/-- A section of a stream (Table 7-15): its engine, number, dependences, whether its length was 0, the commands not
yet retired, and whether EFLUSH has discarded some, by which it counts as retired (R220). -/
structure StreamSect where
  stream : Nat
  eng : Nat
  num : Nat
  afterNext : Nat
  afterPrev : Nat
  empty : Bool
  unretired : Nat
  lost : Bool := false
  deriving DecidableEq, Repr

/-- The stream being fetched: its number, its first address, the address of its next word, the commands still to fetch of
the current section with its engine and number, the sections counted for each engine, and the open time of the next fetch (R370): the
word's address plus one, and the cycle from which it is made. -/
structure Stream where
  id : Nat
  start : Word
  next : Word
  left : Nat
  eng : Nat
  num : Nat
  counts : SMap Nat
  gate : Nat × Nat := (0, 0)
  deriving DecidableEq, Repr

/-- A Bridle inbox entry: the stream's address and the cycle in which it was placed. -/
structure InEntry where
  addr : Word
  placed : Nat
  deriving DecidableEq, Repr

/-! ### Core -/

/-- The state a core holds beside its clusters (Table 5-1). -/
structure Core where
  /-- Clusters 0-3. -/
  cl : SMap Cluster
  /-- T0-T31, by element number. -/
  tiles : SMap Elem
  /-- Lock counts (R63). -/
  locks : SMap Nat
  /-- Head entry of each queue register (R64). -/
  qhead : SMap Nat
  /-- Queue entries, by 8 * register + entry. -/
  qent : SMap QEntry
  /-- S0-S15 (R206). -/
  sregs : SMap (BitVec 256)
  /-- I0-I15 (R194). -/
  iregs : SMap (BitVec 1024)
  /-- Distribution point values (R270). -/
  dval : SMap (BitVec 32)
  /-- Distribution point weights. -/
  dwt : SMap (BitVec 32)
  /-- Origin tags. -/
  dtags : SMap (BitVec 16)
  /-- The origin-tag allocator (R272). -/
  tagAlloc : BitVec 16
  /-- The model's own: TAGALLOC as it stood at the start of the cycle, which SRD samples (R156). -/
  tagSnap : BitVec 16
  /-- K0-K511 (R141). -/
  k : SMap Word
  /-- The model's own: K0-K511 as they stood at the start of the cycle, which engine waits see (R214). -/
  kSnap : SMap Word
  /-- A0-A3, by 4096 * accumulator + 64 * row + column (R118). -/
  acc : SMap (BitVec 128)
  /-- The weight planes, by 65536 * plane + 1024 * column + element, decoded (R223). -/
  planes : SMap FVal
  /-- Which plane is active. -/
  active : Bool
  /-- The tile configuration block (R202). -/
  tcb : Word
  /-- The codebook table (R117). -/
  codebook : SMap Byte
  /-- The copy engine's generator (R122). -/
  copySr : BitVec 32
  /-- Marked granules (R163). -/
  guards : SMap Bool
  /-- Load queue. -/
  loadQ : List QCmd
  /-- Matrix queue. -/
  matQ : List QCmd
  /-- Store queue. -/
  storeQ : List QCmd
  /-- Issued commands, in issue order. -/
  issued : List Issued
  /-- The number of the next issued command. -/
  nextCmd : Nat
  /-- The earliest cycle in which the loader pipe is idle (R222). -/
  loaderFree : Nat
  /-- The cycle after the last row of the last MXRUN has been taken. -/
  runFree : Nat
  /-- The cycle after the last array result has landed. -/
  arrayFree : Nat
  /-- The cycle after every array result but those of MXRUN has landed. -/
  otherFree : Nat
  /-- Tokens of the six FIFOs, by 3 * from + to (R213). -/
  tokens : SMap Nat
  /-- Tokens pushed in this cycle, which no pop sees before the next. -/
  freshTokens : SMap Nat
  /-- Bridle inbox, oldest first (R211). -/
  inbox : List InEntry
  /-- The stream being fetched. -/
  stream : Option Stream
  /-- Sections whose commands may still be queued or issued. -/
  sections : List StreamSect
  /-- The number of the next stream. -/
  nextStream : Nat
  /-- Section counts of streams that EFLUSH stopped, by 4 * stream + engine (R212, R220). -/
  stopped : SMap Nat
  /-- ASID (Table 5-3). -/
  asid : BitVec 16
  /-- VIFN. -/
  vifn : BitVec 6
  /-- GRANK (R34). -/
  grank : BitVec 6
  /-- GSHAPE: a_cores and f_cores. -/
  aCores : BitVec 8
  /-- f_cores. -/
  fCores : BitVec 8
  /-- The node the core is resident for, by its index in the node table (R35). -/
  node : Option Nat
  /-- Results in flight, in issue order (R60). -/
  inflight : List Landing
  /-- A debugger halt is in force (R73). -/
  halted : Bool
  /-- The throttle level max(L, Lt) that applies in this cycle (R363). -/
  slow : Nat
  /-- The cycle of the core's last engine progress or last EXIT (R51). -/
  progress : Nat
  /-- The cycle of the last progress of the core in the sense of R52. -/
  lastStep : Nat
  deriving DecidableEq, Repr

/-- A core at reset (Table 5-1, R360). -/
def Core.reset : Core :=
  { cl := [], tiles := [], locks := [], qhead := [], qent := [], sregs := [], iregs := [], dval := [], dwt := [],
    dtags := [], tagAlloc := 1, tagSnap := 1, k := [], kSnap := [], acc := [], planes := [], active := false, tcb := 0, codebook := [],
    copySr := 0x9E3779B9, guards := [], loadQ := [], matQ := [], storeQ := [], issued := [], nextCmd := 0,
    loaderFree := 0, runFree := 0, arrayFree := 0, otherFree := 0, tokens := [], freshTokens := [], inbox := [], stream := none,
    sections := [], nextStream := 0, stopped := [], asid := 0, vifn := 0, grank := 0, aCores := 0, fCores := 0,
    node := none, inflight := [], halted := false, slow := 0, progress := 0, lastStep := 0 }

/-! ### Package -/

/-- An entry of the indirection table (Table 21-1). -/
structure DitEntry where
  mframe : Nat
  valid : Bool
  autoTier : Bool
  pin : Bool
  shd : Bool
  mov : Bool
  smframe : Nat
  deriving DecidableEq, Repr

/-- A translation cache entry (R266): a successful leaf for a page of `size` bytes at `vbase`. Above bit 64, `ent` carries the size too,
so that an access in flight knows the page it was translated by (R269). -/
structure TlbEntry where
  asid : Nat
  vbase : Nat
  size : Nat
  ent : Nat
  /-- The 4 KiB part of the virtual range that its walk was for: it serves no other (R247). -/
  part : Nat := 0
  deriving DecidableEq, Repr

/-- Whose access a packet carries: no one's that waits for it; a blocking access (core, cluster, the cycle of its wait); an LDQ (core,
queue, entry); a posted store (core, cluster, its number); a multicast row (its number). -/
inductive Owner where
  | none
  | blocked (core cl since : Nat)
  | ldq (core q e : Nat)
  | posted (core cl id : Nat)
  | row (id : Nat)
  deriving DecidableEq, Repr

/-- A packet of the fabric in this package (R336-R338): its number, the access it carries with its header, its age, the die it is at
and whose access it is. In the mesh of the die it stands at router `place` and goes to router `goal`, both x + 16 y; at the switch of
the die `atSwitch` holds; while it crosses to the next switch `port` is the port it took, a link by its direction or, from 8 on, the
way to another die. -/
structure Packet where
  id : Nat
  req : PeerReq
  age : Nat
  die : Nat
  owner : Owner
  escape : Bool
  atSwitch : Bool
  place : Nat
  goal : Nat
  port : Option Nat
  deriving DecidableEq, Repr

/-- The operands of the step under way. -/
inductive EvArgs where
  | none
  | nats (l : List Nat)
  | host (c : HostCmd)
  | debug (core : Nat) (tgt : DebugTarget) (value : Nat)
  | peer (r : PeerReq)
  | packet (p : Packet)
  deriving DecidableEq, Repr

/-- A step that falls due: its cycle, its row and its operands. -/
structure Due where
  cycle : Nat
  row : Instr
  args : EvArgs
  deriving DecidableEq, Repr

/-- A pair of a mirror map (R341): the two package numbers and which copies are lost. -/
structure MirrorPair where
  primary : Nat
  secondary : Nat
  lostP : Bool
  lostS : Bool
  deriving DecidableEq, Repr

/-- What a recorded fault is of: a cluster's trap, an engine, a tier lane or a relay port (R369). -/
inductive FaultKind where
  | trap | engine | lane | port
  deriving DecidableEq, Repr

/-- A fault taken in this cycle, before the device runtime or the firmware has dealt with it (R71, R239, R368, R369):
the cycle, core, unit (cluster, or 4 Bridle, 5 load, 6 matrix, 7 store queue; 16 × die + lane, or + 8 for a relay port), cause and
info, whether it came in a nested handler, whether from user mode, and for an engine the command, its place and row. -/
structure FaultRec where
  cycle : Nat
  core : Nat
  unit : Nat
  cause : Nat
  info : Word
  nested : Bool
  user : Bool
  kind : FaultKind
  cmd : Nat
  place : Nat
  row : Nat
  deriving DecidableEq, Repr

/-- What the report of a node says (R239, R248): cause, core, the unit within the core, info and, for an engine, the command, its place
and its row; and for an XLATE whether the entry that the walk failed at is malformed rather than invalid. -/
structure Report where
  cause : Nat
  core : Option Nat
  unit : Option (FaultKind × Nat)
  info : Word
  cmd : Nat
  place : Nat
  row : Nat
  malformed : Bool
  deriving DecidableEq, Repr

/-- A report without a cause. -/
def Report.bare : Report :=
  { cause := 0, core := none, unit := none, info := 0, cmd := 0, place := 0, row := 0, malformed := false }

/-- A report to the host about a node: the interface, the graph handle, the node's index and the kind of Table 25-6. -/
structure HostReport where
  vi : Nat
  handle : Nat
  index : Nat
  kind : Nat
  report : Report
  deriving DecidableEq, Repr

/-- Bytes that a unit accesses under a translation of an ASID, as virtual addresses: the page holds them (R269). -/
structure Use where
  unit : Nat
  asid : Nat
  base : Nat
  size : Nat
  deriving DecidableEq, Repr

/-! ### Tiers (chapter 21) -/

/-- States of a hop (Table 21-4). -/
inductive HopState where
  | pending | active | done | failed | abandoned
  deriving DecidableEq, Repr

/-- A hop of a shard: its state, the cycles of its start and of its end, the next granule with its offsets in the source
and in the destination, the rereads of that granule, the check that each granule carries on to the next hop with its
length above bit 32, and the first touch of a marked granule (R164). -/
structure Hop where
  st : HopState
  start : Nat
  fin : Nat
  gran : Nat
  off : Nat
  doff : Nat
  rereads : Nat
  checks : SMap Nat
  guard : Option Word
  deriving DecidableEq, Repr

/-- A hop that has not started. -/
def Hop.fresh : Hop :=
  { st := .pending, start := 0, fin := 0, gran := 0, off := 0, doff := 0, rereads := 0, checks := [], guard := none }

/-- A shard whose record has been read (R301): its index, its record, the cycle from which its first hop may start, and
its hops by number. -/
structure Shard where
  index : Nat
  record : Nat
  ready : Nat
  hops : SMap Hop
  deriving DecidableEq, Repr

/-- States of a lane; HELD is RUNNING with the gang away (R313). -/
inductive LaneState where
  | idle | running | faulted
  deriving DecidableEq, Repr

/-- A tier-engine lane (R300, R305, R312, R314). -/
structure Lane where
  st : LaneState
  /-- The gang it is bound to, by its node. -/
  node : Option Nat
  /-- The core that issued the TEGO. -/
  core : Nat
  records : Nat
  count : Nat
  wl : Nat
  wh : Nat
  ws : Nat
  t0 : Nat
  arrived : Nat
  lateness : Nat
  acc : Nat
  level : Nat
  step : Nat
  /-- The cycle in which the current step window began. -/
  winStart : Nat
  mask : Nat
  info : Word
  shards : List Shard
  /-- A fault whose report waits for the gang (R310): cause and info. -/
  held : Option (Nat × Word)
  deriving DecidableEq, Repr

/-- A lane at reset. -/
def Lane.reset : Lane :=
  { st := .idle, node := none, core := 0, records := 0, count := 0, wl := 1, wh := 1, ws := 1, t0 := 0, arrived := 0, lateness := 0,
    acc := 0, level := 0, step := 0, winStart := 0, mask := 0, info := 0, shards := [], held := none }

/-- What an access does at its memory: it reads, writes, or reads and writes. -/
inductive Traffic where
  | read | write | update
  deriving DecidableEq, Repr

/-- A pseudo-channel (R298, R299): its five counters, the cycle of its last request plus one, 0 for none since power-on, and whether it is
in self-refresh. -/
structure ChanCtr where
  reads : Nat
  writes : Nat
  conflicts : Nat
  stalls : Nat
  entries : Nat
  last : Nat
  asleep : Bool
  deriving DecidableEq, Repr

/-- A pseudo-channel at power-on. -/
def ChanCtr.reset : ChanCtr := { reads := 0, writes := 0, conflicts := 0, stalls := 0, entries := 0, last := 0, asleep := false }

/-- A move of a frame (R294): the device-physical frame, its home die, the pool of its destination and, once it has
started, the media frame it takes; the granules whose bit is set in the dirty map, and the copies made so far: none, the first, and the
recopy passes. -/
structure Move where
  frame : Nat
  die : Nat
  dest : Nat
  new : Option Nat
  dirty : List Nat := []
  copies : Nat := 0
  deriving DecidableEq, Repr

/-! ### Relay channels (Table 23-3) -/

/-- States of a channel. -/
inductive ChanState where
  | closed | opening | opened | flowing | draining | faulted
  deriving DecidableEq, Repr

/-- A slab whose permit was taken: its sequence number, layer and parity, source address, the cycle of its permit, whether its
transfer has started, where the port reads and writes it (device-physical address and length, fixed when it starts), its bytes once
the source has been read, and the touch of a marked granule of the source, which is reported once the slab has arrived (R164). -/
structure Slab where
  seq : Nat
  layer : Nat
  src : Nat
  permit : Nat
  started : Bool
  reads : List (Nat × Nat)
  writes : List (Nat × Nat)
  bytes : Option (List Byte)
  guard : Option Word
  /-- The pages under which the port reads the slab and writes it, from its start (R268). -/
  uses : List Use := []
  deriving DecidableEq, Repr

/-- Writes into scratchpads that a gang's lane or channel still has to finish after the gang has ended (R300, R334): the cores that
are not free until then, and the bytes by device-physical address. -/
structure Late where
  id : Nat
  cores : List Nat
  writes : List (Nat × List Byte)
  uses : List Use := []
  deriving DecidableEq, Repr

/-- A relay channel (R320-R324). -/
structure Chan where
  st : ChanState
  /-- The 64-byte record. -/
  record : Nat
  /-- The gang it is bound to, by its node. -/
  node : Option Nat
  /-- The rank that opened it first. -/
  opener : Nat
  /-- The core that sends and the core that receives. -/
  sender : Nat
  receiver : Nat
  sent : Nat
  arrived : Nat
  received : Nat
  freed : Nat
  /-- Frees issued and not yet in effect. -/
  freeing : Nat
  slabs : List Slab
  info : Word
  /-- The cycle of the last free and `freed` before that cycle, the same of the last arrival, and the cycle of the last change of
  state but that to FLOWING: waits see what changes in a cycle from the next one (R323). -/
  freedAt : Nat
  freedOld : Nat
  arrivedAt : Nat
  arrivedOld : Nat
  stAt : Nat
  /-- The earliest cycle in which a draining channel can close. -/
  closeAt : Nat
  deriving DecidableEq, Repr

/-- A channel at reset: CLOSED (R359). -/
def Chan.reset : Chan :=
  { st := .closed, record := 0, node := none, opener := 0, sender := 0, receiver := 0, sent := 0, arrived := 0,
    received := 0, freed := 0, freeing := 0, slabs := [], info := 0, freedAt := 0, freedOld := 0, arrivedAt := 0,
    arrivedOld := 0, stAt := 0, closeAt := 0 }

/-! ### Nodes, graphs, contexts and interfaces (chapters 3 and 25) -/

/-- States of a node (Table 3-3). -/
inductive NodeState where
  | waiting | ready | dispatched | running | preempting | suspended | draining | complete | faulted | cancelled
  deriving DecidableEq, Repr

/-- Why a gang is being stopped with its state saved. -/
inductive StopKind where
  | none
  /-- Every cluster has stopped at a SAFE or exited; the engines drain (R46, R49). -/
  | drain
  /-- Hard pre-emption: clusters halt at quiet points (R47). -/
  | hard
  /-- Suspension by a translation fault, by the path of hard pre-emption (R240). -/
  | fault
  /-- The save is under way: of everything, or of what the live maps select (R46, R47). -/
  | saving (full : Bool)
  /-- The context is being destroyed or the interface reset: clusters halt at quiet points (R358). -/
  | kill
  deriving DecidableEq, Repr

/-- A node. -/
structure Node where
  /-- The 64-byte record (Table 3-2). -/
  record : Nat
  graph : Nat
  index : Nat
  preds : List Nat
  st : NodeState
  /-- The cycle in which it became READY. -/
  readyAt : Nat
  /-- Its cores in rank order, from dispatch. -/
  cores : List Nat
  /-- The order of its dispatch among all dispatches. -/
  dispatchNo : Nat
  /-- The cycle of a pre-emption request. -/
  reqAt : Option Nat
  stop : StopKind
  /-- The address of the translation fault that suspended it. -/
  faultVa : Option Nat
  /-- The report of that fault. -/
  faultRep : Report
  /-- The head for which a pre-emption freed its cores. -/
  victimOf : Option Nat
  /-- The state saved for its resumption: core and contents. -/
  saved : List (Nat × Core)
  /-- The scratchpad bytes saved with it. -/
  savedMem : List Host.Cell
  /-- The scratchpad ranges saved: first address and length. -/
  savedRanges : List (Nat × Nat)
  deriving DecidableEq, Repr

/-- A graph: its interface, context, handle, nodes, done counter and, for a batch, the gather queue, the buffer,
the sequence number and the count. -/
structure Graph where
  vi : Nat
  ctx : Nat
  handle : Nat
  nodes : List Nat
  doneCtr : Word
  batch : Option (Nat × Nat × Nat × Nat)
  deriving DecidableEq, Repr

/-- A context (R350, R372): its ASID, its page-table pool, the pool nodes in use and its registered ranges. -/
structure Ctx where
  asid : Nat
  pool : Nat
  size : Nat
  used : List Nat
  itin : List (Nat × Nat)
  deriving DecidableEq, Repr

/-- A pending request of a gather queue (R357): op0 to op5, its tag and its arrival cycle. -/
structure Request where
  ops : List Word
  tag : Nat
  placed : Nat
  deriving DecidableEq, Repr

/-- A gather queue (R356). -/
structure Corral where
  ctx : Nat
  record : Nat
  base : Nat
  n : Nat
  buffers : Nat
  deadline : Nat
  pending : List Request
  seq : Nat
  nextBuf : Nat
  busy : List Nat
  removing : Bool
  deriving DecidableEq, Repr

/-- The resources and scheduling state of a virtual interface (Table 25-2, R353). -/
structure Vif where
  cores : Nat
  weight : Nat
  lanes : SMap Nat
  chans : Nat
  slots : Nat
  tclass : Nat
  watchdog : Nat
  reserve : Nat
  ranges : SMap (Nat × Nat)
  nextHandle : Nat
  credits : SMap Nat
  corrals : SMap (Option Corral)
  deriving DecidableEq, Repr

/-- An interface at reset (Table 25-2). -/
def Vif.reset : Vif :=
  { cores := 0, weight := 1, lanes := [], chans := 0, slots := 0, tclass := 0, watchdog := 24, reserve := 0, ranges := [],
    nextHandle := 1, credits := [], corrals := [] }

/-- The rings of a function (Table 25-1, R348, R349, R351): the registers, the counts of entries handled, of completions
and of events written, the heads the host has written, the events held back, and the cycle of the first read of the
entry at the head while it is awaited. -/
structure Ring where
  sqBase : Word
  cqBase : Word
  eqBase : Word
  qcfg : Word
  error : Bool
  reason : Nat
  handled : Nat
  tail : Nat
  completions : Nat
  cqHead : Nat
  events : Nat
  eqHead : Nat
  held : List Nat
  reading : Option Nat
  /-- The command in progress: the number of its entry, and the value its completion will carry where that is known early. -/
  entry : Option Nat
  result : Nat
  deriving DecidableEq, Repr

/-- Rings at reset: disabled. -/
def Ring.reset : Ring :=
  { sqBase := 0, cqBase := 0, eqBase := 0, qcfg := 0, error := false, reason := 0, handled := 0, tail := 0,
    completions := 0, cqHead := 0, events := 0, eqHead := 0, held := [], reading := none, entry := none, result := 0 }

/-! ### Fabric (chapter 23) -/

/-- The configuration of a multicast group (R340): root, member bitmap and local context. -/
structure Group where
  root : Nat
  members : Nat
  ctx : Nat
  deriving DecidableEq, Repr

/-- A multicast row under way (R340): its number, its group, where it comes from, its address and its bytes. -/
structure McRow where
  id : Nat
  vi : Nat
  group : Nat
  core : Nat
  cmd : Nat
  va : Nat
  bytes : List Byte
  /-- The request by which a row of another package reached this package as the root of its group. -/
  from_ : Option PeerReq := none
  /-- Whether the root has forwarded it to the members, or this package has sent it to the root. -/
  sent : Bool := false
  /-- A cause with which another package answered, or 0. -/
  fail : Nat := 0
  /-- The first marked granule that its bytes touched in this package (R164). -/
  guard : Option Word := none
  deriving DecidableEq, Repr

/-- Who makes a counter add that a cycle's end applies, with what an engine fault CNTOVF of it needs (R143, R214, R146): an engine
(core, unit, info, command, place, row), a lane (die, lane, info), a relay port (core, info), or a party that reports nothing: the
fabric ingress, or the firmware. -/
inductive AddSrc where
  | engine (core unit : Nat) (info : Word) (cmd place row : Nat)
  | lane (die lane : Nat) (info : Word)
  | port (core : Nat) (info : Word)
  | silent (firmware : Bool)
  deriving DecidableEq, Repr

/-- A counter add performed in this cycle and not yet applied: the counter, the amount and who makes it. -/
structure AddReq where
  ctr : CtrName
  amount : Nat
  src : AddSrc
  deriving DecidableEq, Repr

/-- An access that follows, in this cycle, the atomic messages of its own cluster to the same bytes (R256): a store at these addresses,
or the read of an LDQ (core, cluster, queue, entry, address, leaf). -/
inductive After where
  | store (at_ : List Nat) (cells : List (Nat × Byte))
  | ldq (core cl q e pa ent : Nat)
  deriving DecidableEq, Repr

/-- A TLBI not yet acknowledged by every unit (R161, R269). -/
structure Ticket where
  id : Nat
  core : Nat
  cl : Nat
  asid : Option Nat
  lo : Nat
  len : Nat
  scope : Nat
  /-- Units that still hold the entries. -/
  undropped : List Nat
  /-- Units that have not acknowledged. -/
  unacked : List Nat
  /-- The cycle of the last acknowledgement. -/
  doneAt : Option Nat
  deriving DecidableEq, Repr

/-- The machine. -/
structure State where
  /-- CYCLE (R353, R359). -/
  cycle : Nat
  /-- Cores 0-175. -/
  cores : SMap Core
  /-- Memory, by the media address that selects each byte's cell under hash function 4 (R243, R251, R297). -/
  mem : List Host.Cell
  /-- Entries of the DIT other than the identity, by device-physical frame (R289, R290). -/
  dit : SMap (Option DitEntry)
  /-- Translation caches by unit (R266). -/
  tlbs : SMap (List TlbEntry)
  /-- Root node address of each ASID, plus one; 0 for none (R245). -/
  roots : SMap Nat
  /-- Atomics counted over the tracking period, by 8 * frame + issuing die (R263). -/
  atomCounts : SMap Nat
  /-- What a debugger's write of CYCLE adds to the count as a core reads it (R73). -/
  cycleSkew : SMap Word
  /-- Counters that a CRST of this cycle sets at its end (R146). -/
  crsts : List (CtrName × Word)
  /-- The model's own: counter adds of this cycle by others than clusters, not yet applied, in the order of R146. -/
  adds : List AddReq
  /-- The model's own: accesses of this cycle that follow the atomic messages of their clusters (R256). -/
  after : List After
  /-- The model's own: clusters, as core and cluster, whose relay or inbox instruction of this cycle comes in gang order (R152, R324). -/
  later : List (Nat × Nat)
  /-- Faults taken and not yet dealt with (R369). -/
  faults : List FaultRec
  /-- The package's own number x + 16y + 256z in the torus (R335). -/
  pkg : Nat
  /-- Aperture windows 0-7 (R244): the base address plus one, 0 for disabled. -/
  windows : SMap Nat
  /-- The mirror map of each virtual interface (R341). -/
  mirrors : SMap (List MirrorPair)
  /-- DBGEN[0] (R366). -/
  dbgen : Bool
  /-- Power is on (R364). -/
  power : Bool
  /-- Steps of power-on reset done (R359): 5 when it is complete. -/
  resetStep : Nat
  /-- How the host port completed the last configuration request (R359): answered, or with Retry Status. -/
  cfgReply : Option Bool
  /-- TRIPREC (R364). -/
  tripRec : Nat
  /-- PWRCAP in watts. -/
  pwrCap : Nat
  /-- PWRNOW in watts. -/
  pwrNow : Nat
  /-- The hottest sensor of each die, in degrees. -/
  temps : SMap Nat
  /-- Lt of each die (R362). -/
  thermal : SMap Nat
  /-- Fabric event log, by entry (R367). -/
  flog : SMap Nat
  /-- FLOGCNT. -/
  flogCnt : Nat
  /-- Torus extents less one, in x, y and z (R335, R359). -/
  torus : Nat × Nat × Nat
  /-- Links taken down, by direction (R342). -/
  linksDown : List Nat
  /-- Packages lost (R339). -/
  lost : List Nat
  /-- Packets at the switches and routers of the package. -/
  packets : List Packet
  /-- The sequence number of the next packet of each die (R336). -/
  seqs : SMap Nat
  /-- The virtual channel that the switch of each die took a packet of its own die from last, plus one (R347). -/
  portTurn : SMap Nat
  /-- Downstream free slots of the channels of the mesh ports, by 64 * router + 8 * port + virtual channel; port 4 leads to the switch
  (R337, R347). -/
  meshFree : SMap Nat
  /-- Output-queue depths of the mesh ports. -/
  meshQueue : SMap Nat
  /-- Multicast groups by 4096 * interface + group. -/
  groups : SMap (Option Group)
  /-- Multicast rows under way, in arrival order. -/
  mcRows : List McRow
  /-- Media frames of the pools, oldest first, by 3 * die + (0 HBM4E, 1 LPDDR 6, 2 shadow) (R292). -/
  pools : SMap (List Nat)
  /-- Tracker counts by device-physical frame (R295). -/
  hits : SMap Nat
  /-- The model's own: the frames that the access under way has already counted for the tracker (R295). -/
  hitSeen : List Nat
  /-- HPTCFG items by 256 * die + item, each plus one; 0 for its default (Table 21-10). -/
  hpt : SMap Nat
  /-- Items written that do not apply yet, in the same form: the tracker's until the next period, the others until the next cycle
  (R315). -/
  hptNext : SMap Nat
  /-- The cycle in which the tracking period of a die began. -/
  trackStart : SMap Nat
  /-- Moves decided, in order; the first of each die is under way. -/
  moves : List Move
  /-- Frames that joined a pool in this cycle, with the pool (R292). -/
  poolNew : List (Nat × Nat)
  /-- Pseudo-channels, by 4096 * die + number (R298, R299). -/
  chanCtrs : SMap ChanCtr
  /-- The model's own: no pseudo-channel enters self-refresh before this cycle. -/
  sleepNext : Nat
  /-- Lanes by 8 * die + lane. -/
  tierLanes : SMap Lane
  /-- Relay channels of the package. -/
  chans : SMap Chan
  /-- Nodes by their number. -/
  nodes : SMap (Option Node)
  /-- Graphs by their number. -/
  graphs : SMap (Option Graph)
  /-- Contexts by 65536 * interface + number. -/
  ctxs : SMap (Option Ctx)
  /-- The interface that had each core last, plus one; 0 once the scratchpad has been cleared and before any (R54, R345). -/
  owners : SMap Nat
  /-- The reports about nodes that the host has been given, in order: what the event ring has room for and what it has none for (R239,
  R248). -/
  reports : List HostReport
  /-- Interfaces. -/
  vifs : SMap Vif
  /-- Rings. -/
  rings : SMap Ring
  /-- The interface last served at each priority (R353). -/
  served : SMap Nat
  /-- Dispatches made so far. -/
  dispatches : Nat
  /-- Writes to finish after the end of a gang (R300, R334). -/
  lates : List Late
  /-- Scratchpad clears pending, by core (R54). -/
  clears : List Nat
  /-- TLBIs under way. -/
  tickets : List Ticket
  /-- The model's own: the core and cluster whose instruction is under way. -/
  curCore : Nat
  /-- The model's own: the cluster under way. -/
  curCl : Nat
  /-- The model's own: the engine queue whose head is under way: 0 load, 1 matrix, 2 store. -/
  curQueue : Nat
  /-- The model's own: the bits of the instruction under way. -/
  ir : Nat
  /-- The model's own: the operands of the step under way. -/
  ev : EvArgs
  /-- The model's own: the agent whose turn comes next in this cycle. -/
  turn : Nat
  /-- The model's own: steps that fall due, by cycle. -/
  agenda : List Due
  /-- The model's own: the durations that R370 leaves open, used in order; 0 when the list is used up. -/
  times : List Nat
  /-- The model's own: the number of the next thing under way. -/
  nextId : Nat
  /-- The model's own: how many free values have been drawn. -/
  freeCtr : Nat
  deriving DecidableEq, Repr

/-- The machine right after power-on reset (R359, R360). -/
def State.reset : State :=
  { cycle := 0, cores := [], mem := [], dit := [], tlbs := [], roots := [], atomCounts := [], cycleSkew := [], crsts := [], adds := [], after := [],
    later := [], faults := [],
    pkg := 0, windows := [], mirrors := [], dbgen := false, power := true, resetStep := 5, cfgReply := none, tripRec := 0, pwrCap := 3400,
    pwrNow := 0, temps := [], thermal := [], flog := [], flogCnt := 0, torus := (0, 0, 0), linksDown := [], lost := [],
    packets := [], seqs := [], portTurn := [], meshFree := [], meshQueue := [], groups := [], mcRows := [], pools := [], hits := [], hitSeen := [], hpt := [], hptNext := [],
    trackStart := [], moves := [], poolNew := [], chanCtrs := [], sleepNext := 11999, tierLanes := [], chans := [], nodes := [], graphs := [], ctxs := [], owners := [], reports := [],
    vifs := [], rings := [], served := [], dispatches := 0, lates := [], clears := [], tickets := [], curCore := 0, curCl := 0,
    curQueue := 0, ir := 0, ev := .none, turn := 0, agenda := [], times := [], nextId := 0, freeCtr := 0 }

end Sys2Proof.Machine
end

