-- ==== Sys2Proof/Machine/Ops.lean ====
section
/-!
DEFINITION. The named operations over registers, memory and the machine's own bookkeeping that every meaning uses:
reading and writing registers, memory through the indirection table, results in flight, taking a trap and returning.
-/

namespace Sys2Proof.Machine

/-! ### Cores and clusters -/

/-- Core `n`. -/
def State.core (s : State) (n : Nat) : Core := SMap.get Core.reset s.cores n

/-- Replace core `n`. -/
def State.setCore (s : State) (n : Nat) (c : Core) : State := { s with cores := SMap.set Core.reset s.cores n c }

/-- Change core `n`. -/
def State.modCore (s : State) (n : Nat) (f : Core → Core) : State := s.setCore n (f (s.core n))

/-- Cluster `c` of a core. -/
def Core.cluster (k : Core) (c : Nat) : Cluster := SMap.get Cluster.reset k.cl c

/-- Replace cluster `c`. -/
def Core.setCluster (k : Core) (c : Nat) (v : Cluster) : Core := { k with cl := SMap.set Cluster.reset k.cl c v }

/-- Cluster `c` of core `n`. -/
def State.cluster (s : State) (n c : Nat) : Cluster := (s.core n).cluster c

/-- Change cluster `c` of core `n`. -/
def State.modCluster (s : State) (n c : Nat) (f : Cluster → Cluster) : State :=
  s.modCore n fun k => k.setCluster c (f (k.cluster c))

/-- The cluster whose instruction is under way. -/
def State.me (s : State) : Cluster := s.cluster s.curCore s.curCl

/-- The core whose instruction is under way. -/
def State.myCore (s : State) : Core := s.core s.curCore

/-- Change the cluster under way. -/
def State.modMe (s : State) (f : Cluster → Cluster) : State := s.modCluster s.curCore s.curCl f

/-- Change the core under way. -/
def State.modMyCore (s : State) (f : Core → Core) : State := s.modCore s.curCore f

/-! ### Registers -/

/-- X[r] of a cluster: X0 reads 0 (R53, R55). -/
def Cluster.readX (c : Cluster) (r : Nat) : Word := if r = 0 then 0 else SMap.get 0 c.x r

/-- Write X[r]: a write to X0 is discarded (R55). -/
def Cluster.writeX (c : Cluster) (r : Nat) (v : Word) : Cluster :=
  if r = 0 then c else { c with x := SMap.set 0 c.x r v }

/-- P[r]: P0 is all ones (R55). -/
def Cluster.readP (c : Cluster) (r : Nat) : BitVec 16 := if r = 0 then BitVec.allOnes 16 else SMap.get (BitVec.allOnes 16) c.p r

/-- Write P[r]: a write to P0 is discarded (R55). -/
def Cluster.writeP (c : Cluster) (r : Nat) (v : BitVec 16) : Cluster :=
  if r = 0 then c else { c with p := SMap.set (BitVec.allOnes 16) c.p r v }

/-- X[r] of the cluster under way. -/
def State.x (s : State) (r : BitVec 5) : Word := s.me.readX r.toNat

/-- P[r] of the cluster under way. -/
def State.p (s : State) (r : BitVec 3) : BitVec 16 := s.me.readP r.toNat

/-- The number of a tile element. -/
def tileKey (t row col : Nat) : Nat := 1024 * t + 64 * row + col

/-- Element (row, col) of T[t]. -/
def Core.tile (k : Core) (t row col : Nat) : Elem := SMap.get 0 k.tiles (tileKey t row col)

/-- STATUS (Table 5-3). -/
def Cluster.status (c : Cluster) : Word := BitVec.ofNat 64 (c.flags.toNat + 32 * c.rnd.toNat + 256 * c.super.toNat)

/-! ### Memory (R5, R243, R251) -/

/-- The ranges of Table 17-1. -/
inductive MemKind where
  | hbm | lpddr | scratch | rom | host | pool | peer
  deriving DecidableEq, Repr

/-- The range a device-physical address lies in; none where it addresses no memory. -/
def memKind (pa : Nat) : Option MemKind :=
  if pa < 0xC000000000 then some .hbm
  else if 0x10000000000 ≤ pa ∧ pa < 0x60000000000 then some .lpddr
  else if 0x80000000000 ≤ pa ∧ pa < 0x8002C000000 then some .scratch
  else if 0xC0000000000 ≤ pa ∧ pa < 0xC0000100000 then some .rom
  else if 0x100000000000 ≤ pa ∧ pa < 0x200000000000 then some .host
  else if 0x800000000000 ≤ pa ∧ pa < 0x1000000000000 then some .pool
  else if 0x8000000000000 ≤ pa ∧ pa < 0x10000000000000 then some .peer
  else none

/-- The ranges that pass through the indirection table. -/
def viaDit (pa : Nat) : Bool :=
  match memKind pa with
  | some .hbm | some .lpddr | some .pool => true
  | _ => false

/-- The identity entry of a frame (R289). -/
def DitEntry.identity (f : Nat) : DitEntry :=
  { mframe := f, valid := true, autoTier := false, pin := false, shd := false, mov := false, smframe := 0 }

/-- The entry of device-physical frame `f`. -/
def State.ditEntry (s : State) (f : Nat) : DitEntry :=
  match SMap.get none s.dit f with
  | some e => e
  | none => .identity f

/-- Replace the entry of frame `f`; the identity is not listed. -/
def State.setDit (s : State) (f : Nat) (e : DitEntry) : State :=
  { s with dit := SMap.set none s.dit f (if e = .identity f then none else some e) }


/-- First byte of the scratchpad range (Table 17-1). -/
def scratchBase : Nat := 0x80000000000

/-- Bytes of one scratchpad. -/
def scratchSize : Nat := 0x400000

/-- The core whose scratchpad holds a device-physical address. -/
def scratchCore (pa : Nat) : Option Nat :=
  if memKind pa = some .scratch then some ((pa - scratchBase) / scratchSize) else none

/-- The die of a core (R17, R18). -/
def coreDie (n : Nat) : Nat := if n < 128 then n / 32 else 4 + (n - 128) / 24

/-- The home die of a device-physical address (Table 17-1); 6 is the H-die. -/
def homeDie (pa : Nat) : Nat :=
  match memKind pa with
  | some .hbm => let t := pa / 0x1000000000; if t < 4 then t else if t < 8 then 4 else 5
  | some .lpddr => if pa < 0x50000000000 then pa / 0x10000000000 - 1 else if pa < 0x58000000000 then 4 else 5
  | some .scratch => coreDie ((pa - scratchBase) / scratchSize)
  | some .pool => (pa - 0x800000000000) / 0x100000000000 / 2
  | _ => 6

/-! ### Channels (R297, R315) -/

/-- The value of HPTCFG item `i` of a die (Table 21-10). -/
def State.hptItem (s : State) (die i : Nat) : Nat :=
  match SMap.get 0 s.hpt (256 * die + i) with
  | 0 => (match i with | 0 => 1200000 | 1 => 64 | 2 => 256 | 3 => 1024 | 4 => 12000 | _ => 0)
  | v + 1 => v

/-- The hash function of a media frame on a die: that of the first enabled range that holds it, and else function 4. -/
def State.hashFn (s : State) (die f : Nat) : Nat :=
  match (List.range 16).find? fun n =>
      let b := s.hptItem die (0x20 + 2 * n)
      bit b 39 && decide (fld b 0 36 ≤ f ∧ f < s.hptItem die (0x21 + 2 * n)) with
  | some n => fld (s.hptItem die (0x20 + 2 * n)) 36 3
  | none => 4

/-- G of a hash function (Table 21-2). -/
def hashGran (f : Nat) : Nat := match f % 4 with | 0 => 256 | 1 => 1024 | 2 => 4096 | _ => 65536

/-- What function `f` with XOR adds to a number below `m`, and what takes it back. -/
def hashXor (f m n rest : Nat) : Nat := if 4 ≤ f then n ^^^ (rest % m) else n

/-- The pseudo-channel, the bank and the place in that bank of an offset within a stack or channel with `p` pseudo-channels, under
function `f` (R297). The place counts the bank's bytes in the order of `rest` and of the offset modulo G (log entry 30). -/
def channelHash (f p o : Nat) : Nat × Nat × Nat :=
  let u := o / hashGran f
  let rest := u / (16 * p)
  (hashXor f p (u % p) rest, hashXor f 16 (u / p % 16) (rest / p), rest * hashGran f + o % hashGran f)

/-- The offset that function `f` maps to a pseudo-channel, a bank and a place. -/
def channelOffset (f p : Nat) (c : Nat × Nat × Nat) : Nat :=
  let rest := c.2.2 / hashGran f
  ((rest * 16 + hashXor f 16 c.2.1 (rest / p)) * p + hashXor f p c.1 rest) * hashGran f + c.2.2 % hashGran f

/-- The offset that selects under function `g` the cell that `o` selects under function `f`. -/
def rehash (f g p o : Nat) : Nat := if f = g then o else channelOffset g p (channelHash f p o)

/-- The media address that selects under function `g` the cell that a media address selects under function `f`: a stack of HBM4E
has 64 pseudo-channels, a channel of LPDDR 6 has 2 (R297). -/
def rehashMedia (f g m : Nat) : Nat :=
  match memKind m with
  | some .hbm => m / 2 ^ 36 * 2 ^ 36 + rehash f g 64 (m % 2 ^ 36)
  | some .lpddr => m / 2 ^ 35 * 2 ^ 35 + rehash f g 2 (m % 2 ^ 35)
  | _ => m

/-- The function that serves a media frame; function 4 while no range is set. -/
def State.frameFn (s : State) (f : Nat) : Nat :=
  match s.hpt with
  | [] => 4
  | _ :: _ => s.hashFn (homeDie (f * 65536)) f

/-- The cell of a media address, named by the media address that selects it under function 4 (R297). -/
def State.cell (s : State) (m : Nat) : Nat := rehashMedia (s.frameFn (m / 65536)) 4 m

/-- The cell of a byte of a media frame. DESIGN CHOICE (log entry 73): an mframe that names no medium, neither HBM4E, LPDDR 6 nor the
pool, is a frame of bytes of its own, named from 2^64 on, which no other address reaches; R290 and R316 say nothing of it. -/
def State.mediaCell (s : State) (m : Nat) : Nat := if viaDit m then s.cell m else 2 ^ 64 + m

/-- The cell of a device-physical address (R251, R297). -/
def State.media (s : State) (pa : Nat) : Nat :=
  if viaDit pa then s.mediaCell ((s.ditEntry (pa / 65536)).mframe * 65536 + pa % 65536) else pa

/-! ### Memory cells (R5, R243) -/

/-- What a byte that nothing has written reads as: 0 (log entry 2). -/
def memDefault : Byte := 0

/-- The canonical form of a memory. -/
def Memory.wf (m : List Host.Cell) : Bool := SMap.wf memDefault m

/-- The byte at a device-physical address. -/
def State.byte (s : State) (pa : Nat) : Byte := SMap.get memDefault s.mem (s.media pa)

/-- Store one byte. -/
def State.setByte (s : State) (pa : Nat) (b : Byte) : State := { s with mem := SMap.set memDefault s.mem (s.media pa) b }

/-- `n` bytes from `pa`, lowest first. -/
def State.bytes (s : State) (pa : Nat) : Nat → List Byte
  | 0 => []
  | n + 1 => s.byte pa :: s.bytes (pa + 1) n

/-- Store bytes from `pa`. -/
def State.setBytes (s : State) (pa : Nat) : List Byte → State
  | [] => s
  | b :: t => (s.setByte pa b).setBytes (pa + 1) t

/-- The little-endian value of `n` bytes. -/
def State.readN (s : State) (pa n : Nat) : Nat := leNat (s.bytes pa n)

/-- Store the low `n` bytes of a value, lowest first. -/
def State.writeN (s : State) (pa n v : Nat) : State := s.setBytes pa (leBytes n v)

/-! ### The machine's own bookkeeping -/

/-- The next open duration (R370). -/
def State.time (s : State) : Nat := s.times.headD 0

/-- Use up one open duration. -/
def State.useTime (s : State) : State := { s with times := s.times.tail }

/-- The cycle from which an access of an open time is made (R370): the one kept with its number, or that of an open duration drawn
now. -/
def State.openAt (s : State) (g : Nat × Nat) (key : Nat) : Nat := if g.1 = key + 1 then g.2 else s.cycle + s.time

/-- An open duration is used up, if one is drawn now. -/
def State.drawn (s : State) (g : Nat × Nat) (key : Nat) : State := if g.1 = key + 1 then s else s.useTime

/-- Insert a step that falls due, after those of the same cycle. -/
def insertDue (d : Due) : List Due → List Due
  | [] => [d]
  | e :: t => if e.cycle ≤ d.cycle then e :: insertDue d t else d :: e :: t

/-- Put a step on the agenda. -/
def State.schedule (s : State) (cycle : Nat) (row : Instr) (args : EvArgs) : State :=
  { s with agenda := insertDue { cycle := cycle, row := row, args := args } s.agenda }

/-- Put a step on the agenda after an open duration of at least `least` cycles. -/
def State.scheduleOpen (s : State) (least : Nat) (row : Instr) (args : EvArgs) : State :=
  (s.schedule (s.cycle + max least s.time) row args).useTime

/-- The operands of the step under way, as numbers. -/
def EvArgs.nat : EvArgs → Nat → Nat
  | .nats l, i => l.getD i 0
  | _, _ => 0

/-! ### Results in flight (R57, R60) -/

/-- A result of cluster `cl` of core `n`, issued in cycle `iss`, that lands at the end of cycle `due`. -/
def State.landAs (s : State) (n cl iss due : Nat) (w : Write) : State :=
  s.modCore n fun k => { k with inflight := k.inflight ++ [{ due := due, iss := iss, cl := cl, w := w }] }

/-- A result of cluster `cl` of core `n` that issues now and lands at the end of cycle `due`. -/
def State.land (s : State) (n cl due : Nat) (w : Write) : State := s.landAs n cl s.cycle due w

/-- A result of the cluster under way with latency `l`: it lands at the end of cycle t + l - 1 (R57). -/
def State.result (s : State) (l : Nat) (w : Write) : State := s.land s.curCore s.curCl (s.cycle + l - 1) w

/-- A result of the instruction held since cycle `iss` that completes now (R60). -/
def State.resultOf (s : State) (iss : Nat) (w : Write) : State := s.landAs s.curCore s.curCl iss s.cycle w

/-- X[r] of the cluster under way receives `v` with latency `l`; a write to X0 is discarded (R55). -/
def State.resultX (s : State) (l : Nat) (r : BitVec 5) (v : Word) : State :=
  if r = 0 then s else s.result l (.x r.toNat v)

/-- Mark tile elements' registers as written for the operand latches of every cluster (R66). -/
def Core.dropLatch (k : Core) (ts : List Nat) : Core :=
  { k with cl := k.cl.map fun e =>
      (e.1, match e.2.latch with
        | some t => if ts.contains t.toNat then { e.2 with latch := none } else e.2
        | none => e.2) }

/-- Apply one landing result to its core. -/
def Core.applyWrite (k : Core) (cl : Nat) (accAdd : BitVec 128 → BitVec 128 → BitVec 128) : Write → Core
  | .x r v => k.setCluster cl ((k.cluster cl).writeX r v)
  | .p r m v =>
      let c := k.cluster cl
      k.setCluster cl (c.writeP r ((c.readP r &&& ~~~m) ||| (v &&& m)))
  | .tile cells => ({ k with tiles := SMap.setAll 0 k.tiles cells }).dropLatch (cells.map fun (e : Nat × Elem) => e.1 / 1024)
  | .flags f =>
      let c := k.cluster cl
      k.setCluster cl { c with flags := c.flags ||| f }
  | .queue q e data => { k with qent := SMap.set .empty k.qent (8 * q + e) { st := .filled, data := data, addr := 0 } }
  | .dist cells =>
      { k with dval := SMap.setAll 0 k.dval (cells.map fun (e : Nat × BitVec 32 × BitVec 32) => (e.1, e.2.1)),
               dwt := SMap.setAll 0 k.dwt (cells.map fun (e : Nat × BitVec 32 × BitVec 32) => (e.1, e.2.2)) }
  | .dtag d t => { k with dtags := SMap.set 0 k.dtags d t }
  | .sreg n v => { k with sregs := SMap.set 0 k.sregs n v }
  | .ireg n v => { k with iregs := SMap.set 0 k.iregs n v }
  | .iidx n idx =>
      let v := SMap.get 0 k.iregs n
      let put (v : BitVec 1024) (p : Nat) : BitVec 1024 :=
        let sh := 8 * (0x14 + 16 * p)
        let m := (BitVec.ofNat 1024 0xFFFFFFFF) <<< sh
        (v &&& ~~~m) ||| ((BitVec.ofNat 1024 (idx.getD p 0 % 2 ^ 32)) <<< sh)
      { k with iregs := SMap.set 0 k.iregs n ((List.range idx.length).foldl put v) }
  | .codebook bs => { k with codebook := SMap.setAll 0 k.codebook bs }
  | .guard first count mark =>
      { k with guards := SMap.setAll false k.guards ((List.range count).map fun i => (first + i, mark)) }
  | .copySr v => { k with copySr := v }
  | .accAdd cells =>
      { k with acc := cells.foldl (fun m (e : Nat × BitVec 128) => SMap.set 0 m e.1 (accAdd (SMap.get 0 m e.1) e.2)) k.acc }
  | .accSet cells => { k with acc := SMap.setAll 0 k.acc cells }
  | .accZero mask => { k with acc := k.acc.filter fun e => !mask.testBit (e.1 / 4096) }
  | .lock ts up =>
      { k with locks := ts.foldl (fun m t => SMap.set 0 m t (if up then SMap.get 0 m t + 1 else SMap.get 0 m t - 1)) k.locks }
  | .asid v => { k with asid := v }
  | .tagAlloc v => { k with tagAlloc := v }

/-! ### Causes (Table 5-5) -/

/-- ILLEN -/
def cILLEN : Nat := 0x01
/-- ILLOP -/
def cILLOP : Nat := 0x02
/-- ILLFLD -/
def cILLFLD : Nat := 0x03
/-- PRIV -/
def cPRIV : Nat := 0x04
/-- QUNDER -/
def cQUNDER : Nat := 0x05
/-- QOVER -/
def cQOVER : Nat := 0x06
/-- ALIGN -/
def cALIGN : Nat := 0x07
/-- XLATE -/
def cXLATE : Nat := 0x08
/-- PROT -/
def cPROT : Nat := 0x09
/-- GUARD -/
def cGUARD : Nat := 0x0A
/-- OVERLAP -/
def cOVERLAP : Nat := 0x0B
/-- SHAPE -/
def cSHAPE : Nat := 0x0C
/-- CNTSTORE -/
def cCNTSTORE : Nat := 0x0D
/-- LOOPOVF -/
def cLOOPOVF : Nat := 0x0E
/-- LOOPEND -/
def cLOOPEND : Nat := 0x0F
/-- DTOVF -/
def cDTOVF : Nat := 0x10
/-- RXPHASE -/
def cRXPHASE : Nat := 0x11
/-- CHKFAIL -/
def cCHKFAIL : Nat := 0x12
/-- ENGHANG -/
def cENGHANG : Nat := 0x13
/-- MIRRFAIL -/
def cMIRRFAIL : Nat := 0x14
/-- BKPT -/
def cBKPT : Nat := 0x15
/-- SWTRAP -/
def cSWTRAP : Nat := 0x16
/-- ENGILL -/
def cENGILL : Nat := 0x17
/-- CNTOVF -/
def cCNTOVF : Nat := 0x18
/-- WATCHDOG -/
def cWATCHDOG : Nat := 0x19

/-! ### Taking a trap and returning (R69-R71, R158) -/

/-- TRAPSTAT at an entry: prevmode, nested, sync, forced, loopdepth (Table 5-3). -/
def trapStatus (super sync forced : Bool) (depth : BitVec 2) : Word :=
  BitVec.ofNat 64 (super.toNat + 2 * super.toNat + 4 * sync.toNat + 8 * forced.toNat + 16 * depth.toNat)

/-- TRAPSTAT.nested. -/
def Cluster.nested (c : Cluster) : Bool := c.trapStat.getLsbD 1

/-- Trap entry of a cluster (R70) with the return address `ret`. Earlier results land before the handler's first
instruction issues, so the cluster waits at the handler; the operand latch becomes invalid (R66). -/
def Cluster.enterTrap (c : Cluster) (cycle cause : Nat) (info ret : Word) (sync forced : Bool) : Cluster :=
  { c with trapPc := ret, trapCause := BitVec.ofNat 64 cause, trapInfo := info,
           trapStat := trapStatus c.super sync forced c.ldepth, super := true, pc := c.tvec, latch := none,
           act := .waiting { kind := .trapEntry, instr := .nop, ea := 0, vals := [], since := cycle, sync := sync } }

/-- A cluster stopped for good by a trap that R71 does not handle. -/
def Cluster.stopTrap (c : Cluster) (cycle cause : Nat) (info : Word) : Cluster :=
  { c with act := .waiting { kind := .runtime, instr := .nop, ea := info, vals := [cause], since := cycle, sync := false } }

/-- The trap `cause` of cluster `c` of core `n` (R70, R71), with TRAPPC = `ret`. What the device runtime or the
firmware then does with it (R71, R368, R369) is decided at the end of the cycle from the record kept here. -/
def State.trapAt (s : State) (n c cause : Nat) (info ret : Word) (sync forced : Bool) : State :=
  let k := s.cluster n c
  let r : FaultRec :=
    { cycle := s.cycle, core := n, unit := c, cause := cause, info := info, nested := k.nested,
      user := !k.super && decide (k.tvec = romEntry), kind := .trap, cmd := 0, place := 0, row := 0 }
  let s := s.modCluster n c fun k =>
    if k.nested then k.stopTrap s.cycle cause info else k.enterTrap s.cycle cause info ret sync forced
  { s with faults := s.faults ++ [r] }

/-- The S bit of the instruction under way. -/
def State.irSync (s : State) : Bool := wordSync s.ir

/-- The trap `cause` of the cluster under way, precise at its PC. -/
def State.trap (s : State) (cause : Nat) (info : Word) : State :=
  s.trapAt s.curCore s.curCl cause info s.me.pc s.irSync false

/-- TRET (R71, R158): PC := TRAPPC, mode := prevmode, nested := 0; the latch becomes invalid. -/
def Cluster.leaveTrap (c : Cluster) : Cluster :=
  { c with pc := c.trapPc, super := c.trapStat.getLsbD 0, trapStat := c.trapStat &&& ~~~(2 : Word), latch := none,
           act := .running }

/-! ### Issuing an instruction -/

/-- What the issue of an instruction comes to. -/
inductive Res where
  /-- It executes; PC goes on in sequence, or round a loop (R139). -/
  | done (s : State)
  /-- It executes and control goes to `target` (R136, R137). -/
  | goto (s : State) (target : Word)
  /-- A precise trap (R70): nothing else happens. -/
  | trap (cause : Nat) (info : Word)
  /-- A precise trap after a part of the effect that stands (R198). -/
  | trapWith (s : State) (cause : Nat) (info : Word)
  /-- It executes, with any loop-end step, and then traps with TRAPPC = the next PC (R143, R157). -/
  | trapAfter (s : State) (cause : Nat) (info : Word)
  /-- It does not issue in this cycle: the cluster waits and presents it again (R44). -/
  | stall (k : WaitKind)
  /-- It issues and holds its cluster (R59). -/
  | hold (s : State) (h : Hold)
  /-- It issues and itself decides what its cluster does next (EXIT, TRET, HALT). -/
  | ends (s : State)

/-- The sequential PC of the instruction under way (R75). -/
def State.nextPc (s : State) : Word := s.me.pc + BitVec.ofNat 64 (wordLen (s.ir % 2 ^ 32))

/-- The loop-end step of R139 for a cluster whose instruction at `pc` completes; `next` is the sequential PC. -/
def Cluster.loopStep (c : Cluster) (next : Word) : Cluster :=
  let d := c.ldepth.toNat
  if d = 0 then { c with pc := next }
  else
    let i := d - 1
    if SMap.get 0 c.lend i ≠ c.pc then { c with pc := next }
    else
      let n := SMap.get 0 c.lcount i - 1
      let c1 := { c with lcount := SMap.set 0 c.lcount i n }
      if n ≠ 0 then { c1 with pc := SMap.get 0 c.lstart i }
      else
        let c2 := { c1 with ldepth := BitVec.ofNat 2 i }
        if i = 1 ∧ SMap.get 0 c.lend 0 = SMap.get 0 c.lend 1 then
          let m := SMap.get 0 c.lcount 0 - 1
          let c3 := { c2 with lcount := SMap.set 0 c2.lcount 0 m }
          if m ≠ 0 then { c3 with pc := SMap.get 0 c.lstart 0 } else { c3 with ldepth := 0, pc := next }
        else { c2 with pc := next }

/-- The cluster under way issued its instruction in this cycle; that is progress (R52). The block of an instruction that spans two is
that of its first word (DESIGN CHOICE, log entry 24). -/
def State.markIssued (s : State) : State :=
  s.modMyCore fun k =>
    let c := k.cluster s.curCl
    { k.setCluster s.curCl { c with issuedAt := s.cycle + 1, block := some (c.pc.toNat / 64) } with lastStep := s.cycle }

/-- A cluster that completes an instruction in sequence. -/
def State.advance (s : State) : State :=
  let n := s.nextPc
  s.modMe fun c => { c.loopStep n with act := .running }

/-- Completion of a held instruction of the cluster under way: the loop-end step and the next PC; it issues nothing
more in this cycle (R59). -/
def State.release (s : State) (h : Hold) : State :=
  s.modMe fun c =>
    { c.loopStep (c.pc + BitVec.ofNat 64 (4 * h.instr.words)) with act := .running, issuedAt := s.cycle + 1 }

/-- A precise trap of a held instruction of the cluster under way. -/
def State.trapHeld (s : State) (h : Hold) (cause : Nat) (info : Word) : State :=
  s.trapAt s.curCore s.curCl cause info s.me.pc h.sync false

/-- The control transfers that R139 forbids at a loop end. -/
def Instr.isControl : Instr → Bool
  | .beq _ | .bne _ | .blt _ | .bge _ | .bltu _ | .bgeu _ | .jmp _ | .jal _ | .jr _ | .loop _ | .loopi _ | .tret => true
  | _ => false

/-- LOOPEND of R139 (cases 1 and 2): a control transfer at the loop end, or an instruction that covers it with a
later word. -/
def Cluster.loopEndTrap (c : Cluster) (i : Instr) (len : Nat) : Bool :=
  let d := c.ldepth.toNat
  if d = 0 then false
  else
    let e := SMap.get 0 c.lend (d - 1)
    (decide (e = c.pc) && Instr.isControl i) ||
      (decide (len > 4) && decide (e = c.pc + 4)) || (decide (len > 8) && decide (e = c.pc + 8))

/-- The privileged instructions (Tables 7-7 and 7-11, R86). -/
def Instr.privileged : Instr → Bool
  | .crst _ | .crstPage _ | .tret | .halt | .tlbsync | .tlbi _ | .hptcfg _ | .ditswpSwap _ | .ditswpSet _ | .ditswpFree _ => true
  | _ => false

/-- What comes of the issue: the state after `r` for the cluster under way. -/
def State.settle (s : State) (r : Res) : State :=
  match r with
  | .done t => t.markIssued.advance
  | .goto t pc => t.markIssued.modMe fun c => { c with pc := pc, act := .running }
  | .trap cause info => s.trap cause info
  | .trapWith t cause info => t.trap cause info
  | .trapAfter t cause info =>
      let t := t.markIssued.advance
      t.trap cause info
  | .stall k =>
      s.modMe fun c =>
        { c with act := .waiting { kind := k, instr := .nop, ea := 0, vals := if s.irSync then [1] else [],
                                   sync := s.irSync,
                                   since := match c.act with | .waiting h => if h.kind = k then h.since else s.cycle | _ => s.cycle } }
  | .hold t h => t.markIssued.modMe fun c => { c with act := .waiting { h with sync := s.irSync } }
  | .ends t => t

/-- The wait of a cluster, if it waits. -/
def Cluster.hold? (c : Cluster) : Option Hold := match c.act with | .waiting h => some h | _ => none

/-- Whether an S-set instruction has issued with its wide word and waits alone for a queue entry, an engine queue or an
inbox (R61). -/
def Cluster.wideIssued (c : Cluster) : Bool :=
  match c.hold? with
  | some h => decide (h.vals = [1]) && (match h.kind with | .queue _ | .engQueue _ | .inbox _ _ => true | _ => false)
  | none => false

/-- The cluster under way presents an S-set instruction and waits for its companions (R61). -/
def State.present (s : State) : State :=
  s.modMe fun c =>
    { c with act := .waiting { kind := .rendezvous, instr := .nop, ea := 0, vals := [s.ir], since := s.cycle, sync := true } }

/-- Issue of an instruction of the cluster under way: the rows of Table 7-12 that depend on the mode, LOOPEND, then
the instruction's own checks and effect; with the S bit set it is presented for a wide word (R61). -/
def State.issue (s : State) (i : Instr) (body : State → Res) : Host.Outcome State Fault Refusal :=
  if Instr.privileged i && !s.me.super then .next (s.trap cPRIV 0)
  else if s.me.loopEndTrap i (wordLen (s.ir % 2 ^ 32)) then .next (s.trap cLOOPEND s.me.pc)
  else if s.irSync && !s.me.wideIssued then .next s.present
  else .next (s.settle (body { s with hitSeen := [] }))

end Sys2Proof.Machine
end

