-- ==== Sys2Proof/Machine/Trans.lean ====
section
/-!
DEFINITION. Translation and access checks (R242-R250, R125, R291), the translation caches (R266), guard touches (R164)
and reading through buffered DT stores (R253).
-/

namespace Sys2Proof.Machine

/-! ### Units with a translation cache (R266) -/

/-- The TLB of a core's clusters. -/
def unitCore (n : Nat) : Nat := n
/-- The copy and matrix engine of a core. -/
def unitEngine (n : Nat) : Nat := 1000 + n
/-- The Bridle of a core. -/
def unitBridle (n : Nat) : Nat := 2000 + n
/-- The tier engine of a die. -/
def unitTier (d : Nat) : Nat := 3000 + d
/-- The relay port of a die. -/
def unitRelay (d : Nat) : Nat := 4000 + d
/-- The fabric egress of a die. -/
def unitEgress (d : Nat) : Nat := 5000 + d

/-! ### Page-table entries (Table 17-3) -/

/-- V -/
def pteV (e : Nat) : Bool := bit e 0
/-- L -/
def pteL (e : Nat) : Bool := bit e 1
/-- k -/
def pteK (e : Nat) : Nat := fld e 2 3
/-- Rd -/
def pteR (e : Nat) : Bool := bit e 5
/-- W -/
def pteW (e : Nat) : Bool := bit e 6
/-- X -/
def pteX (e : Nat) : Bool := bit e 7
/-- U -/
def pteU (e : Nat) : Bool := bit e 8
/-- kind: 0 RC, 1 SO, 2 UO, 3 DT -/
def pteKind (e : Nat) : Nat := fld e 9 2
/-- M -/
def pteM (e : Nat) : Bool := bit e 11
/-- C -/
def pteC (e : Nat) : Bool := bit e 12
/-- AM -/
def pteAM (e : Nat) : Bool := bit e 13
/-- SH -/
def pteSH (e : Nat) : Bool := bit e 14
/-- The device-physical address of the page or of the next node. -/
def pteAddr (e : Nat) : Nat := fld e 24 40 * 4096

/-- Span of one entry at a level (Table 17-2). -/
def levelSpan (l : Nat) : Nat := 4096 * 512 ^ l

/-- The largest size code of a level (Table 17-4). -/
def maxK (l : Nat) : Nat := match l with | 0 => 4 | 1 => 3 | _ => 2

/-- The page size of a leaf at a level (R247). -/
def leafSize (l e : Nat) : Nat := levelSpan l * 4 ^ pteK e

/-- The leaf conditions of R248, beyond V and L. -/
def leafOk (l e : Nat) : Bool :=
  let a := pteAddr e
  let sz := leafSize l e
  let mk := memKind a
  let isDev := decide (mk = some .hbm) || decide (mk = some .lpddr)
  decide (fld e 15 9 = 0) && decide (l < 3) && decide (pteK e ≤ maxK l) && decide (a % sz = 0) &&
  decide (mk ≠ none) && decide (memKind (a + sz - 1) = mk) &&
  (!pteC e || isDev || decide (mk = some .peer)) &&
  !(pteC e && pteM e) &&
  (!pteM e || decide (mk = some .peer)) &&
  !(decide (pteKind e = 3) && (decide (mk = some .host) || decide (mk = some .peer))) &&
  (!pteSH e || ((isDev || decide (mk = some .pool)) && decide (65536 ≤ sz))) &&
  (!pteAM e || isDev) &&
  !(decide (mk = some .rom) && (pteW e || pteU e || pteC e || pteM e || pteSH e || pteAM e || decide (pteKind e ≠ 0)))

/-- The frame's indirection entry is valid (R291). -/
def State.frameOk (s : State) (pa : Nat) : Bool := !viaDit pa || (s.ditEntry (pa / 65536)).valid

/-- The page of an access in flight, which its leaf's `ent` carries above bit 64: the ASID and the size. -/
def entAsid (ent : Nat) : Nat := fld ent 64 16
/-- The size of the page. -/
def entSize (ent : Nat) : Nat := ent / 2 ^ 80

/-- The use of the page of `va` under a leaf by a unit. -/
def Use.of_ (unit va ent : Nat) : Use :=
  { unit := unit, asid := entAsid ent, base := va / entSize ent * entSize ent, size := entSize ent }

/-- The leaf of entry `e` at level `l` for the 4 KiB part that holds `va` (R247). -/
def leafEntryFor (asid va l e : Nat) : TlbEntry :=
  let z := leafSize l e
  { asid := asid, vbase := va / z * z, size := z, ent := e + 2 ^ 64 * (asid % 65536) + 2 ^ 80 * z, part := va / 4096 }

/-- The entry of a node that a walk of `va` reads at a level. -/
def State.walkEntry (s : State) (va l node : Nat) : Nat := s.readN (node + 8 * (va / levelSpan l % 512)) 8

/-- The walk from a node at a level (R245-R248): the leaf that translates `va`, or none where the walk fails. A node whose frame has no
valid indirection entry cannot be read, and the walk fails (R291; log entry 74). -/
def State.walk (s : State) (asid va : Nat) : Nat → Nat → Option TlbEntry
  | 0, node =>
      let e := s.walkEntry va 0 node
      if s.frameOk node && pteV e && pteL e && leafOk 0 e then some (leafEntryFor asid va 0 e) else none
  | l + 1, node =>
      let e := s.walkEntry va (l + 1) node
      if !(s.frameOk node && pteV e) then none
      else if pteL e then
        if leafOk (l + 1) e then some (leafEntryFor asid va (l + 1) e) else none
      else if fld e 2 22 ≠ 0 then none
      else s.walk asid va l (pteAddr e)

/-- Whether a walk of `va` fails at an entry that is malformed, not invalid (R248). -/
def State.malformedFrom (s : State) (va : Nat) : Nat → Nat → Bool
  | 0, node =>
      let e := s.walkEntry va 0 node
      s.frameOk node && pteV e && !(pteL e && leafOk 0 e)
  | l + 1, node =>
      let e := s.walkEntry va (l + 1) node
      if !(s.frameOk node && pteV e) then false
      else if pteL e then !leafOk (l + 1) e
      else decide (fld e 2 22 ≠ 0) || s.malformedFrom va l (pteAddr e)

/-- What the firmware finds when it walks the address of a translation fault (R248). -/
def State.malformedAt (s : State) (asid va : Nat) : Bool :=
  match SMap.get 0 s.roots asid with
  | 0 => false
  | r + 1 => decide (va < 2 ^ 48) && s.malformedFrom va 3 r

/-- Whether a cached entry translates `va` for an ASID: it serves the 4 KiB part that its walk was for (R247). -/
def TlbEntry.covers (t : TlbEntry) (asid va : Nat) : Bool :=
  decide (t.asid = asid) && decide (t.part = va / 4096) && decide (t.vbase ≤ va) && decide (va < t.vbase + t.size)

/-- The leaf under which every context maps the ROM (R360): 1 MiB, execute only, supervisor, kind RC; it takes no node of
the page-table pool (log entry 13). -/
def romLeaf (asid va : Nat) : TlbEntry := leafEntryFor asid va 0 (1 + 2 + 4 * 4 + 2 ^ 7 + 0xC0000000000 / 4096 * 2 ^ 24)

/-- Whether an address lies in the page of the ROM (R360). -/
def inRom (va : Nat) : Bool := decide (0xFFFFF0000000 ≤ va) && decide (va < 0xFFFFF0100000)

/-- The leaf that a unit uses for a virtual address: a cached one, or that of a walk (R250); a page that MAP has put in the place of
the ROM's comes before it (log entry 13). -/
def State.lookup (s : State) (unit asid va : Nat) : Option TlbEntry :=
  match (SMap.get [] s.tlbs unit).find? (fun t => t.covers asid va) with
  | some t => some t
  | none =>
      match SMap.get 0 s.roots asid with
      | 0 => none
      | r + 1 =>
          match s.walk asid va 3 r with
          | some t => some t
          | none => if inRom va then some (romLeaf asid va) else none

/-! ### Pseudo-channels (R297-R299) -/

/-- A pseudo-channel. -/
def State.chanCtr (s : State) (q : Nat) : ChanCtr := SMap.get ChanCtr.reset s.chanCtrs q

/-- Change a pseudo-channel. -/
def State.modChanCtr (s : State) (q : Nat) (f : ChanCtr → ChanCtr) : State :=
  { s with chanCtrs := SMap.set ChanCtr.reset s.chanCtrs q (f (s.chanCtr q)) }

/-- The pseudo-channel of a media address, by 4096 × die + its number in Table 21-9: the stacks of HBM4E of the die, then the
sub-channels of its LPDDR 6 (R297); none for the pool. -/
def State.pseudoChan (s : State) (m : Nat) : Option Nat :=
  let die := homeDie m
  match memKind m with
  | some .hbm =>
      some (4096 * die + 64 * (if die < 4 then 0 else m / 2 ^ 36 % 4) + (channelHash (s.frameFn (m / 65536)) 64 (m % 2 ^ 36)).1)
  | some .lpddr =>
      some (4096 * die + 256 + 2 * (m / 2 ^ 35 % (if die < 4 then 32 else 16)) + (channelHash (s.frameFn (m / 65536)) 2 (m % 2 ^ 35)).1)
  | _ => none

/-- A request of one 64-byte burst, or of one each way, in a cycle: it ends self-refresh and restarts the idle timer (R298, R299). -/
def ChanCtr.request (c : ChanCtr) (cycle : Nat) (k : Traffic) : ChanCtr :=
  { c with reads := if k = .write then c.reads else (c.reads + 1) % 2 ^ 64,
           writes := if k = .read then c.writes else (c.writes + 1) % 2 ^ 64, last := cycle + 1, asleep := false }

/-- The request of the burst at 64-byte block `b` of the device-physical addresses. -/
def State.burst (s : State) (k : Traffic) (b : Nat) : State :=
  match s.pseudoChan ((s.ditEntry (b / 1024)).mframe * 65536 + b % 1024 * 64) with
  | some q => s.modChanCtr q fun c => c.request s.cycle k
  | none => s

/-- A write through the home sets the bits of its granules in the dirty map of a frame that is moving (R294). -/
def Move.mark (m : Move) (f first last : Nat) : Move :=
  if m.frame = f ∧ m.new.isSome then
    { m with dirty := m.dirty ++ ((List.range (last + 1 - first)).map fun i => first + i).filter fun g => !m.dirty.contains g }
  else m

/-- The bursts of an access to the device-physical bytes `[pa, pa + n)` (log entry 77), and the marks of a write in the dirty maps of the
frames it writes. -/
def State.bursts (s : State) (pa n : Nat) (k : Traffic) : State :=
  if n = 0 ∨ viaDit pa = false then s
  else
    let s := ((List.range ((pa + n - 1) / 64 + 1 - pa / 64)).map fun i => pa / 64 + i).foldl (fun (s : State) b => s.burst k b) s
    if k = .read ∨ s.moves = [] then s
    else
      { s with moves := ((List.range ((pa + n - 1) / 65536 + 1 - pa / 65536)).map fun i => pa / 65536 + i).foldl (fun (l : List Move) f =>
          l.map fun m => m.mark f ((max pa (65536 * f) - 65536 * f) / 256) ((min (pa + n) (65536 * f + 65536) - 1 - 65536 * f) / 256)) s.moves }

/-- The nodes that a walk reads, with the level. -/
def State.walkPath (s : State) (va : Nat) : Nat → Nat → List Nat
  | 0, node => [node + 8 * (va / levelSpan 0 % 512)]
  | l + 1, node =>
      let e := s.walkEntry va (l + 1) node
      (node + 8 * (va / levelSpan (l + 1) % 512)) :: (if pteV e && !pteL e then s.walkPath va l (pteAddr e) else [])

/-- The bursts of the walk of an address. -/
def State.walkBursts (s : State) (asid va : Nat) : State :=
  match SMap.get 0 s.roots asid with
  | 0 => s
  | r + 1 => (s.walkPath va 3 r).foldl (fun (s : State) a => s.bursts a 8 .read) s

/-- Keep a successful leaf in a unit's cache; the walk that found it has read its nodes. -/
def State.fill (s : State) (unit : Nat) (t : TlbEntry) : State :=
  let l := SMap.get [] s.tlbs unit
  if l.contains t then s
  else { s.walkBursts t.asid (4096 * t.part) with tlbs := SMap.set [] s.tlbs unit (t :: l) }

/-- The device-physical address of `va` under a leaf. -/
def TlbEntry.pa (t : TlbEntry) (va : Nat) : Nat := pteAddr t.ent + (va - t.vbase)

/-! ### Checks -/

/-- What an access needs (R249). -/
inductive Need where
  | load | store | atomic | fetch
  deriving DecidableEq, Repr

/-- The permission check of R249. -/
def permits (super : Bool) (n : Need) (e : Nat) : Bool :=
  match n with
  | .load => pteR e && (super || pteU e)
  | .store => pteW e && (super || pteU e)
  | .atomic => pteR e && pteW e && (super || pteU e)
  | .fetch => pteX e && (if super then !pteU e else pteU e)

/-- Translation and permission of one address for a unit (R125 steps 2 and 3, R291): the leaf, or the cause. -/
def State.check (s : State) (unit asid : Nat) (super : Bool) (n : Need) (va : Nat) : Except Nat TlbEntry :=
  if 2 ^ 48 ≤ va then .error cXLATE
  else match s.lookup unit asid va with
    | none => .error cXLATE
    | some t =>
        if permits super n t.ent && s.frameOk (t.pa va) then .ok t else .error cPROT

/-- The common checks of R125 for a data access of the cluster under way: alignment, translation, permission. -/
def State.accessChecks (s : State) (n : Need) (align : Nat) (ea : Word) : Except (Nat × Word) (State × TlbEntry × Nat) :=
  if ea.toNat % align ≠ 0 then .error (cALIGN, ea)
  else match s.check (unitCore s.curCore) s.myCore.asid.toNat s.me.super n ea.toNat with
    | .error c => .error (c, ea)
    | .ok t => .ok (s.fill (unitCore s.curCore) t, t, t.pa ea.toNat)

/-- Whether an access of the cluster under way to an SO page awaits its acknowledgement: a posted store or atomic, or an LDQ fill
(R253). -/
def State.soOpen (s : State) : Bool :=
  s.me.posted.any (fun p => p.so) ||
    s.agenda.any fun d => decide (d.row = .ldqFill) && decide (d.args.nat 0 = s.curCore ∧ d.args.nat 5 = s.curCl) &&
      decide (pteKind (d.args.nat 4) = 1)

/-- Not a trap: an access to an SO page does not issue before the cluster's earlier ones have been acknowledged (R253). A counter
lies outside every page kind (R260). -/
def cOrder : Nat := 65536

/-- A data access of the cluster under way: the checks of R125, and on an SO page the order of R253. -/
def State.access (s : State) (n : Need) (align : Nat) (ea : Word) : Except (Nat × Word) (State × TlbEntry × Nat) :=
  match s.accessChecks n align ea with
  | .error e => .error e
  | .ok r =>
      if decide (pteKind r.2.1.ent = 1) && !pteC r.2.1.ent && s.soOpen then .error (cOrder, ea) else .ok r

/-- What an access that is refused comes to: a wait for order, or its trap. -/
def Res.denied (e : Nat × Word) : Res := if e.1 = cOrder then .stall (.order e.2.toNat) else .trap e.1 e.2

/-- Whether a device-physical address lies in the own scratchpad (R126). -/
def State.own (s : State) (pa : Nat) : Bool := decide (scratchCore pa = some s.curCore)

/-! ### The peer aperture (R244, R335) -/

/-- The local address a peer access is performed at by this package's ingress (R244); none where it fails as PROT: a disabled window, no
memory there, a frame without a valid indirection entry (R291). `change` says that the access stores: the mask ROM takes none (R31),
and a peer address is no local one (log entry 75). -/
def State.ingress (s : State) (ap : Nat) (change : Bool) : Option Nat :=
  match SMap.get 0 s.windows (ap / 2 ^ 36) with
  | 0 => none
  | b + 1 =>
      let a := b + ap % 2 ^ 36
      match memKind a with
      | none | some .peer => none
      | some .rom => if change then none else some a
      | some _ => if s.frameOk a then some a else none

/-- Whether a package number lies in the torus (R335). -/
def State.inTorus (s : State) (p : Nat) : Bool :=
  decide (p % 16 ≤ s.torus.1) && decide (p / 16 % 16 ≤ s.torus.2.1) && decide (p / 256 ≤ s.torus.2.2)

/-- Where an access to a device-physical address is performed: a peer address that names the own package goes
through the own ingress (R244); one whose package lies outside the torus fails (R335). -/
def State.target (s : State) (pa : Nat) (change : Bool) : Option Nat :=
  if memKind pa = some .peer then
    if fld pa 39 12 = s.pkg then s.ingress (pa % 2 ^ 39) change else if s.inTorus (fld pa 39 12) then some pa else none
  else some pa

/-- The same for several addresses. -/
def State.targets (s : State) (change : Bool) : List Nat → Option (List Nat)
  | [] => some []
  | a :: t => match s.target a change, s.targets change t with
    | some b, some r => some (b :: r)
    | _, _ => none

/-- The address whose guard marks, tracker count and earlier atomics an access meets: through the own window, that of the local byte. -/
def State.home (s : State) (pa : Nat) : Nat := (s.target pa false).getD pa

/-! ### Guards (R164) -/

/-- The first touched byte of `[a, a + n)` in a marked granule, as TRAPINFO of GUARD; `a` may be a peer address of the own package. -/
def State.guardTouch (s : State) (a n : Nat) : Option Word :=
  let pa := s.home a
  match scratchCore pa with
  | none => none
  | some c =>
      let k := s.core c
      let off := pa - (scratchBase + c * scratchSize)
      let g0 := off / 256
      let g1 := (off + n - 1) / 256
      let gs := (List.range (g1 + 1 - g0)).filter fun i => SMap.get false k.guards (g0 + i)
      match gs with
      | [] => none
      | i :: _ =>
          let o := max off ((g0 + i) * 256)
          some (BitVec.ofNat 64 (o / 64 % 32 * 2 ^ 56 + (c * scratchSize + o) % 2 ^ 32))

/-- Count an access to `[a, a + n)` for the hot-page tracker (R295): once for each frame with AT = 1 that it touches. -/
def State.hit (s : State) (a n : Nat) : State :=
  let pa := s.home a
  let fs := (List.range ((pa % 65536 + n + 65535) / 65536)).map fun i => pa / 65536 + i
  let new := fs.filter fun f => viaDit (f * 65536) && (s.ditEntry f).autoTier && !s.hitSeen.contains f
  if new.isEmpty then s
  else { s with hits := new.foldl (fun m f => SMap.set 0 m f (min 65535 (SMap.get 0 m f + 1))) s.hits,
                hitSeen := s.hitSeen ++ new }

/-! ### Atomics at their unit (R149) -/

/-- The operations of the atomic family (Table 7-9). -/
inductive AtomFn where
  | add | min | max | minu | maxu | and | or | xor | swp | cas | fadd
  deriving DecidableEq, Repr

/-- The code of an operation (Table 7-9). -/
def AtomFn.code : AtomFn → Nat
  | .add => 0 | .min => 1 | .max => 2 | .minu => 3 | .maxu => 4 | .and => 5 | .or => 6 | .xor => 7 | .swp => 8
  | .cas => 9 | .fadd => 10

/-- The operation of a code. -/
def AtomFn.ofCode : Nat → AtomFn
  | 0 => .add | 1 => .min | 2 => .max | 3 => .minu | 4 => .maxu | 5 => .and | 6 => .or | 7 => .xor | 8 => .swp
  | 9 => .cas | _ => .fadd

/-- The new value of an n-byte location (R149): `v` is the operand and `ex` the expected value. -/
def atomNew (f : AtomFn) (n old v ex : Nat) : Nat :=
  let w := 8 * n
  let v := v % 2 ^ w
  match f with
  | .add => (old + v) % 2 ^ w
  | .min => if intVal true w v < intVal true w old then v else old
  | .max => if intVal true w old < intVal true w v then v else old
  | .minu => Nat.min old v
  | .maxu => Nat.max old v
  | .and => old &&& v
  | .or => old ||| v
  | .xor => old ^^^ v
  | .swp => v
  | .cas => if old = ex % 2 ^ w then v else old
  | .fadd =>
      let fm := if n = 4 then Fmt.fp32 else Fmt.fp64
      (fm.ofVal .rne ((fm.value old).add false (fm.value v))).1

/-- Perform an atomic at an address: the state and the old value (R149). -/
def State.atomAt (s : State) (f : AtomFn) (pa n v ex : Nat) : State × Nat :=
  let old := s.readN pa n
  (s.writeN pa n (atomNew f n old v ex), old)

/-- A posted atomic message with these operands (ATOMIC_MESSAGE_ARRIVAL) is performed and acknowledged. -/
def State.landPosted (s : State) (a : EvArgs) : State :=
  (s.atomAt (AtomFn.ofCode (a.nat 4)) (a.nat 3) (a.nat 5) (a.nat 6) (a.nat 7)).1.modCluster (a.nat 0) (a.nat 1) fun c =>
    { c with posted := c.posted.filter fun p => decide (p.id ≠ a.nat 10) }

/-- Whether a step due is a posted atomic message of the cluster under way. -/
def State.mineMessage (s : State) (d : Due) : Bool :=
  decide (d.row = .atomicMessageArrival) && decide (d.args.nat 0 = s.curCore ∧ d.args.nat 1 = s.curCl ∧ d.args.nat 8 = 0)

/-- Whether a step due is a posted atomic message of the cluster under way that reaches into `[pa, pa + n)`. -/
def State.ownMessage (s : State) (pa n : Nat) (d : Due) : Bool :=
  s.mineMessage d && decide (s.home (d.args.nat 3) < s.home pa + n ∧ s.home pa < s.home (d.args.nat 3) + d.args.nat 5)

/-- Steps due of a kind fall due in this cycle. -/
def State.hasten (s : State) (f : Due → Bool) : State :=
  if s.agenda.any f then
    { s with agenda := (s.agenda.filter f).map (fun d => { d with cycle := s.cycle }) ++ s.agenda.filter fun d => !f d }
  else s

/-- The cluster's own posted atomic messages arrive in this cycle, in the order of R165: what an instruction with release semantics
asks for, before any other party can see its own effect from the next cycle on (R133, R143, R152, R153, R217; log entry 6). -/
def State.landMine (s : State) : State := s.hasten s.mineMessage

/-- The cluster's own earlier atomic messages to the bytes of an access arrive in this cycle; the access follows them (R256, R151). -/
def State.landOwn (s : State) (pa n : Nat) : State := s.hasten (s.ownMessage pa n)

/-- Whether an access of the cluster under way to bytes by offset must follow atomic messages of its own. -/
def State.behind (s : State) (pa : Nat) (offs : List Nat) : Bool :=
  s.agenda.any s.mineMessage && offs.any fun o => s.agenda.any (s.ownMessage (pa + o) 1)

/-- An access of the cluster under way touches `[pa, pa + n)`: its own earlier atomics to those bytes come first, the
tracker counts it, and of marked granules only the first touch since the last report is kept. -/
def State.touch (s : State) (pa n : Nat) : State :=
  let s := (s.landOwn pa n).hit pa n
  match s.me.guardRep, s.guardTouch pa n with
  | none, some w => s.modMe fun c => { c with guardRep := some w }
  | _, _ => s

/-- An access to `[a, a + n)` reaches its memory: its bursts at the pseudo-channels; through the own window, those of the local bytes. -/
def State.traffic (s : State) (a n : Nat) (k : Traffic) : State := s.bursts (s.home a) n k

/-- A data access of the cluster under way: what it touches, and its bursts. -/
def State.reach (s : State) (pa n : Nat) (k : Traffic) : State := (s.touch pa n).traffic pa n k

/-! ### Reading and storing data -/

/-- A byte as the cluster sees it on a DT page: its own newest buffered store, else the committed byte (R253). -/
def dtByte (buf : List DtStore) (pa : Nat) (b : Byte) : Byte :=
  buf.foldl (fun acc d => if d.pa ≤ pa ∧ pa < d.pa + d.size then SMap.get acc d.cells (pa - d.pa) else acc) b

/-- `n` bytes at `pa` as the cluster under way sees them. -/
def State.view (s : State) (pa n : Nat) : List Byte :=
  let buf := s.me.dtBuf
  if buf.isEmpty then s.bytes pa n
  else (List.range n).map fun i => dtByte buf (pa + i) (s.byte (pa + i))

/-- The device-physical address of the same aperture offset of another package (Table 17-1). -/
def peerAddr (pkg pa : Nat) : Nat := 2 ^ 51 + pkg * 2 ^ 39 + pa % 2 ^ 39

/-- Where an access to a mirrored page is performed (R341): every copy for a store, one for a load; PROT with no pair,
MIRRFAIL with both copies lost. -/
def mirrorDest (m : List MirrorPair) (pa : Nat) (load : Bool) : Except Nat (List Nat) :=
  match m.find? fun p => decide (p.primary = fld pa 39 12) with
  | none => .error cPROT
  | some p =>
      match p.lostP, p.lostS with
      | true, true => .error cMIRRFAIL
      | true, false => .ok [peerAddr p.secondary pa]
      | false, true => .ok [pa]
      | false, false => .ok (if load then [pa] else [pa, peerAddr p.secondary pa])

/-- The addresses at which an access of the cluster under way is performed, or the cause of its failure (R244, R341). -/
def State.dest (s : State) (t : TlbEntry) (pa : Nat) (load : Bool) : Except Nat (List Nat) :=
  if pteM t.ent then
    match mirrorDest (SMap.get [] s.mirrors s.myCore.vifn.toNat) pa load with
    | .ok as => (match s.targets (!load) as with | some l => .ok l | none => .error cPROT)
    | .error c => .error c
  else match s.target pa (!load) with
    | some a => .ok [a]
    | none => .error cPROT

/-! ### Packets (R336) -/

/-- The traffic class of an interface (R347). -/
def State.classOf (s : State) (v : Nat) : Nat := (SMap.get Vif.reset s.vifs v).tclass

/-- A packet enters the mesh at a router, on its way to the fabric router of its die, with the next sequence number of the die. -/
def State.inject (s : State) (owner : Owner) (place : Nat) (r : PeerReq) : State :=
  let q := SMap.get 0 s.seqs r.die
  let p : Packet :=
    { id := s.nextId, req := { r with id := s.nextId, src := s.pkg, seq := q }, age := 0, die := r.die, owner := owner, escape := false,
      atSwitch := false, place := place % 256, goal := Config.meshSpot (unitEgress r.die) % 256, port := none }
  { s with nextId := s.nextId + 1, seqs := SMap.set 0 s.seqs r.die ((q + 1) % 65536), packets := s.packets ++ [p] }

/-- The egress of the die of a party sends an access to a peer address. -/
def State.sendTo (s : State) (owner : Owner) (core party ent a : Nat) (sync : Bool) (op : PeerOp) : State :=
  s.inject owner (Config.meshSpot party)
    { id := 0, src := 0, dst := fld a 39 12, aperture := a % 2 ^ 39, op := op, die := coreDie core, party := party,
      dstDie := a / 2 ^ 36 % 8 % 6, kind := pteKind ent, cls := s.classOf (s.core core).vifn.toNat, sync := sync }

/-- What an access of the cluster under way, performed at these addresses, sends to other packages. -/
def State.sendAll (s : State) (ent : Nat) (as : List Nat) (op : PeerOp) : State :=
  (as.filter fun a => decide (memKind a = some .peer)).foldl (fun (s : State) a =>
    s.sendTo .none s.curCore (unitCore s.curCore) ent a false op) s

/-- Whether a package has a link that is up, in a dimension in which packages follow one another: with none left no route is (R339). -/
def State.routed (s : State) : Bool :=
  (List.range 6).any fun d => !s.linksDown.contains d && decide ((match d / 2 with | 0 => s.torus.1 | 1 => s.torus.2.1 | _ => s.torus.2.2) ≠ 0)

/-- The 2^19 cycles in which an access that has left the egress must be answered (R339); with no route left it has lost its peer at
once. The operands are those of PEER_TIMEOUT. -/
def State.awaitPeer (s : State) (l : List Nat) : State :=
  s.schedule (if s.routed then s.cycle + 2 ^ 19 else s.cycle) .peerTimeout (.nats l)

/-- The response to an access of another package: a failure, or 0, and what was read. -/
def State.respond (s : State) (r : PeerReq) (fail bytes data : Nat) : State :=
  if r.src = s.pkg ∨ s.inTorus r.src = false then s
  else
    s.inject .none (Config.meshSpot (unitEgress r.dstDie))
      { id := 0, src := 0, dst := r.src, aperture := r.aperture, op := .answer r.id fail bytes data, die := r.dstDie,
        party := unitEgress r.dstDie, dstDie := r.die, kind := r.kind, cls := r.cls }

/-- Bytes with their offsets. -/
def enumBytes (bs : List Byte) : List (Nat × Byte) := (List.range bs.length).zip bs

/-- Store bytes by offset from an address. -/
def State.setCells (s : State) (pa : Nat) (cells : List (Nat × Byte)) : State :=
  cells.foldl (fun s c => s.setByte (pa + c.1) c.2) s

/-- Store bytes at every address of a list. -/
def State.storeAll (s : State) (as : List Nat) (cells : List (Nat × Byte)) : State :=
  as.foldl (fun s a => s.setCells a cells) s

/-- The requests that carry a store of bytes by offset to a peer address: one for consecutive bytes, else one for each. -/
def storeReqs (a : Nat) (cells : List (Nat × Byte)) : List (Nat × PeerOp) :=
  let lo := (cells.map fun (c : Nat × Byte) => c.1).headD 0
  if (cells.map fun (c : Nat × Byte) => c.1) = (List.range cells.length).map fun i => lo + i then
    [(a + lo, .store cells.length (leNat (cells.map fun (c : Nat × Byte) => c.2)))]
  else cells.map fun (c : Nat × Byte) => (a + c.1, .store 1 c.2.toNat)

/-- A posted access of the cluster under way (R126, R132): its stores are performed at once, or in this cycle behind the cluster's own
atomics to its bytes; outside the own scratchpad its acknowledgement, with any failure to report, comes after an open time, and what
goes to another package leaves by the egress. -/
def State.postAs (s : State) (t : TlbEntry) (pa : Nat) (cells : List (Nat × Byte)) (ea : Word) (reqs : Nat → List (Nat × PeerOp))
    (sync : Bool := false) : State :=
  if s.own pa then s.setCells pa cells
  else
    let r := s.dest t pa false
    let fail := match r with | .error c => c | .ok _ => 0
    let s : State := match r with
      | .ok as =>
          if s.behind pa (cells.map fun (c : Nat × Byte) => c.1) then { s with after := s.after ++ [After.store as cells] }
          else s.storeAll as cells
      | .error _ => s
    let id := s.nextId
    let s := { s with nextId := id + 1 }
    let out := match r with | .ok as => (as.filter fun a => decide (memKind a = some .peer)).flatMap reqs | .error _ => []
    let p : Posted :=
      { id := id, ea := ea, fail := fail, so := decide (pteKind t.ent = 1), mirrored := pteM t.ent, sync := sync, out := out }
    let s := s.modMe fun c => { c with posted := c.posted ++ [p] }
    s.scheduleOpen 1 .postedStoreAck (.nats [s.curCore, s.curCl, id])

/-- A posted store; `sync` says that it has release semantics. -/
def State.post (s : State) (t : TlbEntry) (pa : Nat) (cells : List (Nat × Byte)) (ea : Word) (sync : Bool := false) : State :=
  s.postAs t pa cells ea (fun a => storeReqs a cells) sync

end Sys2Proof.Machine
end

