-- ==== Sys2Proof/Machine/Operands.lean ====
section
/-!
DEFINITION. Operand forms: immediates and literals, effective addresses, counter references, effective rounding modes,
and the value positions of tile columns.
-/

namespace Sys2Proof.Machine

/-! ### Scalar operands -/

/-- sext(imm12, 12) (R78). -/
def immS (i : BitVec 12) : Word := i.signExtend 64

/-- zext(imm12, 12) (R78). -/
def immZ (i : BitVec 12) : Word := i.zeroExtend 64

/-- zext(imm12[5:0], 6) (R128). -/
def immU6 (i : BitVec 6) : Word := i.zeroExtend 64

/-- sext(lit32, 32) (R129). -/
def litS (l : BitVec 32) : Word := l.signExtend 64

/-- The effective address of loads, stores, LDA, STL and LDQ (R125). -/
def State.ea (s : State) (ra : BitVec 5) (imm : BitVec 12) : Word := s.x ra + immS imm

/-- PC + 4 × sext(off, n) (R78). -/
def State.branchTarget (s : State) {n : Nat} (off : BitVec n) : Word := s.me.pc + 4 * off.signExtend 64

/-- A number as a word. -/
def w64 (n : Nat) : Word := BitVec.ofNat 64 n

/-- 1 or 0. -/
def boolW (b : Bool) : Word := if b then 1 else 0

/-! ### Gangs -/

/-- The number of cores of the own gang (R33). -/
def Core.gangSize (k : Core) : Nat := k.aCores.toNat + k.fCores.toNat

/-- The physical core of a rank of the gang of a node (R34): the listed core of that node with that rank. -/
def State.rankIn (s : State) (node : Option Nat) (rank : Nat) : Option Nat :=
  (s.cores.find? fun e => decide (e.2.node.isSome) && decide (e.2.node = node) && decide (e.2.grank.toNat = rank)).map
    fun e => e.1

/-- The physical core of a rank of the own gang. -/
def State.rankCore (s : State) (rank : Nat) : Option Nat := s.rankIn s.myCore.node rank

/-! ### Effective rounding (R111) -/

/-- The mode of STATUS[7:5]; 0b111 reads as RNE. -/
def rndOfStatus (r : BitVec 3) : Rnd := match Rnd.ofCode r.toNat with | .dyn => .rne | m => m

/-- The effective mode of a rounding field under a STATUS field. -/
def effRnd (m : Rnd) (st : BitVec 3) : Rnd := match m with | .dyn => rndOfStatus st | m => m

/-! ### Value positions (R106, R167) -/

/-- The pattern of value `v` of a column, from the elements of its 16 rows. -/
def posBits (w : Nat) (col : List Elem) (v : Nat) : Nat :=
  if w = 64 then (col.getD (2 * v) 0).toNat + 2 ^ 32 * (col.getD (2 * v + 1) 0).toNat
  else
    let per := 32 / w
    (col.getD (v / per) 0).toNat / 2 ^ (w * (v % per)) % 2 ^ w

/-- The 16 rows of a column from the patterns of its value positions, `f v` for `v`. -/
def packCol (w : Nat) (f : Nat → Nat) : List Elem :=
  (List.range 16).map fun r =>
    if w = 64 then BitVec.ofNat 32 (f (r / 2) / 2 ^ (32 * (r % 2)))
    else
      let per := 32 / w
      BitVec.ofNat 32 (((List.range per).map fun m => f (r * per + m) % 2 ^ w * 2 ^ (w * m)).foldl (· + ·) 0)

/-- The sub-element of a value position, for the random bits of R171. -/
def subElem (w v : Nat) : Nat := if 32 ≤ w then 0 else v % (32 / w)

/-- Column `j` of T[t], row by row. -/
def Core.column (k : Core) (t j : Nat) : List Elem := (List.range 16).map fun r => k.tile t r j

end Sys2Proof.Machine
end

