-- ==== Sys2Proof/Machine/Alu.lean ====
section
/-!
DEFINITION. The integer and logic instructions: registers (R127), immediates (R128) and literals (R129).
-/

namespace Sys2Proof.Machine

/-- Signed quotient (R107, R127). -/
def divS (a b : Word) : Word :=
  if b = 0 then BitVec.allOnes 64
  else if a = BitVec.ofNat 64 (2 ^ 63) ∧ b = BitVec.allOnes 64 then a
  else BitVec.ofInt 64 (a.toInt.tdiv b.toInt)

/-- Signed remainder (R107, R127). -/
def remS (a b : Word) : Word :=
  if b = 0 then a
  else if a = BitVec.ofNat 64 (2 ^ 63) ∧ b = BitVec.allOnes 64 then 0
  else BitVec.ofInt 64 (a.toInt.tmod b.toInt)

/-- Leading zeros of a value below `2^n`. -/
def clzN : Nat → Nat → Nat
  | 0, _ => 0
  | n + 1, v => if 2 ^ n ≤ v then 0 else 1 + clzN n v

/-- Set bits among the low `n`. -/
def popN : Nat → Nat → Nat
  | 0, _ => 0
  | n + 1, v => v % 2 + popN n (v / 2)

/-- A result of latency `l` in X[rd]. -/
def toX (l : Nat) (rd : BitVec 5) (v : Word) (s : State) : Res := .done (s.resultX l rd v)

/-- ADD of Table 11-1. -/
def aluAdd (a b : Word) : Word := a + b

/-- SUB of Table 11-1. -/
def aluSub (a b : Word) : Word := a - b

/-- AND of Table 11-1. -/
def aluAnd (a b : Word) : Word := a &&& b

/-- OR of Table 11-1. -/
def aluOr (a b : Word) : Word := a ||| b

/-- XOR of Table 11-1. -/
def aluXor (a b : Word) : Word := a ^^^ b

/-- SHL of Table 11-1. -/
def aluShl (a b : Word) : Word := a <<< (b.toNat % 64)

/-- SHR of Table 11-1. -/
def aluShr (a b : Word) : Word := a >>> (b.toNat % 64)

/-- SAR of Table 11-1. -/
def aluSar (a b : Word) : Word := a.sshiftRight (b.toNat % 64)

/-- MIN of Table 11-1. -/
def aluMin (a b : Word) : Word := if b.slt a then b else a

/-- MAX of Table 11-1. -/
def aluMax (a b : Word) : Word := if a.slt b then b else a

/-- MINU of Table 11-1. -/
def aluMinu (a b : Word) : Word := if b < a then b else a

/-- MAXU of Table 11-1. -/
def aluMaxu (a b : Word) : Word := if a < b then b else a

/-- SEQ of Table 11-1. -/
def aluSeq (a b : Word) : Word := boolW (decide (a = b))

/-- SNE of Table 11-1. -/
def aluSne (a b : Word) : Word := boolW (decide (a ≠ b))

/-- SLT of Table 11-1. -/
def aluSlt (a b : Word) : Word := boolW (a.slt b)

/-- SLTU of Table 11-1. -/
def aluSltu (a b : Word) : Word := boolW (decide (a < b))

/-- SGE of Table 11-1. -/
def aluSge (a b : Word) : Word := boolW (!a.slt b)

/-- SGEU of Table 11-1. -/
def aluSgeu (a b : Word) : Word := boolW (!decide (a < b))

/-- MUL of Table 11-1. -/
def aluMul (a b : Word) : Word := a * b

/-- MULH of Table 11-1. -/
def aluMulh (a b : Word) : Word := BitVec.ofInt 64 (a.toInt * b.toInt / 2 ^ 64)

/-- MULHU of Table 11-1. -/
def aluMulhu (a b : Word) : Word := w64 (a.toNat * b.toNat / 2 ^ 64)

/-- DIV of Table 11-1. -/
def aluDiv (a b : Word) : Word := divS a b

/-- DIVU of Table 11-1. -/
def aluDivu (a b : Word) : Word := if b = 0 then BitVec.allOnes 64 else w64 (a.toNat / b.toNat)

/-- REM of Table 11-1. -/
def aluRem (a b : Word) : Word := remS a b

/-- REMU of Table 11-1. -/
def aluRemu (a b : Word) : Word := if b = 0 then a else w64 (a.toNat % b.toNat)

/-- LEA_X1 of Table 11-1. -/
def aluLeaX1 (a b : Word) : Word := a + b

/-- LEA_X2 of Table 11-1. -/
def aluLeaX2 (a b : Word) : Word := a + b * 2

/-- LEA_X4 of Table 11-1. -/
def aluLeaX4 (a b : Word) : Word := a + b * 4

/-- LEA_X8 of Table 11-1. -/
def aluLeaX8 (a b : Word) : Word := a + b * 8

/-- ADD (R127), latency 1. -/
def bodyAdd (o : Reg3) (s : State) : Res :=
  toX 1 o.rd (aluAdd (s.x o.ra) (s.x o.rb)) s

/-- The step of ADD. -/
def execAdd (o : Reg3) (s : State) : Host.Outcome State Fault Refusal :=
  s.issue (.add o) (bodyAdd o)

/-- SUB (R127), latency 1. -/
def bodySub (o : Reg3) (s : State) : Res :=
  toX 1 o.rd (aluSub (s.x o.ra) (s.x o.rb)) s

/-- The step of SUB. -/
def execSub (o : Reg3) (s : State) : Host.Outcome State Fault Refusal :=
  s.issue (.sub o) (bodySub o)

/-- AND (R127), latency 1. -/
def bodyAnd (o : Reg3) (s : State) : Res :=
  toX 1 o.rd (aluAnd (s.x o.ra) (s.x o.rb)) s

/-- The step of AND. -/
def execAnd (o : Reg3) (s : State) : Host.Outcome State Fault Refusal :=
  s.issue (.and o) (bodyAnd o)

/-- OR (R127), latency 1. -/
def bodyOr (o : Reg3) (s : State) : Res :=
  toX 1 o.rd (aluOr (s.x o.ra) (s.x o.rb)) s

/-- The step of OR. -/
def execOr (o : Reg3) (s : State) : Host.Outcome State Fault Refusal :=
  s.issue (.or o) (bodyOr o)

/-- XOR (R127), latency 1. -/
def bodyXor (o : Reg3) (s : State) : Res :=
  toX 1 o.rd (aluXor (s.x o.ra) (s.x o.rb)) s

/-- The step of XOR. -/
def execXor (o : Reg3) (s : State) : Host.Outcome State Fault Refusal :=
  s.issue (.xor o) (bodyXor o)

/-- SHL (R127), latency 1. -/
def bodyShl (o : Reg3) (s : State) : Res :=
  toX 1 o.rd (aluShl (s.x o.ra) (s.x o.rb)) s

/-- The step of SHL. -/
def execShl (o : Reg3) (s : State) : Host.Outcome State Fault Refusal :=
  s.issue (.shl o) (bodyShl o)

/-- SHR (R127), latency 1. -/
def bodyShr (o : Reg3) (s : State) : Res :=
  toX 1 o.rd (aluShr (s.x o.ra) (s.x o.rb)) s

/-- The step of SHR. -/
def execShr (o : Reg3) (s : State) : Host.Outcome State Fault Refusal :=
  s.issue (.shr o) (bodyShr o)

/-- SAR (R127), latency 1. -/
def bodySar (o : Reg3) (s : State) : Res :=
  toX 1 o.rd (aluSar (s.x o.ra) (s.x o.rb)) s

/-- The step of SAR. -/
def execSar (o : Reg3) (s : State) : Host.Outcome State Fault Refusal :=
  s.issue (.sar o) (bodySar o)

/-- MIN (R127), latency 1. -/
def bodyMin (o : Reg3) (s : State) : Res :=
  toX 1 o.rd (aluMin (s.x o.ra) (s.x o.rb)) s

/-- The step of MIN. -/
def execMin (o : Reg3) (s : State) : Host.Outcome State Fault Refusal :=
  s.issue (.min o) (bodyMin o)

/-- MAX (R127), latency 1. -/
def bodyMax (o : Reg3) (s : State) : Res :=
  toX 1 o.rd (aluMax (s.x o.ra) (s.x o.rb)) s

/-- The step of MAX. -/
def execMax (o : Reg3) (s : State) : Host.Outcome State Fault Refusal :=
  s.issue (.max o) (bodyMax o)

/-- MINU (R127), latency 1. -/
def bodyMinu (o : Reg3) (s : State) : Res :=
  toX 1 o.rd (aluMinu (s.x o.ra) (s.x o.rb)) s

/-- The step of MINU. -/
def execMinu (o : Reg3) (s : State) : Host.Outcome State Fault Refusal :=
  s.issue (.minu o) (bodyMinu o)

/-- MAXU (R127), latency 1. -/
def bodyMaxu (o : Reg3) (s : State) : Res :=
  toX 1 o.rd (aluMaxu (s.x o.ra) (s.x o.rb)) s

/-- The step of MAXU. -/
def execMaxu (o : Reg3) (s : State) : Host.Outcome State Fault Refusal :=
  s.issue (.maxu o) (bodyMaxu o)

/-- SEQ (R127), latency 1. -/
def bodySeq (o : Reg3) (s : State) : Res :=
  toX 1 o.rd (aluSeq (s.x o.ra) (s.x o.rb)) s

/-- The step of SEQ. -/
def execSeq (o : Reg3) (s : State) : Host.Outcome State Fault Refusal :=
  s.issue (.seq o) (bodySeq o)

/-- SNE (R127), latency 1. -/
def bodySne (o : Reg3) (s : State) : Res :=
  toX 1 o.rd (aluSne (s.x o.ra) (s.x o.rb)) s

/-- The step of SNE. -/
def execSne (o : Reg3) (s : State) : Host.Outcome State Fault Refusal :=
  s.issue (.sne o) (bodySne o)

/-- SLT (R127), latency 1. -/
def bodySlt (o : Reg3) (s : State) : Res :=
  toX 1 o.rd (aluSlt (s.x o.ra) (s.x o.rb)) s

/-- The step of SLT. -/
def execSlt (o : Reg3) (s : State) : Host.Outcome State Fault Refusal :=
  s.issue (.slt o) (bodySlt o)

/-- SLTU (R127), latency 1. -/
def bodySltu (o : Reg3) (s : State) : Res :=
  toX 1 o.rd (aluSltu (s.x o.ra) (s.x o.rb)) s

/-- The step of SLTU. -/
def execSltu (o : Reg3) (s : State) : Host.Outcome State Fault Refusal :=
  s.issue (.sltu o) (bodySltu o)

/-- SGE (R127), latency 1. -/
def bodySge (o : Reg3) (s : State) : Res :=
  toX 1 o.rd (aluSge (s.x o.ra) (s.x o.rb)) s

/-- The step of SGE. -/
def execSge (o : Reg3) (s : State) : Host.Outcome State Fault Refusal :=
  s.issue (.sge o) (bodySge o)

/-- SGEU (R127), latency 1. -/
def bodySgeu (o : Reg3) (s : State) : Res :=
  toX 1 o.rd (aluSgeu (s.x o.ra) (s.x o.rb)) s

/-- The step of SGEU. -/
def execSgeu (o : Reg3) (s : State) : Host.Outcome State Fault Refusal :=
  s.issue (.sgeu o) (bodySgeu o)

/-- MUL (R127), latency 3. -/
def bodyMul (o : Reg3) (s : State) : Res :=
  toX 3 o.rd (aluMul (s.x o.ra) (s.x o.rb)) s

/-- The step of MUL. -/
def execMul (o : Reg3) (s : State) : Host.Outcome State Fault Refusal :=
  s.issue (.mul o) (bodyMul o)

/-- MULH (R127), latency 3. -/
def bodyMulh (o : Reg3) (s : State) : Res :=
  toX 3 o.rd (aluMulh (s.x o.ra) (s.x o.rb)) s

/-- The step of MULH. -/
def execMulh (o : Reg3) (s : State) : Host.Outcome State Fault Refusal :=
  s.issue (.mulh o) (bodyMulh o)

/-- MULHU (R127), latency 3. -/
def bodyMulhu (o : Reg3) (s : State) : Res :=
  toX 3 o.rd (aluMulhu (s.x o.ra) (s.x o.rb)) s

/-- The step of MULHU. -/
def execMulhu (o : Reg3) (s : State) : Host.Outcome State Fault Refusal :=
  s.issue (.mulhu o) (bodyMulhu o)

/-- DIV (R127), latency 18. -/
def bodyDiv (o : Reg3) (s : State) : Res :=
  toX 18 o.rd (aluDiv (s.x o.ra) (s.x o.rb)) s

/-- The step of DIV. -/
def execDiv (o : Reg3) (s : State) : Host.Outcome State Fault Refusal :=
  s.issue (.div o) (bodyDiv o)

/-- DIVU (R127), latency 18. -/
def bodyDivu (o : Reg3) (s : State) : Res :=
  toX 18 o.rd (aluDivu (s.x o.ra) (s.x o.rb)) s

/-- The step of DIVU. -/
def execDivu (o : Reg3) (s : State) : Host.Outcome State Fault Refusal :=
  s.issue (.divu o) (bodyDivu o)

/-- REM (R127), latency 18. -/
def bodyRem (o : Reg3) (s : State) : Res :=
  toX 18 o.rd (aluRem (s.x o.ra) (s.x o.rb)) s

/-- The step of REM. -/
def execRem (o : Reg3) (s : State) : Host.Outcome State Fault Refusal :=
  s.issue (.rem o) (bodyRem o)

/-- REMU (R127), latency 18. -/
def bodyRemu (o : Reg3) (s : State) : Res :=
  toX 18 o.rd (aluRemu (s.x o.ra) (s.x o.rb)) s

/-- The step of REMU. -/
def execRemu (o : Reg3) (s : State) : Host.Outcome State Fault Refusal :=
  s.issue (.remu o) (bodyRemu o)

/-- LEA_X1 (R127), latency 1. -/
def bodyLeaX1 (o : Reg3) (s : State) : Res :=
  toX 1 o.rd (aluLeaX1 (s.x o.ra) (s.x o.rb)) s

/-- The step of LEA_X1. -/
def execLeaX1 (o : Reg3) (s : State) : Host.Outcome State Fault Refusal :=
  s.issue (.leaX1 o) (bodyLeaX1 o)

/-- LEA_X2 (R127), latency 1. -/
def bodyLeaX2 (o : Reg3) (s : State) : Res :=
  toX 1 o.rd (aluLeaX2 (s.x o.ra) (s.x o.rb)) s

/-- The step of LEA_X2. -/
def execLeaX2 (o : Reg3) (s : State) : Host.Outcome State Fault Refusal :=
  s.issue (.leaX2 o) (bodyLeaX2 o)

/-- LEA_X4 (R127), latency 1. -/
def bodyLeaX4 (o : Reg3) (s : State) : Res :=
  toX 1 o.rd (aluLeaX4 (s.x o.ra) (s.x o.rb)) s

/-- The step of LEA_X4. -/
def execLeaX4 (o : Reg3) (s : State) : Host.Outcome State Fault Refusal :=
  s.issue (.leaX4 o) (bodyLeaX4 o)

/-- LEA_X8 (R127), latency 1. -/
def bodyLeaX8 (o : Reg3) (s : State) : Res :=
  toX 1 o.rd (aluLeaX8 (s.x o.ra) (s.x o.rb)) s

/-- The step of LEA_X8. -/
def execLeaX8 (o : Reg3) (s : State) : Host.Outcome State Fault Refusal :=
  s.issue (.leaX8 o) (bodyLeaX8 o)

/-- CLZ (R127). -/
def bodyClz (o : Reg2) (s : State) : Res :=
  toX 1 o.rd (w64 (clzN 64 (s.x o.ra).toNat)) s

/-- The step of CLZ. -/
def execClz (o : Reg2) (s : State) : Host.Outcome State Fault Refusal :=
  s.issue (.clz o) (bodyClz o)

/-- POPC (R127). -/
def bodyPopc (o : Reg2) (s : State) : Res :=
  toX 1 o.rd (w64 (popN 64 (s.x o.ra).toNat)) s

/-- The step of POPC. -/
def execPopc (o : Reg2) (s : State) : Host.Outcome State Fault Refusal :=
  s.issue (.popc o) (bodyPopc o)

/-- SEL reads X[rd] as its condition (R127). -/
def bodySel (o : Reg3) (s : State) : Res :=
  toX 1 o.rd (if s.x o.rd ≠ 0 then s.x o.ra else s.x o.rb) s

/-- The step of SEL. -/
def execSel (o : Reg3) (s : State) : Host.Outcome State Fault Refusal :=
  s.issue (.sel o) (bodySel o)

/-- ADDI (R128). -/
def bodyAddi (o : Imm) (s : State) : Res :=
  toX 1 o.rd (aluAdd (s.x o.ra) (immS o.imm)) s

/-- The step of ADDI. -/
def execAddi (o : Imm) (s : State) : Host.Outcome State Fault Refusal :=
  s.issue (.addi o) (bodyAddi o)

/-- SUBI (R128). -/
def bodySubi (o : Imm) (s : State) : Res :=
  toX 1 o.rd (aluSub (s.x o.ra) (immS o.imm)) s

/-- The step of SUBI. -/
def execSubi (o : Imm) (s : State) : Host.Outcome State Fault Refusal :=
  s.issue (.subi o) (bodySubi o)

/-- MULI (R128). -/
def bodyMuli (o : Imm) (s : State) : Res :=
  toX 3 o.rd (aluMul (s.x o.ra) (immS o.imm)) s

/-- The step of MULI. -/
def execMuli (o : Imm) (s : State) : Host.Outcome State Fault Refusal :=
  s.issue (.muli o) (bodyMuli o)

/-- DIVI (R128). -/
def bodyDivi (o : Imm) (s : State) : Res :=
  toX 18 o.rd (aluDiv (s.x o.ra) (immS o.imm)) s

/-- The step of DIVI. -/
def execDivi (o : Imm) (s : State) : Host.Outcome State Fault Refusal :=
  s.issue (.divi o) (bodyDivi o)

/-- REMI (R128). -/
def bodyRemi (o : Imm) (s : State) : Res :=
  toX 18 o.rd (aluRem (s.x o.ra) (immS o.imm)) s

/-- The step of REMI. -/
def execRemi (o : Imm) (s : State) : Host.Outcome State Fault Refusal :=
  s.issue (.remi o) (bodyRemi o)

/-- ANDI (R128). -/
def bodyAndi (o : Imm) (s : State) : Res :=
  toX 1 o.rd (aluAnd (s.x o.ra) (immZ o.imm)) s

/-- The step of ANDI. -/
def execAndi (o : Imm) (s : State) : Host.Outcome State Fault Refusal :=
  s.issue (.andi o) (bodyAndi o)

/-- ORI (R128). -/
def bodyOri (o : Imm) (s : State) : Res :=
  toX 1 o.rd (aluOr (s.x o.ra) (immZ o.imm)) s

/-- The step of ORI. -/
def execOri (o : Imm) (s : State) : Host.Outcome State Fault Refusal :=
  s.issue (.ori o) (bodyOri o)

/-- XORI (R128). -/
def bodyXori (o : Imm) (s : State) : Res :=
  toX 1 o.rd (aluXor (s.x o.ra) (immZ o.imm)) s

/-- The step of XORI. -/
def execXori (o : Imm) (s : State) : Host.Outcome State Fault Refusal :=
  s.issue (.xori o) (bodyXori o)

/-- SHLI (R128). -/
def bodyShli (o : ShImm) (s : State) : Res :=
  toX 1 o.rd (aluShl (s.x o.ra) (immU6 o.sh)) s

/-- The step of SHLI. -/
def execShli (o : ShImm) (s : State) : Host.Outcome State Fault Refusal :=
  s.issue (.shli o) (bodyShli o)

/-- SHRI (R128). -/
def bodyShri (o : ShImm) (s : State) : Res :=
  toX 1 o.rd (aluShr (s.x o.ra) (immU6 o.sh)) s

/-- The step of SHRI. -/
def execShri (o : ShImm) (s : State) : Host.Outcome State Fault Refusal :=
  s.issue (.shri o) (bodyShri o)

/-- SARI (R128). -/
def bodySari (o : ShImm) (s : State) : Res :=
  toX 1 o.rd (aluSar (s.x o.ra) (immU6 o.sh)) s

/-- The step of SARI. -/
def execSari (o : ShImm) (s : State) : Host.Outcome State Fault Refusal :=
  s.issue (.sari o) (bodySari o)

/-- SLTI (R128). -/
def bodySlti (o : Imm) (s : State) : Res :=
  toX 1 o.rd (aluSlt (s.x o.ra) (immS o.imm)) s

/-- The step of SLTI. -/
def execSlti (o : Imm) (s : State) : Host.Outcome State Fault Refusal :=
  s.issue (.slti o) (bodySlti o)

/-- SLTIU (R128). -/
def bodySltiu (o : Imm) (s : State) : Res :=
  toX 1 o.rd (aluSltu (s.x o.ra) (immS o.imm)) s

/-- The step of SLTIU. -/
def execSltiu (o : Imm) (s : State) : Host.Outcome State Fault Refusal :=
  s.issue (.sltiu o) (bodySltiu o)

/-- SEQI (R128). -/
def bodySeqi (o : Imm) (s : State) : Res :=
  toX 1 o.rd (aluSeq (s.x o.ra) (immS o.imm)) s

/-- The step of SEQI. -/
def execSeqi (o : Imm) (s : State) : Host.Outcome State Fault Refusal :=
  s.issue (.seqi o) (bodySeqi o)

/-- MINI (R128). -/
def bodyMini (o : Imm) (s : State) : Res :=
  toX 1 o.rd (aluMin (s.x o.ra) (immS o.imm)) s

/-- The step of MINI. -/
def execMini (o : Imm) (s : State) : Host.Outcome State Fault Refusal :=
  s.issue (.mini o) (bodyMini o)

/-- MAXI (R128). -/
def bodyMaxi (o : Imm) (s : State) : Res :=
  toX 1 o.rd (aluMax (s.x o.ra) (immS o.imm)) s

/-- The step of MAXI. -/
def execMaxi (o : Imm) (s : State) : Host.Outcome State Fault Refusal :=
  s.issue (.maxi o) (bodyMaxi o)

/-- LIT (R129). -/
def bodyLit (o : LitOps) (s : State) : Res :=
  toX 1 o.rd o.lit s

/-- The step of LIT. -/
def execLit (o : LitOps) (s : State) : Host.Outcome State Fault Refusal :=
  s.issue (.lit o) (bodyLit o)

/-- ADD_LIT (R129). -/
def bodyAddLit (o : SLit) (s : State) : Res :=
  toX 1 o.rd (aluAdd (s.x o.ra) (litS o.lit)) s

/-- The step of ADD_LIT. -/
def execAddLit (o : SLit) (s : State) : Host.Outcome State Fault Refusal :=
  s.issue (.addLit o) (bodyAddLit o)

/-- SUB_LIT (R129). -/
def bodySubLit (o : SLit) (s : State) : Res :=
  toX 1 o.rd (aluSub (s.x o.ra) (litS o.lit)) s

/-- The step of SUB_LIT. -/
def execSubLit (o : SLit) (s : State) : Host.Outcome State Fault Refusal :=
  s.issue (.subLit o) (bodySubLit o)

/-- AND_LIT (R129). -/
def bodyAndLit (o : SLit) (s : State) : Res :=
  toX 1 o.rd (aluAnd (s.x o.ra) (litS o.lit)) s

/-- The step of AND_LIT. -/
def execAndLit (o : SLit) (s : State) : Host.Outcome State Fault Refusal :=
  s.issue (.andLit o) (bodyAndLit o)

/-- OR_LIT (R129). -/
def bodyOrLit (o : SLit) (s : State) : Res :=
  toX 1 o.rd (aluOr (s.x o.ra) (litS o.lit)) s

/-- The step of OR_LIT. -/
def execOrLit (o : SLit) (s : State) : Host.Outcome State Fault Refusal :=
  s.issue (.orLit o) (bodyOrLit o)

/-- XOR_LIT (R129). -/
def bodyXorLit (o : SLit) (s : State) : Res :=
  toX 1 o.rd (aluXor (s.x o.ra) (litS o.lit)) s

/-- The step of XOR_LIT. -/
def execXorLit (o : SLit) (s : State) : Host.Outcome State Fault Refusal :=
  s.issue (.xorLit o) (bodyXorLit o)

/-- SHL_LIT (R129). -/
def bodyShlLit (o : SLit) (s : State) : Res :=
  toX 1 o.rd (aluShl (s.x o.ra) (litS o.lit)) s

/-- The step of SHL_LIT. -/
def execShlLit (o : SLit) (s : State) : Host.Outcome State Fault Refusal :=
  s.issue (.shlLit o) (bodyShlLit o)

/-- SHR_LIT (R129). -/
def bodyShrLit (o : SLit) (s : State) : Res :=
  toX 1 o.rd (aluShr (s.x o.ra) (litS o.lit)) s

/-- The step of SHR_LIT. -/
def execShrLit (o : SLit) (s : State) : Host.Outcome State Fault Refusal :=
  s.issue (.shrLit o) (bodyShrLit o)

/-- SAR_LIT (R129). -/
def bodySarLit (o : SLit) (s : State) : Res :=
  toX 1 o.rd (aluSar (s.x o.ra) (litS o.lit)) s

/-- The step of SAR_LIT. -/
def execSarLit (o : SLit) (s : State) : Host.Outcome State Fault Refusal :=
  s.issue (.sarLit o) (bodySarLit o)

/-- MIN_LIT (R129). -/
def bodyMinLit (o : SLit) (s : State) : Res :=
  toX 1 o.rd (aluMin (s.x o.ra) (litS o.lit)) s

/-- The step of MIN_LIT. -/
def execMinLit (o : SLit) (s : State) : Host.Outcome State Fault Refusal :=
  s.issue (.minLit o) (bodyMinLit o)

/-- MAX_LIT (R129). -/
def bodyMaxLit (o : SLit) (s : State) : Res :=
  toX 1 o.rd (aluMax (s.x o.ra) (litS o.lit)) s

/-- The step of MAX_LIT. -/
def execMaxLit (o : SLit) (s : State) : Host.Outcome State Fault Refusal :=
  s.issue (.maxLit o) (bodyMaxLit o)

/-- MINU_LIT (R129). -/
def bodyMinuLit (o : SLit) (s : State) : Res :=
  toX 1 o.rd (aluMinu (s.x o.ra) (litS o.lit)) s

/-- The step of MINU_LIT. -/
def execMinuLit (o : SLit) (s : State) : Host.Outcome State Fault Refusal :=
  s.issue (.minuLit o) (bodyMinuLit o)

/-- MAXU_LIT (R129). -/
def bodyMaxuLit (o : SLit) (s : State) : Res :=
  toX 1 o.rd (aluMaxu (s.x o.ra) (litS o.lit)) s

/-- The step of MAXU_LIT. -/
def execMaxuLit (o : SLit) (s : State) : Host.Outcome State Fault Refusal :=
  s.issue (.maxuLit o) (bodyMaxuLit o)

/-- SEQ_LIT (R129). -/
def bodySeqLit (o : SLit) (s : State) : Res :=
  toX 1 o.rd (aluSeq (s.x o.ra) (litS o.lit)) s

/-- The step of SEQ_LIT. -/
def execSeqLit (o : SLit) (s : State) : Host.Outcome State Fault Refusal :=
  s.issue (.seqLit o) (bodySeqLit o)

/-- SNE_LIT (R129). -/
def bodySneLit (o : SLit) (s : State) : Res :=
  toX 1 o.rd (aluSne (s.x o.ra) (litS o.lit)) s

/-- The step of SNE_LIT. -/
def execSneLit (o : SLit) (s : State) : Host.Outcome State Fault Refusal :=
  s.issue (.sneLit o) (bodySneLit o)

/-- SLT_LIT (R129). -/
def bodySltLit (o : SLit) (s : State) : Res :=
  toX 1 o.rd (aluSlt (s.x o.ra) (litS o.lit)) s

/-- The step of SLT_LIT. -/
def execSltLit (o : SLit) (s : State) : Host.Outcome State Fault Refusal :=
  s.issue (.sltLit o) (bodySltLit o)

/-- SLTU_LIT (R129). -/
def bodySltuLit (o : SLit) (s : State) : Res :=
  toX 1 o.rd (aluSltu (s.x o.ra) (litS o.lit)) s

/-- The step of SLTU_LIT. -/
def execSltuLit (o : SLit) (s : State) : Host.Outcome State Fault Refusal :=
  s.issue (.sltuLit o) (bodySltuLit o)

/-- SGE_LIT (R129). -/
def bodySgeLit (o : SLit) (s : State) : Res :=
  toX 1 o.rd (aluSge (s.x o.ra) (litS o.lit)) s

/-- The step of SGE_LIT. -/
def execSgeLit (o : SLit) (s : State) : Host.Outcome State Fault Refusal :=
  s.issue (.sgeLit o) (bodySgeLit o)

/-- SGEU_LIT (R129). -/
def bodySgeuLit (o : SLit) (s : State) : Res :=
  toX 1 o.rd (aluSgeu (s.x o.ra) (litS o.lit)) s

/-- The step of SGEU_LIT. -/
def execSgeuLit (o : SLit) (s : State) : Host.Outcome State Fault Refusal :=
  s.issue (.sgeuLit o) (bodySgeuLit o)

/-- MUL_LIT (R129). -/
def bodyMulLit (o : SLit) (s : State) : Res :=
  toX 3 o.rd (aluMul (s.x o.ra) (litS o.lit)) s

/-- The step of MUL_LIT. -/
def execMulLit (o : SLit) (s : State) : Host.Outcome State Fault Refusal :=
  s.issue (.mulLit o) (bodyMulLit o)

/-- MULH_LIT (R129). -/
def bodyMulhLit (o : SLit) (s : State) : Res :=
  toX 3 o.rd (aluMulh (s.x o.ra) (litS o.lit)) s

/-- The step of MULH_LIT. -/
def execMulhLit (o : SLit) (s : State) : Host.Outcome State Fault Refusal :=
  s.issue (.mulhLit o) (bodyMulhLit o)

/-- MULHU_LIT (R129). -/
def bodyMulhuLit (o : SLit) (s : State) : Res :=
  toX 3 o.rd (aluMulhu (s.x o.ra) (litS o.lit)) s

/-- The step of MULHU_LIT. -/
def execMulhuLit (o : SLit) (s : State) : Host.Outcome State Fault Refusal :=
  s.issue (.mulhuLit o) (bodyMulhuLit o)

/-- DIV_LIT (R129). -/
def bodyDivLit (o : SLit) (s : State) : Res :=
  toX 18 o.rd (aluDiv (s.x o.ra) (litS o.lit)) s

/-- The step of DIV_LIT. -/
def execDivLit (o : SLit) (s : State) : Host.Outcome State Fault Refusal :=
  s.issue (.divLit o) (bodyDivLit o)

/-- DIVU_LIT (R129). -/
def bodyDivuLit (o : SLit) (s : State) : Res :=
  toX 18 o.rd (aluDivu (s.x o.ra) (litS o.lit)) s

/-- The step of DIVU_LIT. -/
def execDivuLit (o : SLit) (s : State) : Host.Outcome State Fault Refusal :=
  s.issue (.divuLit o) (bodyDivuLit o)

/-- REM_LIT (R129). -/
def bodyRemLit (o : SLit) (s : State) : Res :=
  toX 18 o.rd (aluRem (s.x o.ra) (litS o.lit)) s

/-- The step of REM_LIT. -/
def execRemLit (o : SLit) (s : State) : Host.Outcome State Fault Refusal :=
  s.issue (.remLit o) (bodyRemLit o)

/-- REMU_LIT (R129). -/
def bodyRemuLit (o : SLit) (s : State) : Res :=
  toX 18 o.rd (aluRemu (s.x o.ra) (litS o.lit)) s

/-- The step of REMU_LIT. -/
def execRemuLit (o : SLit) (s : State) : Host.Outcome State Fault Refusal :=
  s.issue (.remuLit o) (bodyRemuLit o)

end Sys2Proof.Machine
end

