-- ==== Sys2Proof/Machine/LoadStore.lean ====
section
/-!
DEFINITION. Scalar loads and stores (R130-R133), LDQ (R134) and the queue instructions (R135, R64, R65).
-/

namespace Sys2Proof.Machine

/-- Extension of an n-byte value (Table 11-3). -/
def extend (signed : Bool) (n v : Nat) : Word := if signed then BitVec.ofInt 64 (intVal true (8 * n) v) else w64 v

/-- The wait of a blocking instruction that began in this cycle (R59). -/
def State.blocking (s : State) (i : Instr) (ea : Word) (vals : List Nat) : Hold :=
  { kind := .blocking, instr := i, ea := ea, vals := vals, since := s.cycle, sync := false }

/-- Schedule the completion of the blocking instruction under way: in `least` cycles at the earliest (R370). -/
def State.completeOpen (s : State) (least : Nat) : State :=
  s.scheduleOpen least .blockingCompletion (.nats [s.curCore, s.curCl, s.cycle])

/-- Schedule the completion of the blocking instruction under way with latency `l` of Table 5-2 (R59). -/
def State.completeIn (s : State) (l : Nat) : State :=
  s.schedule (s.cycle + l - 1) .blockingCompletion (.nats [s.curCore, s.curCl, s.cycle])

/-- A scalar load (R130, R131): from the own scratchpad with latency 6, otherwise blocking. The wait keeps the leaf
that was checked at issue. -/
def scalarLoad (i : Instr) (signed : Bool) (n : Nat) (o : Imm) (s : State) : Res :=
  let ea := s.ea o.ra o.imm
  match s.access .load n ea with
  | .error e => Res.denied e
  | .ok (s, t, pa) =>
      let s := s.reach pa n .read
      if s.own pa then .done (s.resultX 6 o.rd (extend signed n (leNat (s.view pa n))))
      else .hold (s.completeOpen 1) (s.blocking i ea [pa, n, signed.toNat, o.rd.toNat, t.ent])

/-- Completion of a scalar load that blocked: the value, or the precise failure of R132 and R244. -/
def loadDone (h : Hold) (s : State) : Except Nat State :=
  let pa := h.vals.getD 0 0
  let n := h.vals.getD 1 0
  let t : TlbEntry := { asid := 0, vbase := 0, size := 0, ent := h.vals.getD 4 0 }
  match s.dest t pa true with
  | .error c => .error c
  | .ok as =>
      let a := as.headD pa
      .ok (s.resultX 1 (BitVec.ofNat 5 (h.vals.getD 3 0)) (extend (decide (h.vals.getD 2 0 = 1)) n (leNat (s.view a n))))

/-- A scalar store (R130, R131): checks, then the DT buffer or memory. -/
def scalarStore (n : Nat) (o : Imm) (s : State) (sync : Bool := false) : Res :=
  let ea := s.ea o.ra o.imm
  match s.access .store n ea with
  | .error e => Res.denied e
  | .ok (s, t, pa) =>
      if pteC t.ent then .trap cCNTSTORE ea
      else
        let bs := enumBytes (leBytes n (s.x o.rd).toNat)
        if pteKind t.ent = 3 then
          if 128 ≤ s.me.dtBuf.length then .trap cDTOVF ea
          else .done ((s.touch pa n).modMe fun c => { c with dtBuf := c.dtBuf ++ [{ va := ea.toNat, pa := pa, size := n, cells := bs }] })
        else .done ((s.reach pa n .write).post t pa bs ea sync)

/-! ### Queue registers -/

/-- The entry `e` of Q[q]. -/
def Core.qEntry (k : Core) (q e : Nat) : QEntry := SMap.get .empty k.qent (8 * q + e)

/-- Replace an entry. -/
def Core.setQEntry (k : Core) (q e : Nat) (v : QEntry) : Core := { k with qent := SMap.set .empty k.qent (8 * q + e) v }

/-- The head entry of Q[q]. -/
def Core.qHead (k : Core) (q : Nat) : Nat := SMap.get 0 k.qhead q

/-- The number of entries not FREE (R65). -/
def Core.qCount (k : Core) (q : Nat) : Nat :=
  ((List.range 8).filter fun e => decide ((k.qEntry q e).st ≠ .free)).length

/-- The entry after the tail. -/
def Core.qTail (k : Core) (q : Nat) : Nat := (k.qHead q + k.qCount q) % 8

/-- Reserve the entry after the tail for a load from `addr` (Table 5-4). -/
def Core.qReserve (k : Core) (q : Nat) (addr : Word) : Core :=
  k.setQEntry q (k.qTail q) { st := .reserved, data := 0, addr := addr }

/-- Free the head entry; the head advances. -/
def Core.qDrop (k : Core) (q : Nat) : Core :=
  { k.setQEntry q (k.qHead q) .empty with qhead := SMap.set 0 k.qhead q ((k.qHead q + 1) % 8) }

/-- A pop (`drop`) or peek of Q[q] delivering its 256 bytes to `f` (Table 5-4, R65). TRAPINFO of QUNDER, and of QOVER, is 0 (DESIGN
CHOICE, log entry 81). -/
def queueRead (q : Nat) (drop : Bool) (f : Nat → State → Res) (s : State) : Res :=
  let k := s.myCore
  if k.qCount q = 0 then .trap cQUNDER 0
  else
    let e := k.qEntry q (k.qHead q)
    let s' := if drop then s.modMyCore fun k => k.qDrop q else s
    match e.st with
    | .filled => f e.data s'
    | .poisoned => .trapWith s' cMIRRFAIL e.addr
    | _ => .stall (.queue q)

/-- A push of 256 bytes into Q[q], FILLED at the end of the issue cycle (R65, R135). -/
def queueWrite (q data : Nat) (s : State) : Res :=
  let k := s.myCore
  if k.qCount q = 8 then .trap cQOVER 0
  else
    let e := k.qTail q
    .done ((s.modMyCore fun k => k.qReserve q 0).result 1 (.queue q e data))

/-- A queue result in X[rd], latency 2 (Table 11-4). -/
def toXq (rd : BitVec 5) (v : Word) (s : State) : Res := .done (s.resultX 2 rd v)

/-- An LDQ of other memory than the own scratchpad reads its 256 bytes and schedules their arrival, for cluster `cl` of core `n`. -/
def State.ldqRead (s : State) (n cl q e pa ent : Nat) : State :=
  let s' := { s with curCore := n, curCl := cl }
  let l : List Nat := match s'.dest { asid := 0, vbase := 0, size := 0, ent := ent } pa true with
    | .ok as => [1, leNat (s'.view (as.headD 0) 256)]
    | .error _ => [0, 0]
  s.scheduleOpen 1 .ldqFill (.nats ([n, q, e, pa, ent, cl] ++ l ++ [((s.core n).qEntry q e).addr.toNat, s.cycle]))

/-- The accesses that follow atomic messages of this cycle are performed (R256). -/
def State.performAfter (s : State) : State :=
  { s.after.foldl (fun (s : State) a =>
      match a with
      | .store as cells => s.storeAll as cells
      | .ldq n cl q e pa ent => s.ldqRead n cl q e pa ent) s with after := [] }

/-- LDQ (R134): of another memory than the own scratchpad the 256 bytes are read now, or in this cycle behind the cluster's own atomics
to them, and arrive later. -/
def bodyLdq (o : LdqOps) (s : State) : Res :=
  let ea := s.ea o.ra o.imm
  match s.access .load 256 ea with
  | .error e => Res.denied e
  | .ok (s, t, pa) =>
      let q := o.q.toNat
      let k := s.myCore
      if k.qCount q = 8 then .trap cQOVER 0
      else
        let e := k.qTail q
        let s := (s.reach pa 256 .read).modMyCore fun k => k.qReserve q ea
        if s.own pa then .done (s.result 8 (.queue q e (leNat (s.view pa 256))))
        else
          .done (if s.behind pa (List.range 256) then { s with after := s.after ++ [.ldq s.curCore s.curCl q e pa t.ent] }
            else s.ldqRead s.curCore s.curCl q e pa t.ent)

/-- The step of LDQ. -/
def execLdq (o : LdqOps) (s : State) : Host.Outcome State Fault Refusal := s.issue (.ldq o) (bodyLdq o)

/-- LDQ_FILL (R134, Table 5-4): the data that a remote LDQ read arrives and fills its entry, or its failure poisons it. The read
itself is performed at issue, before the cluster's later stores (R257). -/
def execLdqFill (s : State) : Host.Outcome State Fault Refusal :=
  let n := s.ev.nat 0
  let q := s.ev.nat 1
  let e := s.ev.nat 2
  let x := (s.core n).qEntry q e
  if x.st ≠ .reserved then .next s
  else
    .next (s.modCore n fun k => k.setQEntry q e
      (if s.ev.nat 6 = 1 then { x with st := .filled, data := s.ev.nat 7 } else { x with st := .poisoned }))

/-- LD_B (R130). -/
def bodyLdB (o : Imm) (s : State) : Res :=
  scalarLoad (.ldB o) true 1 o s

/-- The step of LD_B. -/
def execLdB (o : Imm) (s : State) : Host.Outcome State Fault Refusal :=
  s.issue (.ldB o) (bodyLdB o)

/-- LD_BU (R130). -/
def bodyLdBu (o : Imm) (s : State) : Res :=
  scalarLoad (.ldBu o) false 1 o s

/-- The step of LD_BU. -/
def execLdBu (o : Imm) (s : State) : Host.Outcome State Fault Refusal :=
  s.issue (.ldBu o) (bodyLdBu o)

/-- LD_H (R130). -/
def bodyLdH (o : Imm) (s : State) : Res :=
  scalarLoad (.ldH o) true 2 o s

/-- The step of LD_H. -/
def execLdH (o : Imm) (s : State) : Host.Outcome State Fault Refusal :=
  s.issue (.ldH o) (bodyLdH o)

/-- LD_HU (R130). -/
def bodyLdHu (o : Imm) (s : State) : Res :=
  scalarLoad (.ldHu o) false 2 o s

/-- The step of LD_HU. -/
def execLdHu (o : Imm) (s : State) : Host.Outcome State Fault Refusal :=
  s.issue (.ldHu o) (bodyLdHu o)

/-- LD_W (R130). -/
def bodyLdW (o : Imm) (s : State) : Res :=
  scalarLoad (.ldW o) true 4 o s

/-- The step of LD_W. -/
def execLdW (o : Imm) (s : State) : Host.Outcome State Fault Refusal :=
  s.issue (.ldW o) (bodyLdW o)

/-- LD_WU (R130). -/
def bodyLdWu (o : Imm) (s : State) : Res :=
  scalarLoad (.ldWu o) false 4 o s

/-- The step of LD_WU. -/
def execLdWu (o : Imm) (s : State) : Host.Outcome State Fault Refusal :=
  s.issue (.ldWu o) (bodyLdWu o)

/-- LD_D (R130). -/
def bodyLdD (o : Imm) (s : State) : Res :=
  scalarLoad (.ldD o) false 8 o s

/-- The step of LD_D. -/
def execLdD (o : Imm) (s : State) : Host.Outcome State Fault Refusal :=
  s.issue (.ldD o) (bodyLdD o)

/-- ST_B (R130). -/
def bodyStB (o : Imm) (s : State) : Res :=
  scalarStore 1 o s

/-- The step of ST_B. -/
def execStB (o : Imm) (s : State) : Host.Outcome State Fault Refusal :=
  s.issue (.stB o) (bodyStB o)

/-- ST_H (R130). -/
def bodyStH (o : Imm) (s : State) : Res :=
  scalarStore 2 o s

/-- The step of ST_H. -/
def execStH (o : Imm) (s : State) : Host.Outcome State Fault Refusal :=
  s.issue (.stH o) (bodyStH o)

/-- ST_W (R130). -/
def bodyStW (o : Imm) (s : State) : Res :=
  scalarStore 4 o s

/-- The step of ST_W. -/
def execStW (o : Imm) (s : State) : Host.Outcome State Fault Refusal :=
  s.issue (.stW o) (bodyStW o)

/-- ST_D (R130). -/
def bodyStD (o : Imm) (s : State) : Res :=
  scalarStore 8 o s

/-- The step of ST_D. -/
def execStD (o : Imm) (s : State) : Host.Outcome State Fault Refusal :=
  s.issue (.stD o) (bodyStD o)

/-- LDA: LD.D with acquire semantics (R133). Every access of the model is performed in one order, so the
ordering holds. -/
def bodyLda (o : Imm) (s : State) : Res :=
  scalarLoad (.lda o) false 8 o s

/-- The step of LDA. -/
def execLda (o : Imm) (s : State) : Host.Outcome State Fault Refusal :=
  s.issue (.lda o) (bodyLda o)

/-- STL: ST.D with release semantics (R133): the cluster's earlier atomic messages have been performed. -/
def bodyStl (o : Imm) (s : State) : Res :=
  scalarStore 8 o s.landMine true

/-- The step of STL. -/
def execStl (o : Imm) (s : State) : Host.Outcome State Fault Refusal :=
  s.issue (.stl o) (bodyStl o)

/-- QPOP (R135). -/
def bodyQpop (o : QRead) (s : State) : Res :=
  queueRead o.q.toNat true (fun d => toXq o.rd (w64 d)) s

/-- The step of QPOP. -/
def execQpop (o : QRead) (s : State) : Host.Outcome State Fault Refusal :=
  s.issue (.qpop o) (bodyQpop o)

/-- QPEEK (R135). -/
def bodyQpeek (o : QRead) (s : State) : Res :=
  queueRead o.q.toNat false (fun d => toXq o.rd (w64 d)) s

/-- The step of QPEEK. -/
def execQpeek (o : QRead) (s : State) : Host.Outcome State Fault Refusal :=
  s.issue (.qpeek o) (bodyQpeek o)

/-- QPUSH (R135). -/
def bodyQpush (o : QPushOps) (s : State) : Res :=
  queueWrite o.q.toNat (s.x o.rb).toNat s

/-- The step of QPUSH. -/
def execQpush (o : QPushOps) (s : State) : Host.Outcome State Fault Refusal :=
  s.issue (.qpush o) (bodyQpush o)

/-- QLEN (R135). -/
def bodyQlen (o : QRead) (s : State) : Res :=
  toXq o.rd (w64 (s.myCore.qCount o.q.toNat)) s

/-- The step of QLEN. -/
def execQlen (o : QRead) (s : State) : Host.Outcome State Fault Refusal :=
  s.issue (.qlen o) (bodyQlen o)

end Sys2Proof.Machine
end

