-- ==== Sys2Proof/Machine/Counter.lean ====
section
/-!
DEFINITION. Counters (R141-R146) and the taking of pending reports (R144, R147, R154, R164).
-/

namespace Sys2Proof.Machine

/-! ### Counters -/

/-- The value of a counter. -/
def State.ctrGet (s : State) : CtrName → Nat
  | .slot n k => (SMap.get 0 (s.core n).k k).toNat
  | .page pa _ => s.readN pa 8

/-- Set a counter. -/
def State.ctrSet (s : State) (c : CtrName) (v : Nat) : State :=
  match c with
  | .slot n k => s.modCore n fun q => { q with k := SMap.set 0 q.k k (w64 v) }
  | .page pa _ => s.writeN pa 8 v

/-- The counter that a held CWAIT waits on. -/
def Hold.ctr (h : Hold) : Option CtrName := match h.kind with | .cwait c => some c | _ => none

/-- Whether two names are one counter. -/
def CtrName.same : CtrName → CtrName → Bool
  | .slot n k, .slot m j => decide (n = m ∧ k = j)
  | .page p _, .page q _ => decide (p = q)
  | _, _ => false

/-- The counter that the head command of a queue of core `n` waits on: the slot of its header, or the one that a CWT names (R214, R238);
`va` resolves a page address for the core's engine. -/
def waitedOn (rankOf : Nat → Option Nat) (pageOf : Nat → Option Nat) (n : Nat) (c : QCmd) : Option CtrName :=
  match c.cmd.op with
  | .cwt (.own k) => some (.slot n k.toNat)
  | .cwt (.rank k r) => (rankOf r.toNat).map fun m => .slot m k.toNat
  | .cwt (.page a) => (pageOf (8 * a.toNat)).map fun pa => .page pa (8 * a.toNat)
  | _ => if c.cmd.h.waitEn then some (.slot n c.cmd.h.waitSlot.toNat) else none

/-- The device-physical address of a counter page's counter as the engine of core `n` sees it. -/
def State.enginePage (s : State) (n va : Nat) : Option Nat :=
  match s.check (unitEngine n) (s.core n).asid.toNat false .load va with
  | .ok t => if pteC t.ent then s.target (t.pa va) false else none
  | .error _ => none

/-- A counter that a core waits on has advanced: progress of that core (R51, R52). -/
def State.ctrProgress (s : State) (c : CtrName) : State :=
  { s with cores := s.cores.map fun e =>
      let waits := e.2.cl.any fun x => match x.2.hold? with
        | some h => (match h.ctr with | some d => d.same c | none => false)
        | none => false
      let heads := [e.2.loadQ, e.2.matQ, e.2.storeQ].any fun q => match q with
        | [] => false
        | h :: _ => (match waitedOn (s.rankIn e.2.node) (s.enginePage e.1) e.1 h with | some d => d.same c | none => false)
      let k := if waits then { e.2 with lastStep := s.cycle } else e.2
      (e.1, if heads then { k with progress := s.cycle, lastStep := s.cycle } else k) }

/-- The bursts of an access to a counter in a counter page. -/
def State.ctrTraffic (s : State) (c : CtrName) (k : Traffic) : State :=
  match c with
  | .slot _ _ => s
  | .page pa _ => s.traffic pa 8 k

/-- Add to a counter, saturating at 2^64 - 1 (R143): the state, and whether it saturated. -/
def State.ctrAdd (s : State) (c : CtrName) (a : Nat) : State × Bool :=
  let v := s.ctrGet c + a
  let past := decide (2 ^ 64 ≤ v)
  let s := (s.ctrTraffic c .update).ctrSet c (if past then 2 ^ 64 - 1 else v)
  (if a = 0 then s else s.ctrProgress c, past)

/-- The place of an add in the order of R146: engines by core and queue, lanes by die and lane, relay ports by die, the ingress, the
firmware. -/
def AddSrc.key : AddSrc → Nat
  | .engine core unit _ _ _ _ => 8 * core + unit
  | .lane die n _ => 2 ^ 16 + 8 * die + n
  | .port core _ => 2 ^ 17 + coreDie core
  | .silent firmware => 2 ^ 18 + firmware.toNat

/-- Insert an add after those of its place. -/
def insertAdd (a : AddReq) : List AddReq → List AddReq
  | [] => [a]
  | b :: t => if b.src.key ≤ a.src.key then b :: insertAdd a t else a :: b :: t

/-- A party that is no cluster makes an add in this cycle: it is applied in its place of the order of R146, behind the adds of the
clusters (log entry 72). -/
def State.queueAdd (s : State) (c : CtrName) (amount : Nat) (src : AddSrc) : State :=
  { s with adds := insertAdd { ctr := c, amount := amount, src := src } s.adds }

/-- TRAPINFO of CNTOVF (R143). -/
def ctrInfo (kind slot rank va : Nat) : Word :=
  if kind = 2 then w64 (2 * 2 ^ 62 + va % 2 ^ 48) else w64 (kind * 2 ^ 62 + rank * 2 ^ 16 + slot)

/-- The slot of a gang member (R142): PROT where the rank is at or above the gang size. -/
def State.rankSlot (s : State) (rank : Word) (k : Nat) : Except (Nat × Word) CtrName :=
  if s.myCore.gangSize ≤ rank.toNat then .error (cPROT, rank)
  else match s.rankCore rank.toNat with
    | some n => .ok (.slot n k)
    | none => .error (cPROT, rank)

/-- The checks of a counter in a counter page (R142): the state with the leaf cached, the leaf and the address. -/
def State.pageLeaf (s : State) (n : Need) (ea : Word) : Except (Nat × Word) (State × TlbEntry × Nat) :=
  match s.accessChecks n 8 ea with
  | .error e => .error e
  | .ok r => if pteC r.2.1.ent then .ok r else .error (cPROT, ea)

/-- The counter at a virtual address (R142): the state with the leaf cached, the counter and its leaf; PROT where a window of the own
package fails it (R244). -/
def State.pageCtr (s : State) (n : Need) (ea : Word) : Except (Nat × Word) (State × CtrName × TlbEntry) :=
  match s.pageLeaf n ea with
  | .error e => .error e
  | .ok (s, t, pa) => match s.target pa (decide (n ≠ .load)) with
    | some a => .ok (s, .page a ea.toNat, t)
    | none => .error (cPROT, ea)

/-- Keep the CNTOVF report of a remote add (R143); the first since the last report is kept. -/
def State.reportOvf (s : State) (past : Bool) (info : Word) : State :=
  if past then s.modMe fun c => { c with cntovfRep := match c.cntovfRep with | none => some info | r => r } else s

/-! ### Reports -/

/-- The first pending report in the order GUARD, CNTOVF, MIRRFAIL (R164): its cause, TRAPINFO and the cluster
without it. -/
def Cluster.report (c : Cluster) : Option (Nat × Word × Cluster) :=
  match c.guardRep, c.cntovfRep, c.mirrRep with
  | some w, _, _ => some (cGUARD, w, { c with guardRep := none })
  | none, some w, _ => some (cCNTOVF, w, { c with cntovfRep := none })
  | none, none, some r => some (r.1, r.2, { c with mirrRep := none })
  | none, none, none => none

/-- An instruction that takes pending reports first, one per issue (R144, R147, R154). -/
def withReports (body : State → Res) (s : State) : Res :=
  match s.me.report with
  | some (cause, info, c) => .trapWith (s.modMe fun _ => c) cause info
  | none => body s

/-! ### Meanings -/

/-- CADD of an own slot (R143), with release semantics as its other forms: on saturation CNTOVF follows the completion. -/
def bodyCadd (o : CntOwn) (s : State) : Res :=
  let r := s.landMine.ctrAdd (.slot s.curCore o.k.toNat) (s.x o.ra).toNat
  if r.2 then .trapAfter r.1 cCNTOVF (ctrInfo 0 o.k.toNat 0 0) else .done r.1

/-- CADD of a slot of a gang member. -/
def bodyCaddRemote (o : CntRemote) (s : State) : Res :=
  match s.rankSlot (s.x o.rb) o.k.toNat with
  | .error e => .trap e.1 e.2
  | .ok c =>
      let r := s.landMine.ctrAdd c (s.x o.ra).toNat
      .done (r.1.reportOvf r.2 (ctrInfo 1 o.k.toNat (s.x o.rb).toNat 0))

/-- CADD of a counter in a counter page; the add is posted, one in another package as an access through the egress, so that a window of the own package that fails is reported later (R244). -/
def bodyCaddPage (o : CntPage) (s : State) : Res :=
  match s.landMine.pageLeaf .store (s.x o.xk) with
  | .error e => .trap e.1 e.2
  | .ok (s, t, pa) => match s.target pa true with
    | some a =>
        let r := s.ctrAdd (.page a (s.x o.xk).toNat) (s.x o.ra).toNat
        let s := r.1.reportOvf r.2 (ctrInfo 2 0 0 (s.x o.xk).toNat)
        .done (if memKind a = some .peer then s.postAs t pa [] (s.x o.xk) (fun b => [(b, .ctrAdd (s.x o.ra).toNat)]) true else s)
    | none => .done (s.post t pa [] (s.x o.xk))

/-- The issue of a CWAIT on a resolved counter (Table 11-8). -/
def cwaitOn (i : Instr) (c : CtrName) (ea : Word) (ra rb : BitVec 5) (s : State) : Res :=
  let target := (s.x ra).toNat
  let timeout := (s.x rb).toNat
  if target ≤ s.ctrGet c then .done (s.resultX 1 ra 0)
  else .hold s { kind := .cwait c, instr := i, ea := ea, since := s.cycle, sync := false,
                 vals := [target, if timeout = 0 then 0 else s.cycle + timeout, ra.toNat] }

/-- CWAIT on an own slot (R144). -/
def bodyCwait (o : CWaitOwn) (s : State) : Res :=
  withReports (cwaitOn (.cwait o) (.slot s.curCore o.k.toNat) 0 o.ra o.rb) s

/-- CWAIT on a counter page (R144). Pending reports come before the checks of the page (DEDUCED, log entry 81). -/
def bodyCwaitPage (o : CWaitPage) (s : State) : Res :=
  withReports (fun s =>
    match s.pageCtr .load (s.x o.xk) with
    | .error e => .trap e.1 e.2
    | .ok (s, c, _) => cwaitOn (.cwaitPage o) c (s.x o.xk) o.ra o.rb s) s

/-- A result read from a counter at completion of a blocking CREAD. -/
def creadDone (h : Hold) (s : State) : State :=
  let c : CtrName := if h.vals.getD 0 0 = 0 then .slot (h.vals.getD 1 0) (h.vals.getD 2 0) else .page (h.vals.getD 1 0) 0
  (s.ctrTraffic c .read).resultX 1 (BitVec.ofNat 5 (h.vals.getD 3 0)) (w64 (s.ctrGet c))

/-- CREAD of an own slot (R145), latency 6. -/
def bodyCread (o : CntOwn) (s : State) : Res :=
  .done (s.resultX 6 o.ra (w64 (s.ctrGet (.slot s.curCore o.k.toNat))))

/-- CREAD of a slot of a gang member: blocking. -/
def bodyCreadRemote (o : CntRemote) (s : State) : Res :=
  match s.rankSlot (s.x o.rb) o.k.toNat with
  | .error e => .trap e.1 e.2
  | .ok (.slot n k) => .hold (s.completeOpen 1) (s.blocking (.creadRemote o) 0 [0, n, k, o.ra.toNat])
  | .ok (.page pa _) => .hold (s.completeOpen 1) (s.blocking (.creadRemote o) 0 [1, pa, 0, o.ra.toNat])

/-- CREAD of a counter page: blocking. -/
def bodyCreadPage (o : CntPage) (s : State) : Res :=
  match s.pageCtr .load (s.x o.xk) with
  | .error e => .trap e.1 e.2
  | .ok (s, .page pa _, t) => .hold (s.completeOpen 1) (s.blocking (.creadPage o) (s.x o.xk) [1, pa, 0, o.ra.toNat, t.ent])
  | .ok (s, .slot n k, _) => .hold (s.completeOpen 1) (s.blocking (.creadPage o) (s.x o.xk) [0, n, k, o.ra.toNat])

/-- CRST of an own slot (R146): it takes effect after every add of the cycle. -/
def bodyCrst (o : CntOwn) (s : State) : Res :=
  .done { s with crsts := s.crsts ++ [(.slot s.curCore o.k.toNat, s.x o.ra)] }

/-- CRST of a counter page. -/
def bodyCrstPage (o : CntPage) (s : State) : Res :=
  match s.pageCtr .store (s.x o.xk) with
  | .error e => .trap e.1 e.2
  | .ok (s, c, _) => .done { s with crsts := s.crsts ++ [(c, s.x o.ra)] }

/-- The step of CADD. -/
def execCadd (o : CntOwn) (s : State) : Host.Outcome State Fault Refusal := s.issue (.cadd o) (bodyCadd o)
/-- The step of CADD_REMOTE. -/
def execCaddRemote (o : CntRemote) (s : State) : Host.Outcome State Fault Refusal :=
  s.issue (.caddRemote o) (bodyCaddRemote o)
/-- The step of CADD_PAGE. -/
def execCaddPage (o : CntPage) (s : State) : Host.Outcome State Fault Refusal := s.issue (.caddPage o) (bodyCaddPage o)
/-- The step of CWAIT. -/
def execCwait (o : CWaitOwn) (s : State) : Host.Outcome State Fault Refusal := s.issue (.cwait o) (bodyCwait o)
/-- The step of CWAIT_PAGE. -/
def execCwaitPage (o : CWaitPage) (s : State) : Host.Outcome State Fault Refusal :=
  s.issue (.cwaitPage o) (bodyCwaitPage o)
/-- The step of CREAD. -/
def execCread (o : CntOwn) (s : State) : Host.Outcome State Fault Refusal := s.issue (.cread o) (bodyCread o)
/-- The step of CREAD_REMOTE. -/
def execCreadRemote (o : CntRemote) (s : State) : Host.Outcome State Fault Refusal :=
  s.issue (.creadRemote o) (bodyCreadRemote o)
/-- The step of CREAD_PAGE. -/
def execCreadPage (o : CntPage) (s : State) : Host.Outcome State Fault Refusal :=
  s.issue (.creadPage o) (bodyCreadPage o)
/-- The step of CRST. -/
def execCrst (o : CntOwn) (s : State) : Host.Outcome State Fault Refusal := s.issue (.crst o) (bodyCrst o)
/-- The step of CRST_PAGE. -/
def execCrstPage (o : CntPage) (s : State) : Host.Outcome State Fault Refusal := s.issue (.crstPage o) (bodyCrstPage o)

/-! ### Waiters (Table 11-8) -/

/-- Completion of a CWAIT of cluster `c` of core `n` with a status; nothing happens where it does not wait. -/
def State.endCwait (s : State) (n c : Nat) (status : Nat) : State :=
  match (s.cluster n c).hold? with
  | none => s
  | some h =>
      match h.kind with
      | .cwait _ | .unmapped _ _ =>
          let s := { s with curCore := n, curCl := c }
          (s.resultX 1 (BitVec.ofNat 5 (h.vals.getD 2 0)) (w64 status)).release h
      | _ => s

/-- Whether the CWAIT of a cluster observes its counter at the target. -/
def State.cwaitMet (s : State) (n c : Nat) : Bool :=
  match (s.cluster n c).hold? with
  | none => false
  | some h => match h.ctr with
    | none => false
    | some x => decide (h.vals.getD 0 0 ≤ s.ctrGet x)

/-- Whether the timeout of the CWAIT of a cluster has expired. -/
def State.cwaitLate (s : State) (n c : Nat) : Bool :=
  match (s.cluster n c).hold? with
  | none => false
  | some h => h.ctr.isSome && decide (h.vals.getD 1 0 ≠ 0) && decide (h.vals.getD 1 0 ≤ s.cycle)

/-- COUNTER_WAIT_SATISFIED (R144): status 0. -/
def execCounterWaitSatisfied (s : State) : Host.Outcome State Fault Refusal :=
  if s.cwaitMet (s.ev.nat 0) (s.ev.nat 1) then .next (s.endCwait (s.ev.nat 0) (s.ev.nat 1) 0) else .next s

/-- CWAIT_TIMEOUT (R144): status 1. -/
def execCwaitTimeout (s : State) : Host.Outcome State Fault Refusal :=
  if s.cwaitLate (s.ev.nat 0) (s.ev.nat 1) && !s.cwaitMet (s.ev.nat 0) (s.ev.nat 1) then
    .next (s.endCwait (s.ev.nat 0) (s.ev.nat 1) 1)
  else .next s

/-- The CRSTs of this cycle set their counters, in order. -/
def State.setCrsts (s : State) : State := s.crsts.foldl (fun (s : State) r => s.ctrSet r.1 r.2.toNat) s

/-- Whether a held CWAIT waits on a counter, or waited on it until an unmapping of this cycle, behind which a CRST comes first
(Table 11-8). -/
def Hold.resetBy (h : Hold) (c : CtrName) (cycle : Nat) : Bool :=
  match h.kind with
  | .cwait d => d.same c
  | .unmapped d _ => d.same c && decide (h.since = cycle)
  | _ => false

/-- The waiters that a CRST ends: cores and clusters. -/
def State.resetWaiters (s : State) (c : CtrName) : List (Nat × Nat) :=
  s.cores.flatMap fun e => e.2.cl.filterMap fun x =>
    match x.2.hold? with
    | some h => if h.resetBy c s.cycle then some (e.1, x.1) else none
    | none => none

/-- The CRSTs of this cycle, after every add: each sets its counter, and its waiters complete with status 2 (R146). The firmware's adds
that come later in the cycle are overwritten again at its end. -/
def State.applyCrsts (s : State) : State :=
  s.crsts.foldl (fun (s : State) r => (s.resetWaiters r.1).foldl (fun s w => s.endCwait w.1 w.2 2) s) s.setCrsts

end Sys2Proof.Machine
end

