-- ==== Sys2Proof/Machine/Atomic.lean ====
section
/-!
DEFINITION. Atomics (R149-R151, R165).
-/

namespace Sys2Proof.Machine

/-- Count an atomic to a frame whose leaf has AM = 1, by the issuing die (R263). -/
def State.countAtom (s : State) (am : Bool) (pa die : Nat) : State :=
  if am then
    let k := 8 * (pa / 65536) + die
    { s with atomCounts := SMap.set 0 s.atomCounts k (SMap.get 0 s.atomCounts k + 1) }
  else s

/-- An atomic instruction (R149, R150). On the own scratchpad it is performed at issue and completes with latency 6; on
another core's scratchpad it goes as a message; elsewhere it is performed at the owner when it completes. With rd = 0 it
is posted. TRAPINFO of its CNTSTORE and PROT is ea (DEDUCED, log entry 81). -/
def atomBody (f : AtomFn) (i : Instr) (o : AtomOps) (s : State) : Res :=
  let n := if o.dbl then 8 else 4
  let ea := s.x o.ra
  match s.access .atomic n ea with
  | .error e => Res.denied e
  | .ok (s, t, pa) =>
      if pteC t.ent then .trap cCNTSTORE ea
      else if pteKind t.ent = 3 || pteM t.ent || decide (memKind pa = some .host) then .trap cPROT ea
      else
        let v := (s.x o.rb).toNat
        let ex := (s.x o.rd).toNat
        let s := s.reach pa n .update
        let ret := decide (o.rd ≠ 0)
        if s.own pa then
          let r := s.atomAt f pa n v ex
          if ret then .hold (r.1.completeIn 6) (r.1.blocking i ea [0, r.2, o.rd.toNat]) else .done r.1
        else
          let am := pteAM t.ent
          let args := [s.curCore, s.curCl, s.cycle, pa, f.code, n, v, ex, o.rd.toNat, am.toNat, s.nextId, ea.toNat, t.ent]
          if ret then
            if (scratchCore pa).isSome then
              .hold (s.scheduleOpen 1 .atomicMessageArrival (.nats args)) (s.blocking i ea [1])
            else .hold (s.completeOpen 1) (s.blocking i ea (2 :: args))
          else if (scratchCore pa).isSome then
            let s := { s with nextId := s.nextId + 1 }
            let s := s.modMe fun c => { c with posted := c.posted ++ [{ id := s.nextId - 1, ea := ea, fail := 0, so := decide (pteKind t.ent = 1) }] }
            .done (s.scheduleOpen 1 .atomicMessageArrival (.nats args))
          else
            match s.target pa true with
            | none => .done (s.post t pa [] ea)
            | some a =>
                let s := (s.countAtom am pa (coreDie s.curCore)).atomAt f a n v ex
                .done (s.1.postAs t pa [] ea fun b => [(b, .atomic f.code n v ex)])

/-- Completion of a blocking atomic: its old value goes to X[rd]; a disabled window fails as PROT (R244). -/
def atomDone (h : Hold) (s : State) : Except Nat State :=
  match h.vals with
  | [0, old, rd] => .ok (s.resultX 1 (BitVec.ofNat 5 rd) (w64 old))
  | 2 :: args =>
      let g := fun i => args.getD i 0
      match s.target (g 3) true with
      | none => .error cPROT
      | some a =>
          let r := (s.countAtom (decide (g 9 = 1)) (g 3) (coreDie s.curCore)).atomAt (AtomFn.ofCode (g 4)) a (g 5) (g 6) (g 7)
          .ok (r.1.resultX 1 (BitVec.ofNat 5 (g 8)) (w64 r.2))
  | _ => .ok s

/-- ATOMIC_MESSAGE_ARRIVAL (R165): the owning bank unit performs a message of another core; its cluster, when it waits
for the value, receives it, and a posted one is acknowledged. -/
def execAtomicMessageArrival (s : State) : Host.Outcome State Fault Refusal :=
  let g := fun i => s.ev.nat i
  if g 8 = 0 then .next (s.landPosted s.ev)
  else
    let r := s.atomAt (AtomFn.ofCode (g 4)) (g 3) (g 5) (g 6) (g 7)
    let s := r.1
    match (s.cluster (g 0) (g 1)).hold? with
    | some h =>
        if h.since = g 2 ∧ h.kind = .blocking then
          let s := { s with curCore := g 0, curCl := g 1 }
          .next ((s.resultX 1 (BitVec.ofNat 5 (g 8)) (w64 r.2)).release h)
        else .next s
    | none => .next s

/-- AADD (R149). -/
def bodyAadd (o : AtomOps) (s : State) : Res := atomBody .add (.aadd o) o s

/-- The step of AADD. -/
def execAadd (o : AtomOps) (s : State) : Host.Outcome State Fault Refusal := s.issue (.aadd o) (bodyAadd o)

/-- AMIN (R149). -/
def bodyAmin (o : AtomOps) (s : State) : Res := atomBody .min (.amin o) o s

/-- The step of AMIN. -/
def execAmin (o : AtomOps) (s : State) : Host.Outcome State Fault Refusal := s.issue (.amin o) (bodyAmin o)

/-- AMAX (R149). -/
def bodyAmax (o : AtomOps) (s : State) : Res := atomBody .max (.amax o) o s

/-- The step of AMAX. -/
def execAmax (o : AtomOps) (s : State) : Host.Outcome State Fault Refusal := s.issue (.amax o) (bodyAmax o)

/-- AMINU (R149). -/
def bodyAminu (o : AtomOps) (s : State) : Res := atomBody .minu (.aminu o) o s

/-- The step of AMINU. -/
def execAminu (o : AtomOps) (s : State) : Host.Outcome State Fault Refusal := s.issue (.aminu o) (bodyAminu o)

/-- AMAXU (R149). -/
def bodyAmaxu (o : AtomOps) (s : State) : Res := atomBody .maxu (.amaxu o) o s

/-- The step of AMAXU. -/
def execAmaxu (o : AtomOps) (s : State) : Host.Outcome State Fault Refusal := s.issue (.amaxu o) (bodyAmaxu o)

/-- AAND (R149). -/
def bodyAand (o : AtomOps) (s : State) : Res := atomBody .and (.aand o) o s

/-- The step of AAND. -/
def execAand (o : AtomOps) (s : State) : Host.Outcome State Fault Refusal := s.issue (.aand o) (bodyAand o)

/-- AOR (R149). -/
def bodyAor (o : AtomOps) (s : State) : Res := atomBody .or (.aor o) o s

/-- The step of AOR. -/
def execAor (o : AtomOps) (s : State) : Host.Outcome State Fault Refusal := s.issue (.aor o) (bodyAor o)

/-- AXOR (R149). -/
def bodyAxor (o : AtomOps) (s : State) : Res := atomBody .xor (.axor o) o s

/-- The step of AXOR. -/
def execAxor (o : AtomOps) (s : State) : Host.Outcome State Fault Refusal := s.issue (.axor o) (bodyAxor o)

/-- ASWP (R149). -/
def bodyAswp (o : AtomOps) (s : State) : Res := atomBody .swp (.aswp o) o s

/-- The step of ASWP. -/
def execAswp (o : AtomOps) (s : State) : Host.Outcome State Fault Refusal := s.issue (.aswp o) (bodyAswp o)

/-- ACAS (R149). -/
def bodyAcas (o : AtomOps) (s : State) : Res := atomBody .cas (.acas o) o s

/-- The step of ACAS. -/
def execAcas (o : AtomOps) (s : State) : Host.Outcome State Fault Refusal := s.issue (.acas o) (bodyAcas o)

/-- AFADD (R149). -/
def bodyAfadd (o : AtomOps) (s : State) : Res := atomBody .fadd (.afadd o) o s

/-- The step of AFADD. -/
def execAfadd (o : AtomOps) (s : State) : Host.Outcome State Fault Refusal := s.issue (.afadd o) (bodyAfadd o)

end Sys2Proof.Machine
end

