-- ==== Sys2Proof/Machine/EngineMem.lean ====
section
/-!
DEFINITION. What the matrix and copy engines share: their accesses (R208, R216, Table 15-13), the engine formats (R203), MX
blocks (R115, R116), the codebook (R117), conversion on the copy path (R120), stream descriptors (R206-R209) and engine faults
(R239).
-/

namespace Sys2Proof.Machine

/-! ### Engine faults -/

/-- Record an engine fault of core `n`: the unit is 4 for the Bridle, 5, 6 and 7 for the load, matrix and store queues. -/
def State.engFault (s : State) (n unit cause : Nat) (info : Word) (cmd place row : Nat) : State :=
  let r : FaultRec :=
    { cycle := s.cycle, core := n, unit := unit, cause := cause, info := info, nested := false, user := true, kind := .engine,
      cmd := cmd, place := place, row := row }
  { s with faults := s.faults ++ [r] }

/-- Info value of SHAPE: the reason, and the register in [3:0]. -/
def engShape (reason reg : Nat) : Nat × Word := (cSHAPE, w64 (256 * reason + reg % 16))

/-! ### Accesses -/

/-- `[va, va + n)` split at 4 KiB boundaries. -/
def pagePieces : Nat → Nat → Nat → List (Nat × Nat)
  | 0, _, _ => []
  | f + 1, va, n =>
      if n = 0 then []
      else
        let k := min n (4096 - va % 4096)
        (va, k) :: pagePieces f (va + k) (n - k)

/-- The pieces of a range. -/
def rangePieces (va n : Nat) : List (Nat × Nat) := pagePieces (n / 4096 + 2) va n

/-- What a unit may not write (Table 15-13): a counter page, a page of the DT kind. -/
def engDestCheck (need : Need) (e : Nat) : Option Nat :=
  if need = .store then (if pteC e then some cCNTSTORE else if pteKind e = 3 then some cPROT else none) else none

/-- The unit under which the firmware walks page tables; it keeps no translation. -/
def unitFirmware : Nat := 9000

/-- Check every byte of a range for a unit, which acts for a task in user mode or is the firmware (R249): (device-physical address, length, leaf). -/
def State.unitCheck (s : State) (unit asid : Nat) (need : Need) :
    List (Nat × Nat) → Except (Nat × Word) (State × List (Nat × Nat × Nat))
  | [] => .ok (s, [])
  | p :: t =>
      match s.check unit asid (decide (unit = unitFirmware)) need p.1 with
      | .error c => .error (c, w64 p.1)
      | .ok l =>
          match engDestCheck need l.ent with
          | some c => .error (c, w64 p.1)
          | none =>
              match (s.fill unit l).unitCheck unit asid need t with
              | .error e => .error e
              | .ok (s, r) => .ok (s, (l.pa p.1, p.2, l.ent) :: r)

/-- A leaf as a translation entry. -/
def leafOf (ent : Nat) : TlbEntry := { asid := 0, vbase := 0, size := 0, ent := ent }

/-- The bytes of checked pieces, or MIRRFAIL and the like of a piece. -/
def State.readPieces (s : State) : List (Nat × Nat × Nat) → Except Nat (List Byte)
  | [] => .ok []
  | p :: t =>
      match s.dest (leafOf p.2.2) p.1 true with
      | .error c => .error c
      | .ok as => match s.readPieces t with
        | .error c => .error c
        | .ok r => .ok (s.bytes (as.headD p.1) p.2.1 ++ r)

/-- Store bytes at checked pieces. -/
def State.writePieces (s : State) (bs : List Byte) : List (Nat × Nat × Nat) → Except Nat State
  | [] => .ok s
  | p :: t =>
      match s.dest (leafOf p.2.2) p.1 false with
      | .error c => .error c
      | .ok as => (s.storeAll as (enumBytes (bs.take p.2.1))).writePieces (bs.drop p.2.1) t

/-- The first touch of a marked granule by pieces (R164). -/
def State.guardPieces (s : State) (ps : List (Nat × Nat × Nat)) : Option Word :=
  (ps.filterMap fun p => s.guardTouch p.1 p.2.1).head?

/-- The packets of an access of a unit of the core under way to checked pieces (R262): one for each piece and package. -/
def State.sendPieces (s : State) (unit : Nat) (ps : List (Nat × Nat × Nat)) (k : Traffic) : State :=
  ps.foldl (fun (s : State) p =>
    match s.dest (leafOf p.2.2) p.1 (decide (k = .read)) with
    | .error _ => s
    | .ok as => (as.filter fun a => decide (memKind a = some .peer)).foldl (fun (s : State) a =>
        s.sendTo .none s.curCore unit p.2.2 a false
          (if k = .read then .load p.2.1 else .store p.2.1 (leNat (s.bytes a p.2.1)))) s) s

/-- The bursts and the packets of an access of a unit of the core under way to checked pieces. -/
def State.trafficPieces (s : State) (unit : Nat) (ps : List (Nat × Nat × Nat)) (k : Traffic) : State :=
  (ps.foldl (fun (s : State) p => s.traffic p.1 p.2.1 k) s).sendPieces unit ps k

/-- Read `n` bytes at `va` for an engine of the core under way: the state, the bytes and a guard touch. -/
def State.engRead (s : State) (va n : Nat) : Except (Nat × Word) (State × List Byte × Option Word) :=
  match s.unitCheck (unitEngine s.curCore) s.myCore.asid.toNat .load (rangePieces va n) with
  | .error e => .error e
  | .ok (s, ps) =>
      match s.readPieces ps with
      | .error c => .error (c, w64 va)
      | .ok bs => .ok (s.trafficPieces (unitEngine s.curCore) ps .read, bs, s.guardPieces ps)

/-- Write bytes at `va` for an engine of the core under way: the whole range is checked before any byte is written. -/
def State.engWrite (s : State) (va : Nat) (bs : List Byte) : Except (Nat × Word) (State × Option Word) :=
  match s.unitCheck (unitEngine s.curCore) s.myCore.asid.toNat .store (rangePieces va bs.length) with
  | .error e => .error e
  | .ok (s, ps) =>
      let g := s.guardPieces ps
      match s.writePieces bs ps with
      | .error c => .error (c, w64 va)
      | .ok s => .ok (s.trafficPieces (unitEngine s.curCore) ps .write, g)

/-- Whether the bytes `[va, va + n)` that a unit would access lie in the own scratchpad of the core under way; a page that does not
translate takes no time. -/
def State.ownBytes (s : State) (unit va n : Nat) : Bool :=
  (rangePieces va n).all fun p =>
    match s.lookup unit s.myCore.asid.toNat p.1 with
    | none => true
    | some l => s.own (l.pa p.1)

/-- The first of two guard touches. -/
def firstTouch (a b : Option Word) : Option Word := match a with | some w => some w | none => b

/-! ### Formats (Table 15-2) -/

/-- Width in bits of one element; CB2 counts as 4. -/
def engWidth (c : Nat) : Nat :=
  match c with
  | 0 => 32 | 1 | 2 => 16 | 3 | 4 | 7 | 8 => 8 | 5 | 9 | 11 => 4 | 6 => 64 | 10 => 128 | _ => 8

/-- Formats with block scales. -/
def engScaled (c : Nat) : Bool := c = 5 || c = 7 || c = 8 || c = 9

/-- The number format of the elements. -/
def engFmt (c : Nat) : Fmt :=
  match c with
  | 0 => .fp32 | 1 => .fp16 | 2 => .bf16 | 3 | 7 => .e4m3 | 4 | 8 => .e5m2 | 6 => .fp64 | 10 => .b128 | _ => .e2m1

/-- Formats accepted as activations, as weights, by MXOUT and by converting copies. -/
def engAct (c : Nat) : Bool := c ≤ 8
/-- Weights. -/
def engWgt (c : Nat) : Bool := c ≤ 9
/-- MXOUT. -/
def engOut (c : Nat) : Bool := c ≤ 8
/-- Copy source and destination. -/
def engCopy (c : Nat) : Bool := c ≤ 8 || c = 11

/-- Bytes of a stored row of `k` elements (R208). -/
def engRowBytes (c k : Nat) : Nat := if c = 9 then k / 8 * 2 else k * engWidth c / 8

/-- The value of a codebook element (R117). -/
def cbValue (cb : SMap Byte) (idx e : Nat) : FVal :=
  let b := idx / 256
  let word := (List.range 4).foldl (fun a i => a + (SMap.get 0 cb (4 * b + i)).toNat * 2 ^ (8 * i)) 0
  match Fmt.e2m1.value (fld word (4 * e) 3) with
  | .fin _ m x => .fin (idx.testBit e) m x
  | v => v

/-- A value under an E8M0 scale (R115). -/
def withScale (s : Nat) (v : FVal) : FVal := if s = 255 then .nan else v.scale ((s : Int) - 127)

/-- Element `e` of a stored row. -/
def engElem (c row : Nat) (scales : List Byte) (cb : SMap Byte) (e : Nat) : FVal :=
  let v := if c = 9 then cbValue cb (fld row (16 * (e / 8)) 16) (e % 8)
    else (engFmt c).value (fld row (engWidth c * e) (engWidth c))
  if engScaled c then withScale ((scales.getD (e / 32) 0).toNat) v else v

/-- The elements of a stored row. -/
def engElems (c k row : Nat) (scales : List Byte) (cb : SMap Byte) : List FVal := (List.range k).map (engElem c row scales cb)

/-! ### Producing MX blocks (R116) -/

/-- emax -/
def mxEmax (f : Fmt) : Nat := match f with | .e2m1 => 2 | .e4m3 => 8 | _ => 15

/-- floor(log2) of a nonzero finite magnitude. -/
def floorLog2 : FVal → Option Int
  | .fin _ m e => if m = 0 then none else some (e + Nat.log2 m)
  | _ => none

/-- A block of values: its scale and its element patterns; `mode k` rounds element k. A block of padding alone has no amax: the model
gives it the scale 0x7F (DESIGN CHOICE, log entry 80). -/
def mxBlock (f : Fmt) (mode : Nat → RMode) (ys : List FVal) : Nat × List Nat :=
  if ys.any fun y => y.isNan || y.isInf then (255, ys.map fun _ => 0)
  else
    let scale : Nat :=
      match (ys.filterMap floorLog2) with
      | [] => 0x7F
      | x :: t => (min 254 (max 0 (t.foldl max x - mxEmax f + 127))).toNat
    let enc (k : Nat) (y : FVal) : Nat :=
      let b := (f.ofVal (mode k) (y.scale (127 - (scale : Int)))).1
      if (f.value b).isInf then f.maxBits y.sign else b
    (scale, ((List.range ys.length).zip ys).map fun p => enc p.1 p.2)

/-- Split a list into runs of 32. -/
def runs32 {α : Type} : Nat → List α → List (List α)
  | 0, _ => []
  | n + 1, l => if l.isEmpty then [] else l.take 32 :: runs32 n (l.drop 32)

/-- The pattern of a value without block scales: a NaN is canonical, an infinity the largest finite value where there is
none. -/
def plainElem (f : Fmt) (r : RMode) (y : FVal) : Nat := (f.ofVal r y).1

/-- Encode a row of values in a format: its data as a number and its scales. -/
def engEncode (c : Nat) (mode : Nat → RMode) (post : Nat → Nat) (ys : List FVal) : Nat × List Byte :=
  let w := engWidth c
  let f := engFmt c
  let join (es : List Nat) : Nat := ((List.range es.length).zip es).foldl (fun a p => a + p.2 * 2 ^ (w * p.1)) 0
  if engScaled c then
    let bs := (runs32 (ys.length / 32 + 1) ys)
    let rs := ((List.range bs.length).zip bs).map fun p => mxBlock f (fun k => mode (32 * p.1 + k)) p.2
    (join (rs.flatMap fun r => r.2), rs.map fun r => BitVec.ofNat 8 r.1)
  else (join (((List.range ys.length).zip ys).map fun p => post (plainElem f (mode p.1) p.2)), [])

/-! ### Stream descriptors (Table 15-3) -/

/-- base -/
def sdBase (d : Nat) : Nat := fld d 0 64
/-- sbase -/
def sdSbase (d : Nat) : Nat := fld d 64 64
/-- pitch -/
def sdPitch (d : Nat) : Nat := fld d 128 32
/-- step, signed -/
def sdStep (d : Nat) : Int := intVal true 32 (fld d 160 32)
/-- spitch -/
def sdSpitch (d : Nat) : Nat := fld d 192 16
/-- sstep, signed -/
def sdSstep (d : Nat) : Int := intVal true 16 (fld d 208 16)
/-- fmt -/
def sdFmt (d : Nat) : Nat := fld d 224 4
/-- reserved -/
def sdReserved (d : Nat) : Nat := fld d 228 28

/-- The descriptor after an issue (R209). -/
def sdAdvance (d : Nat) : Nat :=
  d - sdBase d - sdSbase d * 2 ^ 64 + ((sdBase d + sdStep d) % 2 ^ 64).toNat + ((sdSbase d + sdSstep d) % 2 ^ 64).toNat * 2 ^ 64

/-- The checks of R207: the format the role requires, the number of rows, the row bytes, and whether it is a destination. -/
def sdCheck (d fmt rows rowBytes : Nat) (dest : Bool) (reg : Nat) : Option (Nat × Word) :=
  if sdReserved d ≠ 0 then some (engShape 1 reg)
  else if sdFmt d ≠ fmt then some (engShape 2 reg)
  else if engScaled fmt && decide (sdSbase d = 0) then some (engShape 2 reg)
  else if sdBase d % (if fmt = 15 then 64 else 8) ≠ 0 then some (cALIGN, w64 (sdBase d))
  else if decide (1 < rows) && decide (sdPitch d % 8 ≠ 0) then some (cALIGN, w64 (sdPitch d))
  else if dest && decide (1 < rows) && decide (sdPitch d < rowBytes) then some (engShape 4 reg)
  else none

/-- S[n] of a core. -/
def Core.sreg (k : Core) (n : Nat) : Nat := (SMap.get 0 k.sregs n).toNat

/-- Advance S[n] at the end of this cycle: the model advances it at once, so that commands of later queues in the same
cycle see the advance, and an SLD that lands in the cycle overwrites it (R209). -/
def State.advanceStream (s : State) (n : Nat) : State :=
  s.modMyCore fun k => { k with sregs := SMap.set 0 k.sregs n (BitVec.ofNat 256 (sdAdvance (k.sreg n))) }

/-! ### Shadow frames (R236, R293) -/

/-- The pool of a die: 0 HBM4E, 1 LPDDR 6, 2 shadow. -/
def poolKey (die kind : Nat) : Nat := 3 * die + kind

/-- The oldest frame of a pool and the state without it. -/
def State.takeFrame (s : State) (key : Nat) : Option (Nat × State) :=
  match SMap.get [] s.pools key with
  | [] => none
  | f :: t => some (f, { s with pools := SMap.set [] s.pools key t })

/-- Insert a number into an ascending list. -/
def insertUp (f : Nat) : List Nat → List Nat
  | [] => [f]
  | g :: t => if g ≤ f then g :: insertUp f t else f :: g :: t

/-- A media frame joins a pool as its newest; frames that enter one pool in one cycle join in ascending media address (R292). -/
def State.giveFrame (s : State) (key f : Nat) : State :=
  let l := SMap.get [] s.pools key
  let n := l.length - (s.poolNew.filter fun e => decide (e.1 = key)).length
  { s with pools := SMap.set [] s.pools key (l.take n ++ insertUp f (l.drop n)), poolNew := s.poolNew ++ [(key, f)] }

/-- The offset at which a media frame selects a cell, if it does. -/
def State.frameOffset (s : State) (f c : Nat) : Option Nat :=
  let m := if viaDit (f * 65536) then rehashMedia 4 (s.frameFn f) c else c - 2 ^ 64
  if m / 65536 = f ∧ (viaDit (f * 65536) = false → 2 ^ 64 ≤ c) then some (m % 65536) else none

/-- Copy a media frame: the cells of the destination take what those of the source hold. -/
def State.copyFrame (s : State) (src dst : Nat) : State :=
  let rest := s.mem.filter fun e => (s.frameOffset dst e.1).isNone
  let new := s.mem.filterMap fun e => (s.frameOffset src e.1).map fun o => (s.mediaCell (dst * 65536 + o), e.2)
  { s with mem := SMap.setAll memDefault rest new }

/-- Whether a page may take shadow writes: HBM, LPDDR 6 or pool, and SH = 1. -/
def shadowOk (pa ent : Nat) : Bool := viaDit pa && pteSH ent

/-- Give the frame of a device-physical address a shadow, if it has none; none when it must wait (R236, R293). -/
def State.makeShadow (s : State) (pa : Nat) : Option State :=
  let f := pa / 65536
  let e := s.ditEntry f
  if e.shd then some s
  else if e.mov then none
  else match s.takeFrame (poolKey (homeDie pa) 2) with
    | none => none
    | some (g, s) => some ((s.copyFrame e.mframe g).setDit f { e with shd := true, smframe := g })

/-- Store bytes at the shadow of the frame of a device-physical address. -/
def State.writeShadow (s : State) (pa : Nat) (bs : List Byte) : State :=
  let base := (s.ditEntry (pa / 65536)).smframe * 65536 + pa % 65536
  { s with mem := SMap.setAll memDefault s.mem ((enumBytes bs).map fun b => (s.mediaCell (base + b.1), b.2)) }

/-- Store bytes at the shadows of checked pieces: none when a shadow must wait for a frame. -/
def State.writeShadows (s : State) (bs : List Byte) : List (Nat × Nat × Nat) → Option State
  | [] => some s
  | p :: t =>
      match s.makeShadow p.1 with
      | none => none
      | some s => (s.writeShadow p.1 (bs.take p.2.1)).writeShadows (bs.drop p.2.1) t

end Sys2Proof.Machine
end

