-- ==== Sys2Proof/Machine/Engine.lean ====
section
/-!
DEFINITION. Engine queues: entry (R210, R91), section dependences (R212), token FIFOs (R213), waits and adds (R214), issue and
retirement (R215), and the counter commands (R238).
-/

namespace Sys2Proof.Machine

/-! ### Queues -/

/-- A queue of a core: 0 load, 1 matrix, 2 store. -/
def Core.queue (k : Core) (q : Nat) : List QCmd := match q with | 0 => k.loadQ | 1 => k.matQ | _ => k.storeQ

/-- Replace a queue. -/
def Core.setQueue (k : Core) (q : Nat) (l : List QCmd) : Core :=
  match q with | 0 => { k with loadQ := l } | 1 => { k with matQ := l } | _ => { k with storeQ := l }

/-- Entries of a queue (R210). -/
def queueSize (q : Nat) : Nat := if q = 1 then 16 else 32

/-- The next and the previous queue in the ring load, matrix, store. -/
def nextQ (q : Nat) : Nat := (q + 1) % 3
/-- The previous queue. -/
def prevQ (q : Nat) : Nat := (q + 2) % 3

/-- The token FIFO from one queue to another (Table 15-5). -/
def fifoKey (src dst : Nat) : Nat := 3 * src + dst

/-- Tokens of a FIFO that a pop sees. -/
def Core.tokenCount (k : Core) (f : Nat) : Nat := SMap.get 0 k.tokens f

/-- Whether a FIFO has room for a push. -/
def Core.fifoRoom (k : Core) (f : Nat) : Bool := decide (SMap.get 0 k.tokens f + SMap.get 0 k.freshTokens f < 8)

/-- The FIFOs a command pushes into. -/
def QCmd.pushes (c : QCmd) (q : Nat) : List Nat :=
  (if c.cmd.h.pushNext then [fifoKey q (nextQ q)] else []) ++ (if c.cmd.h.pushPrev then [fifoKey q (prevQ q)] else [])

/-- The FIFOs a command pops from; a resumed one has popped (R240). -/
def QCmd.pops (c : QCmd) (q : Nat) : List Nat :=
  if c.resume.isSome then []
  else (if c.cmd.h.popNext then [fifoKey (nextQ q) q] else []) ++ (if c.cmd.h.popPrev then [fifoKey (prevQ q) q] else [])

/-! ### Sections (R212) -/

/-- Whether section `num` of an engine in a stream has retired. -/
def Core.sectRetired (k : Core) (stream eng num : Nat) : Bool :=
  let defined : Bool :=
    match k.stream with
    | some st =>
        if st.id = stream then decide (num < SMap.get 0 st.counts eng)
        else (match SMap.get 0 k.stopped (4 * stream + eng) with | 0 => true | c + 1 => decide (num < c))
    | none => (match SMap.get 0 k.stopped (4 * stream + eng) with | 0 => true | c + 1 => decide (num < c))
  defined && !k.sections.any fun x => decide (x.stream = stream ∧ x.eng = eng ∧ x.num = num) && !x.lost

/-- Whether the dependences of a section hold. -/
def Core.sectReady (k : Core) (x : StreamSect) : Bool :=
  (decide (x.afterNext = 0xFFFF) || k.sectRetired x.stream (nextQ x.eng) x.afterNext) &&
  (decide (x.afterPrev = 0xFFFF) || k.sectRetired x.stream (prevQ x.eng) x.afterPrev)

/-- Whether the section of a queued command lets it issue. -/
def Core.depsOk (k : Core) (q : Nat) (c : QCmd) : Bool :=
  match c.sect with
  | none => true
  | some n =>
      match k.sections.find? fun x => decide (x.stream = c.stream ∧ x.eng = q ∧ x.num = n) with
      | none => true
      | some x => k.sectReady x

/-- Retire every section that can: one whose commands have retired; one of length 0 whose dependences hold and whose
earlier sections of the engine have retired. -/
def Core.settleSections (k : Core) : Core :=
  let can (k : Core) (x : StreamSect) : Bool :=
    decide (x.unretired = 0) &&
      (!x.empty ||
        (k.sectReady x && !k.sections.any fun y => decide (y.stream = x.stream ∧ y.eng = x.eng ∧ y.num < x.num) && !y.lost))
  k.sections.foldl (fun k x => if can k x then { k with sections := k.sections.filter fun y => decide (y ≠ x) } else k) k

/-- One command of a section is gone: it retired, or was discarded. -/
def Core.sectDone (k : Core) (q : Nat) (c : QCmd) : Core :=
  match c.sect with
  | none => k
  | some n =>
      { k with sections := k.sections.map fun x =>
          if x.stream = c.stream ∧ x.eng = q ∧ x.num = n then { x with unretired := x.unretired - 1 } else x }

/-! ### Issue -/

/-- The test of R214: the value is at or past the target modulo 2^16. -/
def waitOk (v target : Nat) : Bool := decide ((v % 65536 + 65536 - target) % 65536 < 32768)

/-- How the node of a core is being stopped. -/
def State.coreStop (s : State) (n : Nat) : StopKind :=
  match (s.core n).node with
  | none => .none
  | some i => match SMap.get none s.nodes i with
    | some x => x.stop
    | none => .none

/-- Whether the queues of a core may issue: not once a hard stop is under way (R47), and not while a debugger halt is in force, in
which queued commands keep their places (R73). -/
def State.queuesRun (s : State) (n : Nat) : Bool :=
  (match s.coreStop n with
   | .none | .drain => true
   | _ => false) && !(s.core n).halted

/-- Whether the Bridle of a core may fetch (R49, R73). -/
def State.bridleRuns (s : State) (n : Nat) : Bool := decide (s.coreStop n = .none) && !(s.core n).halted

/-- The conditions of R215 that do not depend on the command's operation, and the throttle of R363. -/
def Core.headReady (k : Core) (cycle q : Nat) (c : QCmd) : Bool :=
  decide (c.placed < cycle) && (decide (q ≠ 1) || decide (cycle % 8 < 8 - k.slow)) && k.depsOk q c &&
  (match c.cmd.op with
   | .cwt _ => true
   | _ => !c.cmd.h.waitEn || waitOk (SMap.get 0 k.kSnap c.cmd.h.waitSlot.toNat).toNat c.cmd.h.waitVal.toNat) &&
  (c.pops q).all fun f => decide (0 < k.tokenCount f)

/-- What starting a command comes to. -/
inductive Start where
  /-- The engine cannot start it in this cycle. -/
  | wait
  /-- It issues and fails its checks (R239). -/
  | fault (cause : Nat) (info : Word)
  /-- It issues: the state, the record of the issued command. -/
  | go (s : State) (i : Issued)

/-- What a command copies at issue; one that resumes has copied it before, but for what its checks at issue did not reach (R240). -/
def State.taken (s : State) (c : QCmd) (sdesc cdesc : Nat) : Resume :=
  match c.resume with
  | some r => if r.checked then r else { r with cdesc := cdesc, checked := true }
  | none => { row := 0, sdesc := sdesc, cdesc := cdesc, cbook := s.myCore.codebook, rows := [], order := s.myCore.nextCmd }

/-- The record of a command that issues now; a touch of a marked granule before it was stopped stays recorded (R164, R240). -/
def State.issued (s : State) (c : QCmd) (sdesc cdesc : Nat) : Issued :=
  let r := s.taken c sdesc cdesc
  { id := s.myCore.nextCmd, queue := s.curQueue, c := c, t0 := s.cycle - r.row, r := r, tcb := s.myCore.tcb, doneAt := none,
    guard := r.guard }

/-- The engine of the core under way made progress (R51, R52). -/
def State.engProgress (s : State) : State := s.modMyCore fun k => { k with progress := s.cycle, lastStep := s.cycle }

/-- The stream register a command names (R207). -/
def EngOp.stream : EngOp → Option Nat
  | .mxlds s | .mxrdaSt _ s | .mxrdaLd _ s | .cpy s | .cpyg s | .cpys s | .cpym s | .pub s => some s.toNat
  | .mxrun _ _ tile s => if tile then none else some (s.toNat % 16)
  | .mxout _ _ tile d _ _ _ _ => if tile then none else some (d.toNat % 16)
  | .mxzero _ | .cwt _ | .cad _ _ => none

/-- The unit number of a queue in a report. -/
def queueUnit (q : Nat) : Nat := 5 + q

/-- A stopped command goes back to the head of its queue, behind stopped ones that issued before it (R240). -/
def insertStopped (c : QCmd) (order : Nat) : List QCmd → List QCmd
  | [] => [c]
  | x :: t =>
      match x.resume with
      | some r => if r.order < order then x :: insertStopped c order t else c :: x :: t
      | none => c :: x :: t

/-- A command of a queue of the core under way re-enters it, to resume from `r`. -/
def State.reenter (s : State) (q : Nat) (c : QCmd) (r : Resume) : State :=
  s.modMyCore fun k => k.setQueue q (insertStopped { c with placed := s.cycle, resume := some r } r.order (k.queue q))

/-- The head of the queue under way issues, if it is a command of this row and R215 lets it: its tokens are popped, it
leaves the queue and starts, or raises its engine fault. Stopped by XLATE in its checks it has issued: it re-enters the head of its
queue and neither pops its tokens nor advances its stream again (R240). -/
def State.engIssue (s : State) (row : Instr) (start : QCmd → State → Start) : Host.Outcome State Fault Refusal :=
  let q := s.curQueue
  match s.myCore.queue q with
  | [] => .next s
  | c :: t =>
      if decide (EngOp.instr c.cmd.op = row) && s.queuesRun s.curCore && s.myCore.headReady s.cycle q c then
        let popped (s : State) : State :=
          (s.modMyCore fun k =>
            let k := { k with tokens := (c.pops q).foldl (fun m f => SMap.set 0 m f (SMap.get 0 m f - 1)) k.tokens }
            k.setQueue q t).engProgress
        match start c s with
        | .wait => .next s
        | .fault cause info =>
            let sdesc := match EngOp.stream c.cmd.op with | some n => s.myCore.sreg n | none => 0
            let r : Resume := { s.taken c sdesc 0 with checked := false }
            let s := match EngOp.stream c.cmd.op, c.resume with | some n, none => s.advanceStream n | _, _ => s
            let s := popped s
            let s := if cause = cXLATE then (s.reenter q c r).modMyCore fun k => { k with nextCmd := k.nextCmd + 1 } else s
            .next (s.engFault s.curCore (queueUnit q) cause info (encodeCmd c.cmd) c.origin.toNat 0)
        | .go s i =>
            .next ((popped s).modMyCore fun k => { k with issued := k.issued ++ [i], nextCmd := k.nextCmd + 1 })
      else .next s

/-! ### Rows in progress -/

/-- Change an issued command of the core under way. -/
def State.modIssued (s : State) (id : Nat) (f : Issued → Issued) : State :=
  s.modMyCore fun k => { k with issued := k.issued.map fun i => if i.id = id then f i else i }

/-- An issued command stops with an engine fault at row `row` (R239); stopped by XLATE, it re-enters the head of its queue
with what its resumption needs (R240). -/
def State.stopIssued (s : State) (i : Issued) (row cause : Nat) (info : Word) : State :=
  let c := i.c
  let s := s.modMyCore fun k => { k with issued := k.issued.filter fun x => decide (x.id ≠ i.id) }
  let s := if cause = cXLATE then s.reenter i.queue c { i.r with row := row, guard := i.guard } else s
  s.engFault s.curCore (queueUnit i.queue) cause info (encodeCmd c.cmd) c.origin.toNat row

/-! ### Retirement (R213-R215) -/

/-- Whether an issued command can retire in a cycle: its last access is performed and its FIFOs have room. -/
def Core.canRetire (k : Core) (cycle : Nat) (i : Issued) : Bool :=
  (match i.doneAt with | none => false | some t => decide (t ≤ cycle)) && (i.c.pushes i.queue).all fun f => k.fifoRoom f

/-- The issued command `id` of the core under way retires, if its last access is performed and its FIFOs have room: it
pushes its tokens, adds to its slot and counts for its section; a GUARD touch then faults the node (R164). -/
def State.retire (s : State) (id : Nat) : State :=
  match s.myCore.issued.find? fun i => decide (i.id = id) with
  | none => s
  | some i =>
      let fs := i.c.pushes i.queue
      if s.myCore.canRetire s.cycle i then
        let s := (s.modMyCore fun k =>
          let k := { k with issued := k.issued.filter fun x => decide (x.id ≠ id) }
          let k := { k with freshTokens := fs.foldl (fun m f => SMap.set 0 m f (SMap.get 0 m f + 1)) k.freshTokens }
          k.sectDone i.queue i.c).engProgress
        let u := queueUnit i.queue
        let h := i.c.cmd.h
        let s :=
          if h.addEn then
            s.queueAdd (.slot s.curCore h.addSlot.toNat) 1
              (.engine s.curCore u (ctrInfo 0 h.addSlot.toNat 0 0) (encodeCmd i.c.cmd) i.c.origin.toNat i.r.row)
          else s
        match i.guard with
        | none => s
        | some w => s.engFault s.curCore u cGUARD w (encodeCmd i.c.cmd) i.c.origin.toNat i.r.row
      else s

/-- ENGINE_RETIRE (R215): the operands are the core and the command's number. -/
def execEngineRetire (s : State) : Host.Outcome State Fault Refusal :=
  let s := { s with curCore := s.ev.nat 0 }
  .next (s.retire (s.ev.nat 1))

/-! ### Counter commands (R238) -/

/-- The counter a command names, for reading or adding: PROT for a rank at or above the gang size, the checks of R142 for
a page. -/
def State.engCtr (s : State) (need : Need) : CtrRef → Except (Nat × Word) (State × CtrName)
  | .own k => .ok (s, .slot s.curCore k.toNat)
  | .rank k r =>
      (match s.rankSlot (r.zeroExtend 64) k.toNat with
       | .error e => .error e
       | .ok c => .ok (s, c))
  | .page a =>
      let va := 8 * a.toNat
      (match s.check (unitEngine s.curCore) s.myCore.asid.toNat false need va with
       | .error c => .error (c, w64 va)
       | .ok l =>
           match pteC l.ent, s.target (l.pa va) (decide (need ≠ .load)) with
           | true, some a => .ok (s.fill (unitEngine s.curCore) l, .page a va)
           | _, _ => .error (cPROT, w64 va))

/-- Whether the array lets a counter command of the matrix queue start (Table 15-8). -/
def State.arrayIdle (s : State) : Bool := decide (s.curQueue ≠ 1) || decide (s.myCore.arrayFree ≤ s.cycle)

/-- CWT (R238): it issues once the counter satisfies the test against the wait value, and retires. -/
def startCwt (c : QCmd) (s : State) : Start :=
  match c.cmd.op with
  | .cwt r =>
      if !s.arrayIdle then .wait
      else match s.engCtr .load r with
      | .error e => .fault e.1 e.2
      | .ok (s, n) =>
          let v := match n with | .slot m k => (SMap.get 0 (s.core m).kSnap k).toNat | n => s.ctrGet n
          if waitOk v c.cmd.h.waitVal.toNat then .go s { s.issued c 0 0 with doneAt := some s.cycle } else .wait
  | _ => .wait

/-- CAD (R238): it adds its amount, 1 to a counter page, and retires; a saturated add raises CNTOVF (R214). -/
def startCad (c : QCmd) (s : State) : Start :=
  match c.cmd.op with
  | .cad r a =>
      if !s.arrayIdle then .wait
      else match s.engCtr .store r with
      | .error e => .fault e.1 e.2
      | .ok (s, n) =>
          let amount := match r with | .page _ => 1 | _ => a.toNat
          let info := match r with
            | .own k => ctrInfo 0 k.toNat 0 0
            | .rank k m => ctrInfo 1 k.toNat m.toNat 0
            | .page p => ctrInfo 2 0 0 (8 * p.toNat)
          let s := match n with
            | .page b _ => if memKind b = some MemKind.peer then s.sendTo .none s.curCore (unitEngine s.curCore) 0 b true (.ctrAdd amount) else s
            | _ => s
          .go (s.queueAdd n amount (.engine s.curCore (queueUnit s.curQueue) info (encodeCmd c.cmd) c.origin.toNat 0))
            { s.issued c 0 0 with doneAt := some s.cycle }
  | _ => .wait

/-- The step of CWT. -/
def execCwt (s : State) : Host.Outcome State Fault Refusal := s.engIssue .cwt startCwt
/-- The step of CAD. -/
def execCad (s : State) : Host.Outcome State Fault Refusal := s.engIssue .cad startCad

end Sys2Proof.Machine
end

