-- ==== Sys2Proof/Machine/Special.lean ====
section
/-!
DEFINITION. The special functions of R177: the special values of Table 13-6, exact and algebraic results by integer
division and square root, and the transcendental ones by an interval of 2^-1000 fixed-point numbers that holds the exact
value: where both its ends round alike, that is the correctly rounded result.
-/

namespace Sys2Proof.Machine

/-- The functions of Table 13-5. -/
inductive SpFn where
  | rcp | rsq | sqrt | exp2 | log2 | sin | cos | tanh | sigm | erf
  deriving DecidableEq, Repr

/-- The minor code of a function. -/
def SpFn.code : SpFn → Nat
  | .rcp => 0 | .rsq => 1 | .sqrt => 2 | .exp2 => 3 | .log2 => 4 | .sin => 5 | .cos => 6 | .tanh => 7 | .sigm => 8 | .erf => 9

/-! ### Fixed-point series -/

/-- Fraction bits of the fixed-point numbers. -/
def fxBits : Nat := 1000

/-- One. -/
def fxOne : Nat := 2 ^ fxBits

/-- A bound, in units of the last place, on the error of every series below. -/
def fxErr : Nat := 2 ^ 300

/-- m * 2^e in units of 2^-q, rounded down. -/
def fixed (q m : Nat) (e : Int) : Nat :=
  let k := e + q
  if 0 ≤ k then m * 2 ^ k.toNat else m / 2 ^ (-k).toNat

/-- Sum over k of one / ((2k+1) b^(2k+1)), with alternating signs when `alt`: atan or atanh of 1/b. -/
def atanInv (alt : Bool) (b : Nat) : Nat → Nat → Nat → Int
  | 0, _, _ => 0
  | n + 1, k, t =>
      let v : Int := (t / (2 * k + 1) : Nat)
      (if alt && decide (k % 2 = 1) then -v else v) + atanInv alt b n (k + 1) (t / (b * b))

/-- ln 2 in units of 2^-q. -/
def fxLn2 (q : Nat) : Nat := (2 * atanInv false 3 400 0 (2 ^ q / 3)).toNat

/-- pi in units of 2^-q. -/
def fxPi (q : Nat) : Nat := (16 * atanInv true 5 300 0 (2 ^ q / 5) - 4 * atanInv true 239 100 0 (2 ^ q / 239)).toNat

/-- Sum of r^k / k! from the term `t` of index `k`. -/
def expSeries (r : Nat) : Nat → Nat → Nat → Nat
  | 0, _, _ => 0
  | n + 1, k, t => t + expSeries r n (k + 1) (t * r / fxOne / (k + 1))

/-- e^r for 0 <= r < 1. -/
def fxExp (r : Nat) : Nat := expSeries r 220 0 fxOne

/-- e^-y for y >= 0. -/
def fxExpNeg (y : Nat) : Nat :=
  let l := fxLn2 fxBits
  let i := y / l + 1
  fxExp (i * l - y) / 2 ^ i

/-- Alternating series t - t r2/((k+1)(k+2)) + ...: sine from k = 1 and t = r, cosine from k = 0 and t = 1. -/
def trigSeries (r2 : Nat) : Nat → Nat → Nat → Int
  | 0, _, _ => 0
  | n + 1, k, t => (t : Int) - trigSeries r2 n (k + 2) (t * r2 / fxOne / ((k + 1) * (k + 2)))

/-- Sum over k of z^(2k+1)/(2k+1) from t = z^(2k+1). -/
def atanhSeries (z2 : Nat) : Nat → Nat → Nat → Nat
  | 0, _, _ => 0
  | n + 1, k, t => t / (2 * k + 1) + atanhSeries z2 n (k + 1) (t * z2 / fxOne)

/-- Sum over n of 2^n x^(2n+1) / (2n+1)!! from its n-th term. -/
def erfSeries (x2 : Nat) : Nat → Nat → Nat → Nat
  | 0, _, _ => 0
  | n + 1, k, t => t + erfSeries x2 n (k + 1) (t * (2 * x2) / fxOne / (2 * k + 3))

/-! ### Approximations: the value in units of 2^-1000, off by less than `fxErr` -/

/-- log2 of m * 2^e. -/
def approxLog2 (m : Nat) (e : Int) : Int :=
  let k := Nat.log2 m
  let y := fixed fxBits m (-(k : Int))
  let hi := decide (3 * fxOne ≤ 2 * y)
  let y := if hi then y / 2 else y
  let i : Int := e + k + (if hi then 1 else 0)
  let d : Int := (y : Int) - fxOne
  let z := d.natAbs * fxOne / (y + fxOne)
  let a := 2 * atanhSeries (z * z / fxOne) 260 0 z
  let v : Int := (a * fxOne / fxLn2 fxBits : Nat)
  i * fxOne + (if d < 0 then -v else v)

/-- sin (or cos) of the magnitude m * 2^e. -/
def approxTrig (cosine : Bool) (m : Nat) (e : Int) : Int :=
  let q := fxBits + 200
  let x := fixed q m e
  let p := fxPi q
  let k := (2 * x + p / 2) / p
  let r2q : Int := 2 * (x : Int) - k * p
  let neg := decide (r2q < 0)
  let r := r2q.natAbs / 2 ^ 201
  let rr := r * r / fxOne
  let sn : Int := trigSeries rr 110 1 r
  let cs : Int := trigSeries rr 110 0 fxOne
  let sn := if neg then -sn else sn
  let j := (k + (if cosine then 1 else 0)) % 4
  match j with
  | 0 => sn
  | 1 => cs
  | 2 => -sn
  | _ => -cs

/-- The approximation of a transcendental function at a nonzero magnitude below the limits of `special`. -/
def approx (f : SpFn) (s : Bool) (m : Nat) (e : Int) : Int :=
  match f with
  | .exp2 =>
      -- 2^x = 2^i * e^(r ln 2), 0 <= r < 1
      let x := fixed fxBits m e
      let i := x / fxOne
      let r := x % fxOne
      if s then
        ((fxExp ((fxOne - r) * fxLn2 fxBits / fxOne)) / 2 ^ (i + 1) : Nat)
      else (fxExp (r * fxLn2 fxBits / fxOne) * 2 ^ i : Nat)
  | .log2 => approxLog2 m e
  | .sin => if s then -(approxTrig false m e) else approxTrig false m e
  | .cos => approxTrig true m e
  | .tanh =>
      let u := fxExpNeg (2 * fixed fxBits m e)
      let v : Int := ((fxOne - u) * fxOne / (fxOne + u) : Nat)
      if s then -v else v
  | .sigm =>
      let u := fxExpNeg (fixed fxBits m e)
      if s then (u * fxOne / (fxOne + u) : Nat) else (fxOne * fxOne / (fxOne + u) : Nat)
  | .erf =>
      let x := fixed fxBits m e
      let sum := erfSeries (x * x / fxOne) 1200 0 x
      let sp := Nat.sqrt (fxPi fxBits * fxOne)
      let v : Int := (2 * fxExpNeg (x * x / fxOne) * sum / sp : Nat)
      if s then -v else v
  | _ => 0

/-! ### Results -/

/-- A bound above the magnitude of an approximation: the functions whose results stay below 1 in magnitude keep below it. -/
def SpFn.above (f : SpFn) (n : Nat) : Nat :=
  match f with
  | .tanh | .sigm | .erf => min (n + fxErr) (fxOne - 1)
  | _ => n + fxErr

/-- The rounding of a value off every grid that lies between `a - fxErr` and `a + fxErr` units of 2^-1000, times
2^scale; where the ends round apart, the free value of log entry 10. -/
def enclose (f : SpFn) (fmt : Fmt) (r : RMode) (scale : Int) (m : Nat) (e : Int) (a : Int) : Nat × FFlags :=
  let s := decide (a < 0)
  let n := a.natAbs
  let lo := fmt.round r s (n - fxErr) (scale - fxBits) true
  let hi := fmt.round r s (f.above n) (scale - fxBits) true
  if decide (fxErr < n) && decide (lo = hi) then lo else (Config.specialFallback f.code e m % 2 ^ fmt.width, fInexact)

/-- A value just above (`sticky`) n * 2^e, times 2^scale. -/
def just (fmt : Fmt) (r : RMode) (scale : Int) (s : Bool) (n : Nat) (e : Int) (sticky : Bool) : Nat × FFlags :=
  fmt.round r s n (e + scale) sticky

/-- A power of two: its exponent, if m is one. -/
def pow2? (m : Nat) : Option Nat := if m = 2 ^ Nat.log2 m then some (Nat.log2 m) else none

/-- An invalid operand. -/
def spInvalid (fmt : Fmt) : Nat × FFlags := (fmt.nanBits, fInvalid)

/-- The result for a nonzero finite x = (-1)^s m 2^e. -/
def specialFin (f : SpFn) (fmt : Fmt) (r : RMode) (scale : Int) (s : Bool) (m : Nat) (e : Int) : Nat × FFlags :=
  let mag := e + Nat.log2 m
  match f with
  | .rcp =>
      let k := Nat.log2 m + 400
      just fmt r scale s (2 ^ k / m) (-e - k) (decide (2 ^ k % m ≠ 0))
  | .sqrt =>
      if s then spInvalid fmt
      else
        let n := if e % 2 = 0 then m * 2 ^ 400 else m * 2 ^ 401
        let g := if e % 2 = 0 then e - 400 else e - 401
        let q := Nat.sqrt n
        just fmt r scale false q (g / 2) (decide (q * q ≠ n))
  | .rsq =>
      if s then spInvalid fmt
      else
        -- 1/sqrt(m 2^e) = sqrt(2^k / m) * 2^(-(e+k)/2), with e + k even
        let k0 := Nat.log2 m + 800
        let k := if (e + k0) % 2 = 0 then k0 else k0 + 1
        let q := Nat.sqrt (2 ^ k / m)
        just fmt r scale false q (-(e + k) / 2) (decide (q * q * m ≠ 2 ^ k))
  | .exp2 =>
      let whole := decide (0 ≤ e) || decide (m % 2 ^ (-e).toNat = 0)
      if 8 ≤ mag then
        -- past every format: the exponent does not matter, the fraction of x decides what SR chooses (Table 9-5)
        if s then just fmt r scale false 1 (-1200) true
        else if whole then just fmt r scale false 1 1000 false
        else enclose f fmt r (scale + 1000) m e (fxExp (fixed fxBits m e % fxOne * fxLn2 fxBits / fxOne) : Nat)
      else if whole then
        let i : Int := if 0 ≤ e then m * 2 ^ e.toNat else m / 2 ^ (-e).toNat
        just fmt r scale false 1 (if s then -i else i) false
      else enclose f fmt r scale m e (approx f s m e)
  | .log2 =>
      if s then spInvalid fmt
      else match pow2? m with
        | some k =>
            let v : Int := e + k
            fmt.ofVal r ((FVal.ofInt v).scale scale)
        | none => enclose f fmt r scale m e (approx f s m e)
  | .tanh =>
      if 8 ≤ mag then just fmt r scale s (2 ^ 400 - 1) (-400) true
      else enclose f fmt r scale m e (approx f s m e)
  | .sigm =>
      if 8 ≤ mag then
        (if s then just fmt r scale false 1 (-400) true else just fmt r scale false (2 ^ 400 - 1) (-400) true)
      else enclose f fmt r scale m e (approx f s m e)
  | .erf =>
      if 4 ≤ mag then just fmt r scale s (2 ^ 400 - 1) (-400) true
      else enclose f fmt r scale m e (approx f s m e)
  | _ => enclose f fmt r scale m e (approx f s m e)

/-- An exact result times 2^scale. -/
def spExact (fmt : Fmt) (r : RMode) (scale : Int) (v : FVal) : Nat × FFlags := fmt.ofVal r (v.scale scale)

/-- f(x) * 2^scale with its flags (R177, Table 13-6). -/
def special (f : SpFn) (fmt : Fmt) (r : RMode) (scale : Int) (x : FVal) : Nat × FFlags :=
  match x with
  | .nan => (fmt.nanBits, fNone)
  | .inf s =>
      match f with
      | .rcp => (fmt.signBits s, fNone)
      | .rsq => if s then spInvalid fmt else (0, fNone)
      | .sqrt | .log2 => if s then spInvalid fmt else (fmt.infBits false, fNone)
      | .exp2 => if s then (0, fNone) else (fmt.infBits false, fNone)
      | .sin | .cos => spInvalid fmt
      | .tanh | .erf => spExact fmt r scale (.fin s 1 0)
      | .sigm => if s then (0, fNone) else spExact fmt r scale (.fin false 1 0)
  | .fin s 0 _ =>
      match f with
      | .rcp | .rsq => (fmt.infBits s, fDivzero)
      | .log2 => (fmt.infBits true, fDivzero)
      | .sqrt | .sin | .tanh | .erf => (fmt.signBits s, fNone)
      | .exp2 | .cos => spExact fmt r scale (.fin false 1 0)
      | .sigm => spExact fmt r scale (.fin false 1 (-1))
  | .fin s m e => specialFin f fmt r scale s m e

end Sys2Proof.Machine
end

