-- ==== Sys2Proof/Machine/Tile.lean ====
section
/-!
DEFINITION. Tile and vector instructions: floating point (R168, R173), integer and logic (R170, R174), select and compare
(R175, R176), special functions (R177), conversions (R178-R181), axis operations (R182-R184), moves (R185) and
predicates (R186).
-/

namespace Sys2Proof.Machine

/-! ### The shared form of a tile instruction -/

/-- Whether T[t] is locked (R63). -/
def Core.locked (k : Core) (t : Nat) : Bool := decide (SMap.get 0 k.locks t ≠ 0)

/-- The effective rounding mode of the cluster under way (R111). -/
def State.mode (s : State) (m : Rnd) : Rnd := effRnd m s.me.rnd

/-- The generator after an instruction whose effective mode is `m` (R122). -/
def State.srNext (s : State) (m : Rnd) : BitVec 32 := if m = .sr then srAdvance s.me.srstate else s.me.srstate

/-- The column numbers of the cluster under way whose bit of P[n] is 1, as (lane, column) (R55, R56). -/
def State.lanes (s : State) (n : BitVec 3) : List (Nat × Nat) :=
  ((List.range 16).filter fun i => (s.p n).getLsbD i).map fun i => (i, 16 * s.curCl + i)

/-- The elements of a column of T[d]. -/
def colCells (d j : Nat) (col : List Elem) : List (Nat × Elem) :=
  (List.range 16).map fun r => (tileKey d r j, col.getD r 0)

/-- A tile instruction that writes T[d] with latency `l`: it stalls while T[d] is locked (R63); each lane whose predicate
bit is 1 receives its new column and contributes its flags; the generator advances once in mode SR (R122, R171); the
latch takes source a (R66). -/
def tileOp (l : Nat) (d : BitVec 5) (pred : BitVec 3) (mode : Rnd) (src : Option (BitVec 5))
    (f : BitVec 32 → Nat → Nat → List Elem × FFlags) (s : State) : Res :=
  if s.myCore.locked d.toNat then .stall (.lock d.toNat)
  else
    let sr := s.srNext mode
    let rs := (s.lanes pred).map fun ij => (ij.2, f sr ij.1 ij.2)
    let cells := rs.flatMap fun r => colCells d.toNat r.1 r.2.1
    let fl := rs.foldl (fun a r => a ||| r.2.2) fNone
    let s := s.modMe fun c => { c with srstate := sr, latch := src }
    let s := s.result l (.tile cells)
    .done (if fl = fNone then s else s.result l (.flags fl))

/-- A source column: T[t], or the literal in every element (R172). -/
def State.srcCol (s : State) (t : BitVec 5) (j : Nat) : List Elem := s.myCore.column t.toNat j

/-- The column of a literal: for f64 the literal is bits [63:32] of every value (R172). -/
def litCol (ety : ETy) (lit : BitVec 32) : List Elem :=
  (List.range 16).map fun r => if ety = .f64 then (if r % 2 = 1 then lit else 0) else lit

/-- A column from the results of its value positions, with their flags. -/
def packRes (w : Nat) (rs : List (Nat × FFlags)) : List Elem × FFlags :=
  (packCol w fun v => (rs.getD v (0, fNone)).1, rs.foldl (fun a r => a ||| r.2) fNone)

/-! ### Floating point -/

/-- The operations of Table 13-2: invalid or not, and the exact result; `rdn` is the sign rule of R108. -/
inductive FpFn where
  | add | sub | mul | fma | min | max
  deriving DecidableEq, Repr

/-- y and invalid of Table 13-2. -/
def fpFn (f : FpFn) (rdn : Bool) (a b c : FVal) : Bool × FVal :=
  let infs (x y : FVal) (same : Bool) : Bool := x.isInf && y.isInf && (x.sign == y.sign) == same
  let zinf (x y : FVal) : Bool := (x.isZero && y.isInf) || (x.isInf && y.isZero)
  match f with
  | .add => (infs a b false, a.add rdn b)
  | .sub => (infs a b true, a.add rdn b.neg)
  | .mul => (zinf a b, a.mul b)
  | .fma =>
      let p := a.mul b
      (zinf a b || (!a.isNan && !b.isNan && !c.isNan && infs p c false), p.add rdn c)
  | .min => (false, a.minz b)
  | .max => (false, a.maxz b)

/-- The end of R168: scale, rounding, clamp. -/
def fpFinish (fmt : Fmt) (m : Mods) (r : RMode) (inv : Bool) (y : FVal) : Nat × FFlags :=
  let q := if inv then (fmt.nanBits, fInvalid) else fmt.ofVal r (y.scale m.scale.toInt)
  (clampF m.clamp fmt q.1, q.2)

/-- One column of a floating-point instruction (R168). -/
def fpCol (f : FpFn) (m : Mods) (mode : Rnd) (ca cb cc : List Elem) (sr : BitVec 32) (i : Nat) : List Elem × FFlags :=
  let w := m.ety.width
  let fmt := etyFmt m.ety
  let val (c : List Elem) (v : Nat) (n ab : Bool) : FVal := (fmt.value (posBits w c v)).modify n ab
  packRes w ((List.range m.ety.count).map fun v =>
    let y := fpFn f (decide (mode = .rdn)) (val ca v m.negA m.absA) (val cb v m.negB m.absB) (val cc v m.negC m.absC)
    fpFinish fmt m (mkMode mode sr i (subElem w v) w) y.1 y.2)

/-- A floating-point instruction of two or three sources (R173), latency 4. -/
def fpBody (f : FpFn) (d a : BitVec 5) (m : Mods) (cb cc : Nat → List Elem) (s : State) : Res :=
  let mode := s.mode m.rnd
  tileOp 4 d m.pred mode (some a) (fun sr i j => fpCol f m mode (s.srcCol a j) (cb j) (cc j) sr i) s

/-! ### Integer and logic -/

/-- The operations of Table 13-3. -/
inductive IntFn where
  | add | sub | mul
  deriving DecidableEq, Repr

/-- modify on an integer (R170). -/
def modInt (x : Int) (n ab : Bool) : Int :=
  let y := if ab then (x.natAbs : Int) else x
  if n then -y else y

/-- The end of R170: scale, rounding to an integer, clamp; the pattern. -/
def intFinish (t : ETy) (m : Mods) (r : RMode) (y : Int) : Nat :=
  let n := roundInt r (decide (y < 0)) y.natAbs m.scale.toInt
  intBits t.width (clampInt m.clamp (!t.isUnsigned) t.width n)

/-- The exact result of an integer operation. -/
def intFn (f : IntFn) (a b : Int) : Int := match f with | .add => a + b | .sub => a - b | .mul => a * b

/-- One column of an integer instruction (R170). -/
def intCol (f : IntFn) (m : Mods) (mode : Rnd) (ca cb : List Elem) (sr : BitVec 32) (i : Nat) : List Elem × FFlags :=
  let w := m.ety.width
  let val (c : List Elem) (v : Nat) (n ab : Bool) : Int := modInt (intVal (!m.ety.isUnsigned) w (posBits w c v)) n ab
  packRes w ((List.range m.ety.count).map fun v =>
    (intFinish m.ety m (mkMode mode sr i (subElem w v) w) (intFn f (val ca v m.negA m.absA) (val cb v m.negB m.absB)), fNone))

/-- An integer instruction (R174), latency 2. -/
def intBody (f : IntFn) (d a : BitVec 5) (m : Mods) (cb : Nat → List Elem) (s : State) : Res :=
  let mode := s.mode m.rnd
  tileOp 2 d m.pred mode (some a) (fun sr i j => intCol f m mode (s.srcCol a j) (cb j) sr i) s

/-- The logic and shift operations of Table 13-3. -/
inductive LogFn where
  | and | or | xor | shl | shr | sar
  deriving DecidableEq, Repr

/-- A logic or shift operation on w-bit patterns; the shift is the low log2(w) bits of b. -/
def logFn (f : LogFn) (w a b : Nat) : Nat :=
  let sh := b % w
  match f with
  | .and => a &&& b
  | .or => a ||| b
  | .xor => a ^^^ b
  | .shl => a * 2 ^ sh % 2 ^ w
  | .shr => a / 2 ^ sh
  | .sar => intBits w (intVal true w a / 2 ^ sh)

/-- A logic or shift instruction (R174), latency 2. -/
def logBody (f : LogFn) (d a : BitVec 5) (m : Mods) (cb : Nat → List Elem) (s : State) : Res :=
  let w := m.ety.width
  tileOp 2 d m.pred .rne (some a) (fun _ _ j =>
    let ca := s.srcCol a j
    let cb := cb j
    packRes w ((List.range m.ety.count).map fun v => (logFn f w (posBits w ca v) (posBits w cb v), fNone))) s

/-! ### Select and compare -/

/-- VSEL (R175), latency 2. -/
def selBody (d a : BitVec 5) (sel : BitVec 3) (m : Mods) (cb : Nat → List Elem) (s : State) : Res :=
  tileOp 2 d m.pred .rne (some a) (fun _ i j =>
    (if (s.p sel).getLsbD i then s.srcCol a j else cb j, fNone)) s

/-- The conditions of Table 13-4 on float values. -/
def condF (c : Nat) (a b : FVal) : Bool :=
  match c with
  | 0 => a.eq b
  | 1 => !a.eq b
  | 2 => a.lt b
  | 3 => a.lt b || a.eq b
  | 4 => b.lt a
  | 5 => b.lt a || a.eq b
  | 6 => a.isNan || b.isNan
  | _ => !(a.isNan || b.isNan)

/-- The conditions of Table 13-4 on integers. -/
def condI (c : Nat) (a b : Int) : Bool :=
  match c with
  | 0 => decide (a = b)
  | 1 => decide (a ≠ b)
  | 2 => decide (a < b)
  | 3 => decide (a ≤ b)
  | 4 => decide (b < a)
  | 5 => decide (b ≤ a)
  | 6 => false
  | _ => true

/-- Whether the condition holds at a value position of two columns. -/
def cmpAt (m : Mods) (cond : Nat) (ca cb : List Elem) (v : Nat) : Bool :=
  let w := m.ety.width
  if m.ety.isFloat then
    let fmt := etyFmt m.ety
    condF cond ((fmt.value (posBits w ca v)).modify m.negA m.absA) ((fmt.value (posBits w cb v)).modify m.negB m.absB)
  else
    let sg := !m.ety.isUnsigned
    condI cond (modInt (intVal sg w (posBits w ca v)) m.negA m.absA) (modInt (intVal sg w (posBits w cb v)) m.negB m.absB)

/-- VCMP (R176), latency 2: only bits whose predicate bit is 1 are written. -/
def cmpBody (pd : BitVec 3) (a : BitVec 5) (cond : BitVec 4) (any : Bool) (m : Mods) (cb : Nat → List Elem)
    (s : State) : Res :=
  let holds (j : Nat) : Bool :=
    let vs := List.range m.ety.count
    let ca := s.srcCol a j
    let cb := cb j
    if any then vs.any (cmpAt m cond.toNat ca cb) else vs.all (cmpAt m cond.toNat ca cb)
  let v := (s.lanes m.pred).foldl (fun acc ij => if holds ij.2 then acc + 2 ^ ij.1 else acc) 0
  let s := s.modMe fun c => { c with latch := some a }
  .done (s.result 2 (.p pd.toNat (s.p m.pred) (BitVec.ofNat 16 v)))

/-! ### Special functions -/

/-- A special function (R177), latency 12. -/
def spBody (f : SpFn) (o : T1) (s : State) : Res :=
  let mode := s.mode o.m.rnd
  let w := o.m.ety.width
  let fmt := etyFmt o.m.ety
  tileOp 12 o.d o.m.pred mode (some o.a) (fun sr i j =>
    let ca := s.srcCol o.a j
    packRes w ((List.range o.m.ety.count).map fun v =>
      let x := (fmt.value (posBits w ca v)).modify o.m.negA o.m.absA
      let r := special f fmt (mkMode mode sr i (subElem w v) w) o.m.scale.toInt x
      (clampF o.m.clamp fmt r.1, r.2))) s

/-! ### Conversions -/

/-- An integer result of a conversion from a float (R114): saturation sets invalid, rounding inexact. -/
def toIntSat (t : ETy) (c : Clamp) (r : RMode) (s : Bool) (n : Nat) (e : Int) : Nat × FFlags :=
  let a := roundAt r s n e false 0
  let v : Int := if s then -(a.1 : Int) else a.1
  let sg := !t.isUnsigned
  let lo := intMin sg t.width
  let hi := intMax sg t.width
  let q := if v < lo then (lo, fInvalid) else if hi < v then (hi, fInvalid) else (v, if a.2.2 then fInexact else fNone)
  (intBits t.width (clampInt c sg t.width q.1), q.2)

/-- conv of R178 on one value: source type, destination type, modifiers (of source a or b). -/
def convert (st dt : ETy) (m : Mods) (n ab : Bool) (r : RMode) (bits : Nat) : Nat × FFlags :=
  let df := etyFmt dt
  let sg := !dt.isUnsigned
  if st.isFloat then
    let x := ((etyFmt st).value bits).modify n ab
    if dt.isFloat then
      let q := match x with
        | .nan => if df = Fmt.e2m1 then (0, fInvalid) else (df.nanBits, fNone)
        | .inf s => (df.infBits s, if df.hasInf then fNone else fInvalid)
        | y => df.ofVal r (y.scale m.scale.toInt)
      (clampF m.clamp df q.1, q.2)
    else
      match x with
      | .nan => (intBits dt.width (clampInt m.clamp sg dt.width 0), fInvalid)
      | .inf s => (intBits dt.width (clampInt m.clamp sg dt.width (if s then intMin sg dt.width else intMax sg dt.width)), fInvalid)
      | .fin s k e => toIntSat dt m.clamp r s k (if k = 0 then 0 else e + m.scale.toInt)
  else
    let y := modInt (intVal (!st.isUnsigned) st.width bits) n ab
    if dt.isFloat then
      let q := df.ofVal r ((FVal.ofInt y).scale m.scale.toInt)
      (clampF m.clamp df q.1, q.2)
    else (intFinish dt m r y, fNone)

/-- VCVT (R179), latency 4. -/
def cvtBody (o : CvtOps) (s : State) : Res :=
  let mode := s.mode o.m.rnd
  let dt := o.m.ety
  let w := dt.width
  let n := min o.sty.count dt.count
  tileOp 4 o.d o.m.pred mode (some o.a) (fun sr i j =>
    let ca := s.srcCol o.a j
    let old := s.srcCol o.d j
    packRes w ((List.range dt.count).map fun v =>
      if v < n then
        convert o.sty dt o.m o.m.negA o.m.absA (mkMode mode sr i (subElem w v) w) (posBits o.sty.width ca v)
      else (if o.keep then posBits w old v else 0, fNone))) s

/-- VPACK (R180), latency 4. -/
def packBody (o : PackOps) (s : State) : Res :=
  let mode := s.mode o.m.rnd
  let dt := o.m.ety
  let w := dt.width
  let ns := o.sty.count
  tileOp 4 o.d o.m.pred mode (some o.a) (fun sr i j =>
    let ca := s.srcCol o.a j
    let cb := s.srcCol o.b j
    packRes w ((List.range dt.count).map fun v =>
      let r := mkMode mode sr i (subElem w v) w
      if v < ns then convert o.sty dt o.m o.m.negA o.m.absA r (posBits o.sty.width ca v)
      else convert o.sty dt o.m o.m.negB o.m.absB r (posBits o.sty.width cb (v - ns)))) s

/-- VUNPK (R181), latency 4. -/
def unpkBody (o : UnpkOps) (s : State) : Res :=
  let mode := s.mode o.m.rnd
  let dt := o.m.ety
  let w := dt.width
  tileOp 4 o.d o.m.pred mode (some o.a) (fun sr i j =>
    let ca := s.srcCol o.a j
    packRes w ((List.range dt.count).map fun v =>
      convert o.sty dt o.m o.m.negA o.m.absA (mkMode mode sr i (subElem w v) w)
        (posBits o.sty.width ca (v + o.hi.toNat * dt.count)))) s

/-! ### Axis operations -/

/-- A move of 32-bit patterns along an axis with latency `l` (Table 13-8): `f i j` is the source element of (i, j). -/
def axisMove (l : Nat) (d a : BitVec 5) (pred : BitVec 3) (f : Nat → Nat → Nat × Nat) (s : State) : Res :=
  let k := s.myCore
  tileOp l d pred .rne (some a) (fun _ _ j =>
    ((List.range 16).map fun i => let q := f i j; k.tile a.toNat q.1 q.2, fNone)) s

/-- A reduction of float values (Table 13-9): invalid or not, and the exact result. -/
def redF (red : Nat) (rdn : Bool) (xs : List FVal) : Bool × FVal :=
  match xs with
  | [] => (false, .zero false)
  | x :: t =>
      match red with
      | 0 =>
          let pos := xs.any fun y => y.isInf && !y.sign
          let neg := xs.any fun y => y.isInf && y.sign
          if pos && neg then (true, .nan)
          else if xs.any FVal.isNan then (false, .nan)
          else (false, t.foldl (fun a y => a.add rdn y) x)
      | 1 => (false, t.foldl FVal.maxz x)
      | _ => (false, t.foldl FVal.minz x)

/-- A reduction of integers of a type (Table 13-9). -/
def redI (red : Nat) (sg : Bool) (w : Nat) (xs : List Int) : Int :=
  match xs with
  | [] => 0
  | x :: t =>
      let bitw (f : Nat → Nat → Nat) : Int := intVal sg w (t.foldl (fun a y => f a (intBits w y)) (intBits w x))
      match red with
      | 0 => t.foldl (· + ·) x
      | 1 => t.foldl max x
      | 2 => t.foldl min x
      | 3 => bitw (· &&& ·)
      | 4 => bitw (· ||| ·)
      | _ => bitw (· ^^^ ·)

/-- One reduced value: from the patterns of the elements to the pattern of the result (R183). -/
def reduce (red : Nat) (m : Mods) (mode : Rnd) (r : RMode) (bits : List Nat) : Nat × FFlags :=
  let w := m.ety.width
  if m.ety.isFloat then
    let fmt := etyFmt m.ety
    let y := redF red (decide (mode = .rdn)) (bits.map fun b => (fmt.value b).modify m.negA m.absA)
    fpFinish fmt m r y.1 y.2
  else
    let sg := !m.ety.isUnsigned
    (intFinish m.ety m r (redI red sg w (bits.map fun b => modInt (intVal sg w b) m.negA m.absA)), fNone)

/-- Values of one row, or of one row pair for f64. -/
def rowValues (w : Nat) : Nat := if w = 64 then 1 else 32 / w

/-- VREDC (R183), latency 4: each sub-element position of the column separately. -/
def redcBody (o : AxRed) (s : State) : Res :=
  let mode := s.mode o.m.rnd
  let w := o.m.ety.width
  let per := rowValues w
  let n := o.m.ety.count / per
  tileOp 4 o.d o.m.pred mode (some o.a) (fun sr i j =>
    let ca := s.srcCol o.a j
    let rs := (List.range per).map fun q =>
      reduce o.red.toNat o.m mode (mkMode mode sr i (if w = 64 then 0 else q) w)
        ((List.range n).map fun r => posBits w ca (r * per + q))
    packRes w ((List.range o.m.ety.count).map fun v => rs.getD (v % per) (0, fNone))) s

/-- VREDW (R183, R184), latency 8: each sub-element position of each row over its 64 columns; the dynamic mode is that
of cluster 0, and SR acts as RNE. -/
def redwBody (o : AxRed) (s : State) : Res :=
  let mode := match effRnd o.m.rnd (s.myCore.cluster 0).rnd with | .sr => .rne | m => m
  let w := o.m.ety.width
  let k := s.myCore
  let cols := (List.range 64).map fun j => k.column o.a.toNat j
  let rs := (List.range o.m.ety.count).map fun v =>
    reduce o.red.toNat o.m mode (mkMode mode 0 0 0 w) (cols.map fun c => posBits w c v)
  tileOp 8 o.d o.m.pred .rne (some o.a) (fun _ _ _ => packRes w rs) s

/-! ### Moves and predicates -/

/-- VMOV (R185). -/
def movBody (o : Mov2) (s : State) : Res :=
  tileOp 2 o.td o.pred .rne (some o.ta) (fun _ _ j => (s.srcCol o.ta j, fNone)) s

/-- VSPLAT (R185). -/
def splatBody (o : Mov2) (s : State) : Res :=
  let v : Elem := (s.x o.ta).setWidth 32
  tileOp 2 o.td o.pred .rne none (fun _ _ _ => ((List.range 16).map fun _ => v, fNone)) s

/-- VINS (R185): one element, where its column's predicate bit is 1. -/
def insBody (o : Mov3) (s : State) : Res :=
  if s.myCore.locked o.td.toNat then .stall (.lock o.td.toNat)
  else
    let ix := (s.x o.tb).toNat
    let k := ix % 16
    let row := ix / 16 % 16
    let s := s.modMe fun c => { c with latch := none }
    if (s.p o.pred).getLsbD k then
      .done (s.result 2 (.tile [(tileKey o.td.toNat row (16 * s.curCl + k), (s.x o.ta).setWidth 32)]))
    else .done s

/-- VEXT (R185). -/
def extBody (o : VextOps) (s : State) : Res :=
  let ix := (s.x o.tb).toNat
  let v := s.myCore.tile o.ta.toNat (ix / 16 % 16) (16 * s.curCl + ix % 16)
  .done ((s.modMe fun c => { c with latch := some o.ta }).resultX 2 o.xd (v.zeroExtend 64))

/-- A predicate result, latency 1; a write to P0 is discarded (R186). -/
def toP (pd : BitVec 3) (v : BitVec 16) (s : State) : Res := .done (s.result 1 (.p pd.toNat (BitVec.allOnes 16) v))

/-- VADD (R173). -/
def bodyVadd (o : T2) (s : State) : Res :=
  fpBody .add o.d o.a o.m (fun j => s.srcCol o.b j) (fun _ => []) s

/-- The step of VADD. -/
def execVadd (o : T2) (s : State) : Host.Outcome State Fault Refusal :=
  s.issue (.vadd o) (bodyVadd o)

/-- VADD_LIT (R172). -/
def bodyVaddLit (o : T2L) (s : State) : Res :=
  fpBody .add o.d o.a o.m (fun _ => litCol o.m.ety o.lit) (fun _ => []) s

/-- The step of VADD_LIT. -/
def execVaddLit (o : T2L) (s : State) : Host.Outcome State Fault Refusal :=
  s.issue (.vaddLit o) (bodyVaddLit o)

/-- VSUB (R173). -/
def bodyVsub (o : T2) (s : State) : Res :=
  fpBody .sub o.d o.a o.m (fun j => s.srcCol o.b j) (fun _ => []) s

/-- The step of VSUB. -/
def execVsub (o : T2) (s : State) : Host.Outcome State Fault Refusal :=
  s.issue (.vsub o) (bodyVsub o)

/-- VSUB_LIT (R172). -/
def bodyVsubLit (o : T2L) (s : State) : Res :=
  fpBody .sub o.d o.a o.m (fun _ => litCol o.m.ety o.lit) (fun _ => []) s

/-- The step of VSUB_LIT. -/
def execVsubLit (o : T2L) (s : State) : Host.Outcome State Fault Refusal :=
  s.issue (.vsubLit o) (bodyVsubLit o)

/-- VMUL (R173). -/
def bodyVmul (o : T2) (s : State) : Res :=
  fpBody .mul o.d o.a o.m (fun j => s.srcCol o.b j) (fun _ => []) s

/-- The step of VMUL. -/
def execVmul (o : T2) (s : State) : Host.Outcome State Fault Refusal :=
  s.issue (.vmul o) (bodyVmul o)

/-- VMUL_LIT (R172). -/
def bodyVmulLit (o : T2L) (s : State) : Res :=
  fpBody .mul o.d o.a o.m (fun _ => litCol o.m.ety o.lit) (fun _ => []) s

/-- The step of VMUL_LIT. -/
def execVmulLit (o : T2L) (s : State) : Host.Outcome State Fault Refusal :=
  s.issue (.vmulLit o) (bodyVmulLit o)

/-- VMIN (R173). -/
def bodyVmin (o : T2) (s : State) : Res :=
  fpBody .min o.d o.a o.m (fun j => s.srcCol o.b j) (fun _ => []) s

/-- The step of VMIN. -/
def execVmin (o : T2) (s : State) : Host.Outcome State Fault Refusal :=
  s.issue (.vmin o) (bodyVmin o)

/-- VMIN_LIT (R172). -/
def bodyVminLit (o : T2L) (s : State) : Res :=
  fpBody .min o.d o.a o.m (fun _ => litCol o.m.ety o.lit) (fun _ => []) s

/-- The step of VMIN_LIT. -/
def execVminLit (o : T2L) (s : State) : Host.Outcome State Fault Refusal :=
  s.issue (.vminLit o) (bodyVminLit o)

/-- VMAX (R173). -/
def bodyVmax (o : T2) (s : State) : Res :=
  fpBody .max o.d o.a o.m (fun j => s.srcCol o.b j) (fun _ => []) s

/-- The step of VMAX. -/
def execVmax (o : T2) (s : State) : Host.Outcome State Fault Refusal :=
  s.issue (.vmax o) (bodyVmax o)

/-- VMAX_LIT (R172). -/
def bodyVmaxLit (o : T2L) (s : State) : Res :=
  fpBody .max o.d o.a o.m (fun _ => litCol o.m.ety o.lit) (fun _ => []) s

/-- The step of VMAX_LIT. -/
def execVmaxLit (o : T2L) (s : State) : Host.Outcome State Fault Refusal :=
  s.issue (.vmaxLit o) (bodyVmaxLit o)

/-- VFMA (R173). -/
def bodyVfma (o : T3) (s : State) : Res :=
  fpBody .fma o.d o.a o.m (fun j => s.srcCol o.b j) (fun j => s.srcCol o.c j) s

/-- The step of VFMA. -/
def execVfma (o : T3) (s : State) : Host.Outcome State Fault Refusal :=
  s.issue (.vfma o) (bodyVfma o)

/-- VFMA_LIT (R172). -/
def bodyVfmaLit (o : T3L) (s : State) : Res :=
  fpBody .fma o.d o.a o.m (fun _ => litCol o.m.ety o.lit) (fun j => s.srcCol o.c j) s

/-- The step of VFMA_LIT. -/
def execVfmaLit (o : T3L) (s : State) : Host.Outcome State Fault Refusal :=
  s.issue (.vfmaLit o) (bodyVfmaLit o)

/-- VIADD (R174). -/
def bodyViadd (o : T2) (s : State) : Res :=
  intBody .add o.d o.a o.m (fun j => s.srcCol o.b j) s

/-- The step of VIADD. -/
def execViadd (o : T2) (s : State) : Host.Outcome State Fault Refusal :=
  s.issue (.viadd o) (bodyViadd o)

/-- VIADD_LIT (R172). -/
def bodyViaddLit (o : T2L) (s : State) : Res :=
  intBody .add o.d o.a o.m (fun _ => litCol o.m.ety o.lit) s

/-- The step of VIADD_LIT. -/
def execViaddLit (o : T2L) (s : State) : Host.Outcome State Fault Refusal :=
  s.issue (.viaddLit o) (bodyViaddLit o)

/-- VISUB (R174). -/
def bodyVisub (o : T2) (s : State) : Res :=
  intBody .sub o.d o.a o.m (fun j => s.srcCol o.b j) s

/-- The step of VISUB. -/
def execVisub (o : T2) (s : State) : Host.Outcome State Fault Refusal :=
  s.issue (.visub o) (bodyVisub o)

/-- VISUB_LIT (R172). -/
def bodyVisubLit (o : T2L) (s : State) : Res :=
  intBody .sub o.d o.a o.m (fun _ => litCol o.m.ety o.lit) s

/-- The step of VISUB_LIT. -/
def execVisubLit (o : T2L) (s : State) : Host.Outcome State Fault Refusal :=
  s.issue (.visubLit o) (bodyVisubLit o)

/-- VIMUL (R174). -/
def bodyVimul (o : T2) (s : State) : Res :=
  intBody .mul o.d o.a o.m (fun j => s.srcCol o.b j) s

/-- The step of VIMUL. -/
def execVimul (o : T2) (s : State) : Host.Outcome State Fault Refusal :=
  s.issue (.vimul o) (bodyVimul o)

/-- VIMUL_LIT (R172). -/
def bodyVimulLit (o : T2L) (s : State) : Res :=
  intBody .mul o.d o.a o.m (fun _ => litCol o.m.ety o.lit) s

/-- The step of VIMUL_LIT. -/
def execVimulLit (o : T2L) (s : State) : Host.Outcome State Fault Refusal :=
  s.issue (.vimulLit o) (bodyVimulLit o)

/-- VAND (R174). -/
def bodyVand (o : T2) (s : State) : Res :=
  logBody .and o.d o.a o.m (fun j => s.srcCol o.b j) s

/-- The step of VAND. -/
def execVand (o : T2) (s : State) : Host.Outcome State Fault Refusal :=
  s.issue (.vand o) (bodyVand o)

/-- VAND_LIT (R172). -/
def bodyVandLit (o : T2L) (s : State) : Res :=
  logBody .and o.d o.a o.m (fun _ => litCol o.m.ety o.lit) s

/-- The step of VAND_LIT. -/
def execVandLit (o : T2L) (s : State) : Host.Outcome State Fault Refusal :=
  s.issue (.vandLit o) (bodyVandLit o)

/-- VOR (R174). -/
def bodyVor (o : T2) (s : State) : Res :=
  logBody .or o.d o.a o.m (fun j => s.srcCol o.b j) s

/-- The step of VOR. -/
def execVor (o : T2) (s : State) : Host.Outcome State Fault Refusal :=
  s.issue (.vor o) (bodyVor o)

/-- VOR_LIT (R172). -/
def bodyVorLit (o : T2L) (s : State) : Res :=
  logBody .or o.d o.a o.m (fun _ => litCol o.m.ety o.lit) s

/-- The step of VOR_LIT. -/
def execVorLit (o : T2L) (s : State) : Host.Outcome State Fault Refusal :=
  s.issue (.vorLit o) (bodyVorLit o)

/-- VXOR (R174). -/
def bodyVxor (o : T2) (s : State) : Res :=
  logBody .xor o.d o.a o.m (fun j => s.srcCol o.b j) s

/-- The step of VXOR. -/
def execVxor (o : T2) (s : State) : Host.Outcome State Fault Refusal :=
  s.issue (.vxor o) (bodyVxor o)

/-- VXOR_LIT (R172). -/
def bodyVxorLit (o : T2L) (s : State) : Res :=
  logBody .xor o.d o.a o.m (fun _ => litCol o.m.ety o.lit) s

/-- The step of VXOR_LIT. -/
def execVxorLit (o : T2L) (s : State) : Host.Outcome State Fault Refusal :=
  s.issue (.vxorLit o) (bodyVxorLit o)

/-- VSHL (R174). -/
def bodyVshl (o : T2) (s : State) : Res :=
  logBody .shl o.d o.a o.m (fun j => s.srcCol o.b j) s

/-- The step of VSHL. -/
def execVshl (o : T2) (s : State) : Host.Outcome State Fault Refusal :=
  s.issue (.vshl o) (bodyVshl o)

/-- VSHL_LIT (R172). -/
def bodyVshlLit (o : T2L) (s : State) : Res :=
  logBody .shl o.d o.a o.m (fun _ => litCol o.m.ety o.lit) s

/-- The step of VSHL_LIT. -/
def execVshlLit (o : T2L) (s : State) : Host.Outcome State Fault Refusal :=
  s.issue (.vshlLit o) (bodyVshlLit o)

/-- VSHR (R174). -/
def bodyVshr (o : T2) (s : State) : Res :=
  logBody .shr o.d o.a o.m (fun j => s.srcCol o.b j) s

/-- The step of VSHR. -/
def execVshr (o : T2) (s : State) : Host.Outcome State Fault Refusal :=
  s.issue (.vshr o) (bodyVshr o)

/-- VSHR_LIT (R172). -/
def bodyVshrLit (o : T2L) (s : State) : Res :=
  logBody .shr o.d o.a o.m (fun _ => litCol o.m.ety o.lit) s

/-- The step of VSHR_LIT. -/
def execVshrLit (o : T2L) (s : State) : Host.Outcome State Fault Refusal :=
  s.issue (.vshrLit o) (bodyVshrLit o)

/-- VSAR (R174). -/
def bodyVsar (o : T2) (s : State) : Res :=
  logBody .sar o.d o.a o.m (fun j => s.srcCol o.b j) s

/-- The step of VSAR. -/
def execVsar (o : T2) (s : State) : Host.Outcome State Fault Refusal :=
  s.issue (.vsar o) (bodyVsar o)

/-- VSAR_LIT (R172). -/
def bodyVsarLit (o : T2L) (s : State) : Res :=
  logBody .sar o.d o.a o.m (fun _ => litCol o.m.ety o.lit) s

/-- The step of VSAR_LIT. -/
def execVsarLit (o : T2L) (s : State) : Host.Outcome State Fault Refusal :=
  s.issue (.vsarLit o) (bodyVsarLit o)

/-- VSEL (R175). -/
def bodyVsel (o : SelOps) (s : State) : Res :=
  selBody o.d o.a o.sel o.m (fun j => s.srcCol o.b j) s

/-- The step of VSEL. -/
def execVsel (o : SelOps) (s : State) : Host.Outcome State Fault Refusal :=
  s.issue (.vsel o) (bodyVsel o)

/-- VSEL_LIT (R172). -/
def bodyVselLit (o : SelLOps) (s : State) : Res :=
  selBody o.d o.a o.sel o.m (fun _ => litCol o.m.ety o.lit) s

/-- The step of VSEL_LIT. -/
def execVselLit (o : SelLOps) (s : State) : Host.Outcome State Fault Refusal :=
  s.issue (.vselLit o) (bodyVselLit o)

/-- VCMP (R176). -/
def bodyVcmp (o : CmpOps) (s : State) : Res :=
  cmpBody o.pd o.a o.cond o.any o.m (fun j => s.srcCol o.b j) s

/-- The step of VCMP. -/
def execVcmp (o : CmpOps) (s : State) : Host.Outcome State Fault Refusal :=
  s.issue (.vcmp o) (bodyVcmp o)

/-- VCMP_LIT (R172). -/
def bodyVcmpLit (o : CmpLOps) (s : State) : Res :=
  cmpBody o.pd o.a o.cond o.any o.m (fun _ => litCol o.m.ety o.lit) s

/-- The step of VCMP_LIT. -/
def execVcmpLit (o : CmpLOps) (s : State) : Host.Outcome State Fault Refusal :=
  s.issue (.vcmpLit o) (bodyVcmpLit o)

/-- VRCP (R177). -/
def bodyVrcp (o : T1) (s : State) : Res :=
  spBody .rcp o s

/-- The step of VRCP. -/
def execVrcp (o : T1) (s : State) : Host.Outcome State Fault Refusal :=
  s.issue (.vrcp o) (bodyVrcp o)

/-- VRSQ (R177). -/
def bodyVrsq (o : T1) (s : State) : Res :=
  spBody .rsq o s

/-- The step of VRSQ. -/
def execVrsq (o : T1) (s : State) : Host.Outcome State Fault Refusal :=
  s.issue (.vrsq o) (bodyVrsq o)

/-- VSQRT (R177). -/
def bodyVsqrt (o : T1) (s : State) : Res :=
  spBody .sqrt o s

/-- The step of VSQRT. -/
def execVsqrt (o : T1) (s : State) : Host.Outcome State Fault Refusal :=
  s.issue (.vsqrt o) (bodyVsqrt o)

/-- VEXP2 (R177). -/
def bodyVexp2 (o : T1) (s : State) : Res :=
  spBody .exp2 o s

/-- The step of VEXP2. -/
def execVexp2 (o : T1) (s : State) : Host.Outcome State Fault Refusal :=
  s.issue (.vexp2 o) (bodyVexp2 o)

/-- VLOG2 (R177). -/
def bodyVlog2 (o : T1) (s : State) : Res :=
  spBody .log2 o s

/-- The step of VLOG2. -/
def execVlog2 (o : T1) (s : State) : Host.Outcome State Fault Refusal :=
  s.issue (.vlog2 o) (bodyVlog2 o)

/-- VSIN (R177). -/
def bodyVsin (o : T1) (s : State) : Res :=
  spBody .sin o s

/-- The step of VSIN. -/
def execVsin (o : T1) (s : State) : Host.Outcome State Fault Refusal :=
  s.issue (.vsin o) (bodyVsin o)

/-- VCOS (R177). -/
def bodyVcos (o : T1) (s : State) : Res :=
  spBody .cos o s

/-- The step of VCOS. -/
def execVcos (o : T1) (s : State) : Host.Outcome State Fault Refusal :=
  s.issue (.vcos o) (bodyVcos o)

/-- VTANH (R177). -/
def bodyVtanh (o : T1) (s : State) : Res :=
  spBody .tanh o s

/-- The step of VTANH. -/
def execVtanh (o : T1) (s : State) : Host.Outcome State Fault Refusal :=
  s.issue (.vtanh o) (bodyVtanh o)

/-- VSIGM (R177). -/
def bodyVsigm (o : T1) (s : State) : Res :=
  spBody .sigm o s

/-- The step of VSIGM. -/
def execVsigm (o : T1) (s : State) : Host.Outcome State Fault Refusal :=
  s.issue (.vsigm o) (bodyVsigm o)

/-- VERF (R177). -/
def bodyVerf (o : T1) (s : State) : Res :=
  spBody .erf o s

/-- The step of VERF. -/
def execVerf (o : T1) (s : State) : Host.Outcome State Fault Refusal :=
  s.issue (.verf o) (bodyVerf o)

/-- VCVT (R179). -/
def bodyVcvt (o : CvtOps) (s : State) : Res :=
  cvtBody o s

/-- The step of VCVT. -/
def execVcvt (o : CvtOps) (s : State) : Host.Outcome State Fault Refusal :=
  s.issue (.vcvt o) (bodyVcvt o)

/-- VPACK (R180). -/
def bodyVpack (o : PackOps) (s : State) : Res :=
  packBody o s

/-- The step of VPACK. -/
def execVpack (o : PackOps) (s : State) : Host.Outcome State Fault Refusal :=
  s.issue (.vpack o) (bodyVpack o)

/-- VUNPK (R181). -/
def bodyVunpk (o : UnpkOps) (s : State) : Res :=
  unpkBody o s

/-- The step of VUNPK. -/
def execVunpk (o : UnpkOps) (s : State) : Host.Outcome State Fault Refusal :=
  s.issue (.vunpk o) (bodyVunpk o)

/-- VROTC (R182). -/
def bodyVrotc (o : AxN4) (s : State) : Res :=
  axisMove 2 o.d o.a o.m.pred (fun i j => ((i + o.n.toNat) % 16, j)) s

/-- The step of VROTC. -/
def execVrotc (o : AxN4) (s : State) : Host.Outcome State Fault Refusal :=
  s.issue (.vrotc o) (bodyVrotc o)

/-- VBCC (R182). -/
def bodyVbcc (o : AxN4) (s : State) : Res :=
  axisMove 2 o.d o.a o.m.pred (fun _ j => (o.n.toNat, j)) s

/-- The step of VBCC. -/
def execVbcc (o : AxN4) (s : State) : Host.Outcome State Fault Refusal :=
  s.issue (.vbcc o) (bodyVbcc o)

/-- VREDC (R183). -/
def bodyVredc (o : AxRed) (s : State) : Res :=
  redcBody o s

/-- The step of VREDC. -/
def execVredc (o : AxRed) (s : State) : Host.Outcome State Fault Refusal :=
  s.issue (.vredc o) (bodyVredc o)

/-- VROTW (R182). -/
def bodyVrotw (o : AxN5) (s : State) : Res :=
  axisMove 6 o.d o.a o.m.pred (fun i j => (i, (j + o.n.toNat) % 64)) s

/-- The step of VROTW. -/
def execVrotw (o : AxN5) (s : State) : Host.Outcome State Fault Refusal :=
  s.issue (.vrotw o) (bodyVrotw o)

/-- VBCW (R182). -/
def bodyVbcw (o : AxN2) (s : State) : Res :=
  axisMove 6 o.d o.a o.m.pred (fun i j => (i, 16 * o.n.toNat + j % 16)) s

/-- The step of VBCW. -/
def execVbcw (o : AxN2) (s : State) : Host.Outcome State Fault Refusal :=
  s.issue (.vbcw o) (bodyVbcw o)

/-- VBCW_COL (R182). -/
def bodyVbcwCol (o : AxN4) (s : State) : Res :=
  axisMove 6 o.d o.a o.m.pred (fun i j => (i, 16 * (j / 16) + o.n.toNat)) s

/-- The step of VBCW_COL. -/
def execVbcwCol (o : AxN4) (s : State) : Host.Outcome State Fault Refusal :=
  s.issue (.vbcwCol o) (bodyVbcwCol o)

/-- VREDW (R183). -/
def bodyVredw (o : AxRed) (s : State) : Res :=
  redwBody o s

/-- The step of VREDW. -/
def execVredw (o : AxRed) (s : State) : Host.Outcome State Fault Refusal :=
  s.issue (.vredw o) (bodyVredw o)

/-- VTRN (R182). -/
def bodyVtrn (o : T1) (s : State) : Res :=
  axisMove 6 o.d o.a o.m.pred (fun i j => (j % 16, 16 * (j / 16) + i)) s

/-- The step of VTRN. -/
def execVtrn (o : T1) (s : State) : Host.Outcome State Fault Refusal :=
  s.issue (.vtrn o) (bodyVtrn o)

/-- VMOV (R185). -/
def bodyVmov (o : Mov2) (s : State) : Res :=
  movBody o s

/-- The step of VMOV. -/
def execVmov (o : Mov2) (s : State) : Host.Outcome State Fault Refusal :=
  s.issue (.vmov o) (bodyVmov o)

/-- VSPLAT (R185). -/
def bodyVsplat (o : Mov2) (s : State) : Res :=
  splatBody o s

/-- The step of VSPLAT. -/
def execVsplat (o : Mov2) (s : State) : Host.Outcome State Fault Refusal :=
  s.issue (.vsplat o) (bodyVsplat o)

/-- VINS (R185). -/
def bodyVins (o : Mov3) (s : State) : Res :=
  insBody o s

/-- The step of VINS. -/
def execVins (o : Mov3) (s : State) : Host.Outcome State Fault Refusal :=
  s.issue (.vins o) (bodyVins o)

/-- VEXT (R185). -/
def bodyVext (o : VextOps) (s : State) : Res :=
  extBody o s

/-- The step of VEXT. -/
def execVext (o : VextOps) (s : State) : Host.Outcome State Fault Refusal :=
  s.issue (.vext o) (bodyVext o)

/-- PAND (R186). -/
def bodyPand (o : Pred3) (s : State) : Res :=
  toP o.pd (s.p o.pa &&& s.p o.pb) s

/-- The step of PAND. -/
def execPand (o : Pred3) (s : State) : Host.Outcome State Fault Refusal :=
  s.issue (.pand o) (bodyPand o)

/-- POR (R186). -/
def bodyPor (o : Pred3) (s : State) : Res :=
  toP o.pd (s.p o.pa ||| s.p o.pb) s

/-- The step of POR. -/
def execPor (o : Pred3) (s : State) : Host.Outcome State Fault Refusal :=
  s.issue (.por o) (bodyPor o)

/-- PNOT (R186). -/
def bodyPnot (o : Pred2) (s : State) : Res :=
  toP o.pd (~~~ s.p o.pa) s

/-- The step of PNOT. -/
def execPnot (o : Pred2) (s : State) : Host.Outcome State Fault Refusal :=
  s.issue (.pnot o) (bodyPnot o)

/-- PSET (R186). -/
def bodyPset (o : PSetOps) (s : State) : Res :=
  toP o.pd o.imm s

/-- The step of PSET. -/
def execPset (o : PSetOps) (s : State) : Host.Outcome State Fault Refusal :=
  s.issue (.pset o) (bodyPset o)

end Sys2Proof.Machine
end

