-- ==== Sys2Proof/Machine/Matrix.lean ====
section
/-!
DEFINITION. The matrix engine: the tile configuration block (R202-R205), MXLDS, MXRUN, MXOUT, MXZERO and MXRDA (R221-R227) under
the timing of Table 15-8, and the accumulation tree (R118, R119).
-/

namespace Sys2Proof.Machine

/-! ### The tile configuration block (Table 15-1) -/

/-- m -/
def tcbM (t : Word) : Nat := fld t.toNat 0 7
/-- n -/
def tcbN (t : Word) : Nat := fld t.toNat 8 7
/-- k -/
def tcbK (t : Word) : Nat := fld t.toNat 16 11
/-- afmt -/
def tcbA (t : Word) : Nat := fld t.toNat 28 4
/-- wfmt -/
def tcbW (t : Word) : Nat := fld t.toNat 32 4

/-- g of R204: products per processing element. -/
def pairs (a w : Nat) : Nat := 64 / max (engWidth a) (engWidth w)

/-- The SHAPE reason of a TCFG operand (R205). -/
def tcbBad (t : Word) : Option Nat :=
  let v := t.toNat
  if v.testBit 7 || v.testBit 15 || v.testBit 27 || decide (v / 2 ^ 36 ≠ 0) then some 1
  else if !engAct (tcbA t) || !engWgt (tcbW t) then some 2
  else if tcbM t = 0 ∨ 64 < tcbM t ∨ tcbN t = 0 ∨ 64 < tcbN t ∨ tcbK t = 0 ∨ 64 * pairs (tcbA t) (tcbW t) < tcbK t then some 3
  else if (engScaled (tcbA t) || engScaled (tcbW t)) && decide (tcbK t % 32 ≠ 0) then some 3
  else none

/-! ### The accumulation tree -/

/-- A value rounded to binary128 (R118). -/
def round128 (v : FVal) : FVal := Fmt.b128.value (Fmt.b128.ofVal .rne v).1

/-- round_rne of the sum of two binary128 values. -/
def add128 (x y : FVal) : FVal := round128 (x.add false y)

/-- One level: sums of neighbours. -/
def treeLevel : List FVal → List FVal
  | a :: b :: t => add128 a b :: treeLevel t
  | l => l

/-- Six levels over the 64 processing elements. -/
def tree : Nat → List FVal → FVal
  | 0, l => l.headD (.fin false 0 0)
  | n + 1, l => tree n (treeLevel l)

/-- c[p] of processing element `p` (R118, R204): the exact sum of its g products, rounded once; elements at or above k give
exact zeros. -/
def peSum (a w : List FVal) (g k p : Nat) : FVal :=
  let prod (q : Nat) : FVal :=
    let e := g * p + q
    if e < k then (a.getD e (.fin false 0 0)).mul (w.getD e (.fin false 0 0)) else .fin false 0 0
  match (List.range g).map prod with
  | [] => .fin false 0 0
  | x :: t => round128 (t.foldl (fun s y => s.add false y) x)

/-- c[0] of a column: what is added to the accumulator element. -/
def columnSum (a w : List FVal) (g k : Nat) : FVal := tree 6 ((List.range 64).map (peSum a w g k))

/-- The last step of R118 on accumulator patterns. -/
def accAdd (x y : BitVec 128) : BitVec 128 :=
  BitVec.ofNat 128 (Fmt.b128.ofVal .rne ((Fmt.b128.value x.toNat).add false (Fmt.b128.value y.toNat))).1

/-- The number of an accumulator element. -/
def accKey (a i j : Nat) : Nat := 4096 * a + 64 * i + j

/-! ### Weight planes (R223, R224) -/

/-- Which plane is active. -/
def Core.activePlane (k : Core) : Nat := k.active.toNat

/-- Which is the shadow plane. -/
def Core.shadowPlane (k : Core) : Nat := 1 - k.active.toNat

/-- A column of a plane. -/
def Core.planeCol (k : Core) (pl j n : Nat) : List FVal :=
  (List.range n).map fun e => SMap.get (.fin false 0 0) k.planes (65536 * pl + 1024 * j + e)

/-- Write a column of the shadow plane. -/
def Core.setPlaneCol (k : Core) (j : Nat) (vs : List FVal) : Core :=
  let new := ((List.range vs.length).zip vs).map fun p => (65536 * k.shadowPlane + 1024 * j + p.1, p.2)
  { k with planes := SMap.setAll (.fin false 0 0) k.planes new }

/-- Clear a plane. -/
def Core.clearPlane (k : Core) (pl : Nat) : Core :=
  { k with planes := k.planes.filter fun e => decide (e.1 / 65536 ≠ pl) }

/-! ### Starting matrix commands -/

/-- Row `r` of a stream operand with its scales (R208). -/
def State.streamRow (s : State) (d fmt k r : Nat) : Except (Nat × Word) (State × Nat × List Byte × Option Word) :=
  match s.engRead ((sdBase d + r * sdPitch d) % 2 ^ 64) (engRowBytes fmt k) with
  | .error e => .error e
  | .ok (s, bs, g) =>
      if engScaled fmt then
        match s.engRead ((sdSbase d + r * sdSpitch d) % 2 ^ 64) ((k + 31) / 32) with
        | .error e => .error e
        | .ok (s, sc, g2) => .ok (s, leNat bs, sc, firstTouch g g2)
      else .ok (s, leNat bs, [], g)

/-- The array is taken until cycle `until_` by results other than MXRUN's, and every result has landed by then. -/
def State.holdArray (s : State) (landed : Nat) : State :=
  s.modMyCore fun k => { k with arrayFree := max k.arrayFree landed, otherFree := max k.otherFree landed }

/-- MXLDS at issue (R223). -/
def startMxlds (c : QCmd) (s : State) : Start :=
  match c.cmd.op with
  | .mxlds sr =>
      let t := s.myCore.tcb
      let d := s.myCore.sreg sr.toNat
      if s.cycle < s.myCore.loaderFree then .wait
      else
        let go (s : State) : Start :=
          let i := s.issued c d 0
          .go (s.modMyCore fun k => { k with loaderFree := s.cycle + (tcbN t - i.r.row) }) i
        if c.resume.isSome then go s
        else if tcbM t = 0 then .fault cSHAPE (engShape 3 0).2
        else match sdCheck d (tcbW t) (tcbN t) (engRowBytes (tcbW t) (tcbK t)) false sr.toNat with
          | some e => .fault e.1 e.2
          | none => go ((s.advanceStream sr.toNat).modMyCore fun k => k.clearPlane k.shadowPlane)
  | _ => .wait

/-- The tile registers an MXRUN with a tile source reads, and the tile rows of an activation row (R225). -/
def runTiles (t : Word) (src : Nat) : List Nat × Nat :=
  let r := if tcbK t * engWidth (tcbA t) ≤ 2048 then 1 else 2
  ((List.range ((tcbM t * r + 15) / 16)).map fun x => src + x, r)

/-- The activation row whose reading reads register number `x` of the source for the last time. -/
def lastRowOf (t : Word) (r x : Nat) : Nat := min (tcbM t * r - 1) (16 * x + 15) / r

/-- MXRUN at issue (R224, R225). -/
def startMxrun (c : QCmd) (s : State) : Start :=
  match c.cmd.op with
  | .mxrun _ swap tile src =>
      let k := s.myCore
      let t := k.tcb
      let d := k.sreg src.toNat
      if s.cycle < k.runFree ∨ s.cycle < k.otherFree ∨ (swap ∧ s.cycle < k.loaderFree) then .wait
      else
        let go (s : State) : Start :=
          let i := s.issued c d 0
          let rows := tcbM t - i.r.row
          .go (s.modMyCore fun k =>
            { k with runFree := s.cycle + rows, arrayFree := max k.arrayFree (s.cycle + rows + 23) }) i
        let swapped (s : State) : State := if swap then s.modMyCore fun k => { k with active := !k.active } else s
        if c.resume.isSome then go s
        else if tcbM t = 0 then .fault cSHAPE (engShape 3 0).2
        else if tile then
          (if engScaled (tcbA t) then .fault cSHAPE (engShape 2 src.toNat).2 else go (swapped s))
        else match sdCheck d (tcbA t) (tcbM t) (engRowBytes (tcbA t) (tcbK t)) false src.toNat with
          | some e => .fault e.1 e.2
          | none => go (swapped (s.advanceStream src.toNat))
  | _ => .wait

/-- MXOUT at issue (R226). -/
def startMxout (c : QCmd) (s : State) : Start :=
  match c.cmd.op with
  | .mxout _ _ tile dst fmt _ _ _ =>
      let k := s.myCore
      let t := k.tcb
      let d := k.sreg dst.toNat
      let f := fmt.toNat
      if s.cycle < k.arrayFree then .wait
      else
        let go (s : State) : Start :=
          let i := s.issued c d 0
          let rows := tcbM t - i.r.row
          .go (s.holdArray (s.cycle + rows + (if tile then 3 else 0))) i
        if c.resume.isSome then go s
        else if tcbM t = 0 then .fault cSHAPE (engShape 3 0).2
        else if !engOut f || (tile && decide (f ≠ 0)) then .fault cSHAPE (engShape 2 dst.toNat).2
        else if tile then go s
        else match sdCheck d f (tcbM t) (tcbN t * engWidth f / 8) true dst.toNat with
          | some e => .fault e.1 e.2
          | none =>
              if engWidth f = 4 ∧ tcbN t % 2 = 1 then .fault cSHAPE (engShape 3 dst.toNat).2
              else go (s.advanceStream dst.toNat)
  | _ => .wait

/-- MXZERO at issue (R227): it lands at the end of its issue cycle. -/
def startMxzero (c : QCmd) (s : State) : Start :=
  match c.cmd.op with
  | .mxzero mask =>
      if s.cycle < s.myCore.arrayFree then .wait
      else
        let s := (s.land s.curCore 4 s.cycle (.accZero mask.toNat)).holdArray (s.cycle + 1)
        .go s { s.issued c 0 0 with doneAt := some s.cycle }
  | _ => .wait

/-- MXRDA at issue (R227). -/
def startMxrda (sr : Nat) (load : Bool) (c : QCmd) (s : State) : Start :=
  let k := s.myCore
  let t := k.tcb
  let d := k.sreg sr
  if s.cycle < k.arrayFree then .wait
  else
    let go (s : State) : Start :=
      let i := s.issued c d 0
      .go (s.holdArray (s.cycle + (tcbM t - i.r.row) + (if load then 1 else 0))) i
    if c.resume.isSome then go s
    else if tcbM t = 0 then .fault cSHAPE (engShape 3 0).2
    else match sdCheck d 10 (tcbM t) (tcbN t * 16) (!load) sr with
      | some e => .fault e.1 e.2
      | none => go (s.advanceStream sr)

/-- MXRDA.st at issue. -/
def startMxrdaSt (c : QCmd) (s : State) : Start :=
  match c.cmd.op with
  | .mxrdaSt _ sr => startMxrda sr.toNat false c s
  | _ => .wait

/-- MXRDA.ld at issue. -/
def startMxrdaLd (c : QCmd) (s : State) : Start :=
  match c.cmd.op with
  | .mxrdaLd _ sr => startMxrda sr.toNat true c s
  | _ => .wait

/-! ### Rows (Table 15-8) -/

/-- Row `r` of an issued command is done: its next row, and the cycle of its last access when it was the last. -/
def State.rowDone (s : State) (i : Issued) (r : Nat) (done : Option Nat) (g : Option Word) : State :=
  s.modIssued i.id fun x => { x with r := { x.r with row := r + 1 }, doneAt := done, guard := firstTouch x.guard g }

/-- A matrix command stops at a row: its pipe is free from the next cycle. -/
def State.stopMatrix (s : State) (i : Issued) (row : Nat) (e : Nat × Word) : State :=
  (s.stopIssued i row e.1 e.2).modMyCore fun k =>
    match i.c.cmd.op with
    | .mxlds _ => { k with loaderFree := s.cycle + 1 }
    | .mxrun .. => { k with runFree := s.cycle + 1 }
    | _ => { k with otherFree := min k.otherFree (s.cycle + 4) }

/-- An access of row `row` of an issued command outside the own scratchpad is made after an open time (R222, R370): whether it is made in
this cycle. -/
def State.rowGate (s : State) (x : Issued) (row : Nat) (own : Bool) : State × Bool :=
  if own then (s, true)
  else
    let t := s.openAt x.gate row
    ((s.drawn x.gate row).modIssued x.id fun z => { z with gate := (row + 1, t) }, decide (t ≤ s.cycle))

/-- A row is late by one cycle, and with it all that follows in its pipe. -/
def State.stallRow (s : State) (x : Issued) : State :=
  (s.modIssued x.id fun z => { z with t0 := z.t0 + 1 }).modMyCore fun k =>
    match x.c.cmd.op with
    | .mxlds _ => { k with loaderFree := k.loaderFree + 1 }
    | .mxrun .. => { k with runFree := k.runFree + 1, arrayFree := k.arrayFree + 1 }
    | _ => { k with arrayFree := k.arrayFree + 1, otherFree := k.otherFree + 1 }

/-- Whether row `r` of a stream operand of `n` bytes, with `sc` bytes of scales, lies in the own scratchpad. -/
def State.ownRow (s : State) (d n sc r : Nat) : Bool :=
  s.ownBytes (unitEngine s.curCore) ((sdBase d + r * sdPitch d) % 2 ^ 64) n &&
    s.ownBytes (unitEngine s.curCore) ((sdSbase d + r * sdSpitch d) % 2 ^ 64) sc

/-- The bytes of scales of a row of `k` elements. -/
def scaleBytes (fmt k : Nat) : Nat := if engScaled fmt then (k + 31) / 32 else 0

/-- A weight column of an MXLDS in cycle t0 + j. -/
def tickMxlds (i : Issued) (s : State) : State :=
  let t := i.tcb
  let j := s.cycle - i.t0
  if tcbN t ≤ j then s
  else
    let g := s.rowGate i j (s.ownRow i.r.sdesc (engRowBytes (tcbW t) (tcbK t)) (scaleBytes (tcbW t) (tcbK t)) j)
    let s := g.1
    if !g.2 then s.stallRow i
    else match s.streamRow i.r.sdesc (tcbW t) (tcbK t) j with
    | .error e => s.stopMatrix i j e
    | .ok (s, row, sc, g) =>
        let s := s.modMyCore fun k => k.setPlaneCol j (engElems (tcbW t) (tcbK t) row sc i.r.cbook)
        s.rowDone i j (if j + 1 = tcbN t then some s.cycle else none) g

/-- The bytes of an activation row from tile registers (R225). -/
def tileRow (k : Core) (src r i : Nat) : Nat :=
  (List.range r).foldl (fun a x =>
    let row := r * i + x
    (List.range 64).foldl (fun a j => a + (k.tile (src + row / 16) (row % 16) j).toNat * 2 ^ (32 * (64 * x + j))) a) 0

/-- The accumulation of activation row `i` lands at the end of t0 + i + 23. -/
def State.accumulate (s : State) (t : Word) (t0 acc i : Nat) (a : List FVal) : State :=
  let k := s.myCore
  let g := pairs (tcbA t) (tcbW t)
  let cells := (List.range (tcbN t)).map fun j =>
    (accKey acc i j,
     BitVec.ofNat 128 (Fmt.b128.ofVal .rne (columnSum a (k.planeCol k.activePlane j (tcbK t)) g (tcbK t))).1)
  s.landAs s.curCore 4 t0 (s.cycle + 23) (.accAdd cells)

/-- An activation row of an MXRUN in cycle t0 + i. -/
def tickMxrun (acc : Nat) (tile : Bool) (src : Nat) (x : Issued) (s : State) : State :=
  let t := x.tcb
  let i := s.cycle - x.t0
  if tcbM t ≤ i then s
  else
    let done := if i + 1 = tcbM t then some (s.cycle + 23) else none
    if tile then
      let q := runTiles t src
      let a := engElems (tcbA t) (tcbK t) (tileRow s.myCore src q.2 i) [] []
      let free := q.1.filter fun y => decide (lastRowOf t q.2 (y - src) = i)
      let s := if free.isEmpty then s else s.land s.curCore 4 s.cycle (.lock free false)
      (s.accumulate t x.t0 acc i a).rowDone x i done none
    else
      let g := s.rowGate x i (s.ownRow x.r.sdesc (engRowBytes (tcbA t) (tcbK t)) (scaleBytes (tcbA t) (tcbK t)) i)
      let s := g.1
      if !g.2 then s.stallRow x
      else match s.streamRow x.r.sdesc (tcbA t) (tcbK t) i with
      | .error e => s.stopMatrix x i e
      | .ok (s, row, sc, g) => (s.accumulate t x.t0 acc i (engElems (tcbA t) (tcbK t) row sc [])).rowDone x i done g

/-- The clamp of a block-scaled output (R226, step 2). -/
def mxClamp (c : Clamp) (f : Fmt) (y : FVal) : FVal :=
  let one : FVal := .fin false 1 0
  match c with
  | .none => y
  | .to01 => if y.isNan || y.sign || y.isZero then .fin false 0 0 else if one.lt y then one else y
  | .to11 => if y.isNan then .fin false 0 0 else if one.lt y then one else if y.lt (.fin true 1 0) then .fin true 1 0 else y
  | .sat => match y with
    | .inf s => .fin s f.maxMant (f.maxExp + 127)
    | y => y

/-- Row `i` of an accumulator as MXOUT converts it (R226): data and scales. -/
def outRow (k : Core) (t : Word) (acc i fmt : Nat) (rnd : Rnd) (cl : Clamp) (scale : Int) : Nat × List Byte :=
  let f := engFmt fmt
  let ys := (List.range (tcbN t)).map fun j =>
    let y := (Fmt.b128.value (SMap.get 0 k.acc (accKey acc i j)).toNat).scale scale
    if engScaled fmt then mxClamp cl f y else y
  engEncode fmt (fun _ => { mode := rnd, rbits := 0, nb := 0 }) (clampF cl f) ys

/-- Reading of accumulator row `i` by an MXOUT. -/
def outRead (x : Issued) (acc : Nat) (clr tile : Bool) (dst fmt : Nat) (rnd : Rnd) (cl : Clamp) (scale : Int) (i : Nat)
    (s : State) : State :=
  let t := x.tcb
  let y := outRow s.myCore t acc i fmt rnd cl scale
  let s := if clr then s.landAs s.curCore 4 x.t0 s.cycle (.accSet ((List.range (tcbN t)).map fun j => (accKey acc i j, 0))) else s
  if tile then
    let cells := (List.range (tcbN t)).map fun j => (tileKey (dst + i / 16) (i % 16) j, BitVec.ofNat 32 (fld y.1 (32 * j) 32))
    (s.landAs s.curCore 4 x.t0 (s.cycle + 3) (.tile cells)).rowDone x i (if i + 1 = tcbM t then some (s.cycle + 3) else none) none
  else s.modIssued x.id fun z => { z with r := { z.r with rows := z.r.rows ++ [(i, y.1, leNat y.2)] } }

/-- Storing of row `i` by an MXOUT: data and scales are checked before any byte is written. -/
def outStore (x : Issued) (fmt i : Nat) (s : State) : State :=
  let t := x.tcb
  match (s.myCore.issued.find? fun z => decide (z.id = x.id)).bind fun z => z.r.rows.find? fun r => decide (r.1 = i) with
  | none => s
  | some r =>
      let d := x.r.sdesc
      let data := leBytes (tcbN t * engWidth fmt / 8) r.2.1
      let sc := if engScaled fmt then leBytes ((tcbN t + 31) / 32) r.2.2 else []
      let da := (sdBase d + i * sdPitch d) % 2 ^ 64
      let sa := (sdSbase d + i * sdSpitch d) % 2 ^ 64
      let z := (s.myCore.issued.find? fun z => decide (z.id = x.id)).getD x
      match s.unitCheck (unitEngine s.curCore) s.myCore.asid.toNat .store (rangePieces da data.length ++ rangePieces sa sc.length) with
      | .error e => s.stopMatrix z i e
      | .ok (s, _) =>
          match s.engWrite da data with
          | .error e => s.stopMatrix z i e
          | .ok (s, g) =>
              match (if sc.isEmpty then .ok (s, none) else s.engWrite sa sc) with
              | .error e => s.stopMatrix z i e
              | .ok (s, g2) =>
                  let last := decide (i + 1 = tcbM t)
                  let done := if last then some (s.cycle + max 1 s.time) else none
                  let s := if last then s.useTime else s
                  (s.modIssued x.id fun z => { z with r := { z.r with rows := z.r.rows.filter fun q => decide (q.1 ≠ i) } }).rowDone
                    x i done (firstTouch g g2)

/-- A cycle of an MXOUT: row c is read, and the next row stored, c - 4 unless a store before it is late. -/
def tickMxout (acc : Nat) (clr tile : Bool) (dst fmt : Nat) (rnd : Rnd) (cl : Clamp) (scale : Int) (x : Issued) (s : State) :
    State :=
  let c := s.cycle - x.t0
  let have_ := x.r.rows.any fun r => decide (r.1 = c)
  let s := if c < tcbM x.tcb && !have_ then outRead x acc clr tile dst fmt rnd cl scale c s else s
  if tile || decide (c < x.r.row + 4) then s
  else
    let n := tcbN x.tcb
    let g := s.rowGate x x.r.row (s.ownRow x.r.sdesc (n * engWidth fmt / 8) (scaleBytes fmt n) x.r.row)
    if g.2 then outStore x fmt x.r.row g.1 else g.1

/-- A row of an MXRDA. -/
def tickMxrda (load : Bool) (acc : Nat) (x : Issued) (s : State) : State :=
  let t := x.tcb
  let i := s.cycle - x.t0
  let n := tcbN t
  let va := (sdBase x.r.sdesc + i * sdPitch x.r.sdesc) % 2 ^ 64
  let last := decide (i + 1 = tcbM t)
  let g := s.rowGate x i (s.ownRow x.r.sdesc (16 * n) 0 i)
  if tcbM t ≤ i then s
  else
  let s := g.1
  if !g.2 then s.stallRow x
  else if load then
    match s.engRead va (16 * n) with
    | .error e => s.stopMatrix x i e
    | .ok (s, bs, g) =>
        let v := leNat bs
        let cells := (List.range n).map fun j => (accKey acc i j, BitVec.ofNat 128 (fld v (128 * j) 128))
        (s.landAs s.curCore 4 x.t0 (s.cycle + 1) (.accSet cells)).rowDone x i (if last then some (s.cycle + 1) else none) g
  else
    let v := (List.range n).foldl (fun a j => a + (SMap.get 0 s.myCore.acc (accKey acc i j)).toNat * 2 ^ (128 * j)) 0
    match s.engWrite va (leBytes (16 * n) v) with
    | .error e => s.stopMatrix x i e
    | .ok (s, g) =>
        let done := if last then some (s.cycle + max 1 s.time) else none
        (if last then s.useTime else s).rowDone x i done g

/-- A cycle of an issued matrix command. -/
def tickMatrix (x : Issued) (s : State) : State :=
  if x.queue ≠ 1 ∨ x.doneAt.isSome then s
  else match x.c.cmd.op with
    | .mxlds _ => tickMxlds x s
    | .mxrun a _ tile src => tickMxrun a.toNat tile src.toNat x s
    | .mxout a clr tile dst fmt rnd cl sc =>
        tickMxout a.toNat clr tile dst.toNat fmt.toNat (Rnd.ofCode rnd.toNat) cl sc.toInt x s
    | .mxrdaSt a _ => tickMxrda false a.toNat x s
    | .mxrdaLd a _ => tickMxrda true a.toNat x s
    | _ => s

/-- A cycle of every issued matrix command of the core under way, in issue order. -/
def State.tickMatrices (s : State) : State := s.myCore.issued.foldl (fun s x => tickMatrix x s) s

/-! ### Steps -/

/-- The step of MXLDS. -/
def execMxlds (s : State) : Host.Outcome State Fault Refusal := s.engIssue .mxlds startMxlds
/-- The step of MXRUN. -/
def execMxrun (s : State) : Host.Outcome State Fault Refusal := s.engIssue .mxrun startMxrun
/-- The step of MXOUT. -/
def execMxout (s : State) : Host.Outcome State Fault Refusal := s.engIssue .mxout startMxout
/-- The step of MXZERO. -/
def execMxzero (s : State) : Host.Outcome State Fault Refusal := s.engIssue .mxzero startMxzero
/-- The step of MXRDA.st. -/
def execMxrdaSt (s : State) : Host.Outcome State Fault Refusal := s.engIssue .mxrdaSt startMxrdaSt
/-- The step of MXRDA.ld. -/
def execMxrdaLd (s : State) : Host.Outcome State Fault Refusal := s.engIssue .mxrdaLd startMxrdaLd

end Sys2Proof.Machine
end

