-- ==== Sys2Proof/Machine/Copy.lean ====
section
/-!
DEFINITION. The copy engine: copy descriptors (R228, R229), rows (R230-R232), the order of converted rows (R234), the range
checker (R235), shadow destinations and publish (R236, R237), and multicast copies (R233, R340).
-/

namespace Sys2Proof.Machine

/-! ### Copy descriptors (Table 15-9) -/

/-- src -/
def cdSrc (d : Nat) : Nat := fld d 0 64
/-- dst -/
def cdDst (d : Nat) : Nat := fld d 64 64
/-- sbytes -/
def cdBytes (d : Nat) : Nat := fld d 128 32
/-- rows -/
def cdRows (d : Nat) : Nat := fld d 160 32
/-- spitch -/
def cdSpitch (d : Nat) : Int := intVal true 64 (fld d 192 64)
/-- dpitch -/
def cdDpitch (d : Nat) : Int := intVal true 64 (fld d 256 64)
/-- delems -/
def cdDelems (d : Nat) : Nat := fld d 320 32
/-- sfmt -/
def cdSfmt (d : Nat) : Nat := fld d 352 4
/-- dfmt -/
def cdDfmt (d : Nat) : Nat := fld d 356 4
/-- rnd -/
def cdRnd (d : Nat) : Nat := fld d 360 3
/-- cvt -/
def cdCvt (d : Nat) : Bool := bit d 363
/-- sc -/
def cdSc (d : Nat) : Int := intVal true 6 (fld d 364 6)
/-- layout -/
def cdLayout (d : Nat) : Nat := fld d 370 2
/-- shadow -/
def cdShadow (d : Nat) : Bool := bit d 372
/-- sscl -/
def cdSscl (d : Nat) : Nat := fld d 384 64
/-- dscl -/
def cdDscl (d : Nat) : Nat := fld d 448 64

/-- Which command a copy is. -/
inductive CopyKind where
  | plain | gather | scatter | multicast
  deriving DecidableEq, Repr

/-- The kind of an engine command that is a copy. -/
def EngOp.copyKind : EngOp → Option CopyKind
  | .cpy _ => some .plain
  | .cpyg _ => some .gather
  | .cpys _ => some .scatter
  | .cpym _ => some .multicast
  | _ => none

/-- Whether rows are copied as bytes. -/
def cdRaw (d : Nat) : Bool := !cdCvt d && decide (cdLayout d = 0)

/-- The width of a source element. -/
def cdW (d : Nat) : Nat := if cdRaw d then 8 else engWidth (cdSfmt d)

/-- The width of a destination element. -/
def cdDw (d : Nat) : Nat := if cdRaw d then 8 else engWidth (cdDfmt d)

/-- se of R229. -/
def cdSe (d : Nat) : Nat := cdBytes d * 8 / cdW d

/-- The elements of a destination row that come from the source. -/
def cdCount (d : Nat) : Nat := if cdLayout d = 1 then cdRows d else cdSe d

/-- de of R229 and R231. -/
def cdDe (d : Nat) : Nat := if cdDelems d ≠ 0 then cdDelems d else cdCount d

/-- The destination rows. -/
def cdDrows (d : Nat) : Nat := if cdLayout d = 1 then cdSe d else cdRows d

/-- Bytes of a destination row. -/
def cdDbytes (d : Nat) : Nat := cdDe d * cdDw d / 8

/-- ceil(n / 32): the block scales of a row. -/
def scaleCount (n : Nat) : Nat := (n + 31) / 32

/-- The lowest address and the end of `n` rows of `b` bytes. -/
def rowSpan (base : Nat) (pitch : Int) (n b : Nat) : Int × Int :=
  let last := (base : Int) + (n - 1 : Nat) * pitch
  (min (base : Int) last, max (base : Int) last + b)

/-- Whether a span lies in [0, 2^48). -/
def spanIn (p : Int × Int) : Bool := decide (0 ≤ p.1) && decide (p.2 ≤ 2 ^ 48)

/-- The reserved format codes of Table 15-2. -/
def engReserved (c : Nat) : Bool := decide (12 ≤ c ∧ c ≤ 14)

/-- Row 1 of Table 15-10. -/
def copyReserved (k : CopyKind) (d : Nat) : Bool :=
  decide (fld d 373 11 ≠ 0) || decide (cdRnd d = 7) || decide (1 < cdLayout d) || engReserved (cdSfmt d) || engReserved (cdDfmt d) ||
  (decide (k = .multicast) && decide (cdDscl d / 4096 ≠ 0)) ||
  (cdRaw d && (decide (cdSfmt d ≠ 0) || decide (cdDfmt d ≠ 0) || decide (cdDelems d ≠ 0) || decide (cdRnd d ≠ 0) || decide (cdSc d ≠ 0)))

/-- Row 2 of Table 15-10. -/
def copyFormats (k : CopyKind) (d : Nat) : Bool :=
  !engCopy (cdSfmt d) || !engCopy (cdDfmt d) ||
  (decide (cdLayout d = 1) && !cdCvt d && (decide (cdSfmt d ≠ cdDfmt d) || engScaled (cdSfmt d))) ||
  ((decide (k = .gather) || decide (k = .scatter)) && (engScaled (cdSfmt d) || decide (cdLayout d ≠ 0))) ||
  (decide (k = .multicast) && (engScaled (cdDfmt d) || cdShadow d || decide (cdLayout d ≠ 0))) ||
  (engScaled (cdSfmt d) && decide (cdSscl d = 0)) || (engScaled (cdDfmt d) && decide (cdDscl d = 0))

/-- Row 3 of Table 15-10. -/
def copyEmpty (d : Nat) : Bool := decide (cdRows d = 0) || decide (cdBytes d = 0)

/-- Rows 4 to 7 of Table 15-10. -/
def copyExtents (k : CopyKind) (d : Nat) (reg : Nat) : Option (Nat × Word) :=
  let sa := max 1 (cdW d / 8)
  let da := max 1 (cdDw d / 8)
  if cdBytes d * 8 % cdW d ≠ 0 ∨ cdDe d < cdCount d ∨ (cdDw d = 4 ∧ cdDe d % 2 = 1) then some (engShape 3 reg)
  else if cdSrc d % sa ≠ 0 then some (cALIGN, w64 (cdSrc d))
  else if cdDst d % da ≠ 0 then some (cALIGN, w64 (cdDst d))
  else if cdSpitch d % (sa : Int) ≠ 0 then some (cALIGN, BitVec.ofInt 64 (cdSpitch d))
  else if cdDpitch d % (da : Int) ≠ 0 then some (cALIGN, BitVec.ofInt 64 (cdDpitch d))
  else if 1 < cdDrows d ∧ (cdDpitch d).natAbs < cdDbytes d then some (engShape 4 reg)
  else if !((decide (k = .gather) || spanIn (rowSpan (cdSrc d) (cdSpitch d) (cdRows d) (cdBytes d))) &&
      (decide (k = .scatter) || spanIn (rowSpan (cdDst d) (cdDpitch d) (cdDrows d) (cdDbytes d))) &&
      (!(decide (k = .gather) || decide (k = .scatter)) || spanIn (rowSpan (cdSscl d) 4 (cdRows d) 4)) &&
      (!engScaled (cdSfmt d) || spanIn (rowSpan (cdSscl d) (scaleCount (cdSe d)) (cdRows d) (scaleCount (cdSe d)))) &&
      (!engScaled (cdDfmt d) || spanIn (rowSpan (cdDscl d) (scaleCount (cdDe d)) (cdDrows d) (scaleCount (cdDe d))))) then
    some (engShape 5 reg)
  else none

/-- The checks of Table 15-10: none where all pass or the copy is empty. -/
def copyCheck (k : CopyKind) (d reg : Nat) : Option (Nat × Word) :=
  if copyReserved k d then some (engShape 1 reg)
  else if copyFormats k d then some (engShape 2 reg)
  else if copyEmpty d then none
  else copyExtents k d reg

/-! ### Addresses of rows -/

/-- Row `r` of an array. -/
def rowAddr (base : Nat) (pitch : Int) (r : Nat) : Nat := (((base : Int) + r * pitch) % 2 ^ 64).toNat

/-! ### Range checker (R235) -/

/-- The lowest byte and the end of the scratchpad bytes of some pieces. -/
def scratchSpan (ps : List (Nat × Nat)) : List (Nat × Nat) :=
  match ps with
  | [] => []
  | p :: t => [t.foldl (fun a q => (min a.1 q.1, max a.2 q.2)) p]

/-- The scratchpad bytes that a range of virtual addresses touches, page by page, as a unit translates it now. -/
def State.scratchPieces (s : State) (unit asid va n : Nat) : List (Nat × Nat) :=
  (rangePieces va n).filterMap fun p =>
    match s.lookup unit asid p.1 with
    | none => none
    | some l =>
        let a := s.home (l.pa p.1)
        if (scratchCore a).isSome then some (a, a + p.2) else none

/-- The scratchpad range of an array of rows, under a unit's translation. -/
def State.arrayRangeOf (s : State) (unit asid base : Nat) (pitch : Int) (rows bytes : Nat) : List (Nat × Nat) :=
  scratchSpan ((List.range rows).flatMap fun r => s.scratchPieces unit asid (rowAddr base pitch r) bytes)

/-- The scratchpad range of an array of rows of the engine under way. -/
def State.arrayRange (s : State) (base : Nat) (pitch : Int) (rows bytes : Nat) : List (Nat × Nat) :=
  s.arrayRangeOf (unitEngine s.curCore) s.myCore.asid.toNat base pitch rows bytes

/-- The multicast group of a copy, in the table of groups. -/
def State.mcKey (s : State) (d : Nat) : Nat := 4096 * s.myCore.vifn.toNat + fld (cdDscl d) 0 12

/-- The scratchpad range that a multicast copy writes in this package, if it is a member of the group (R233, R235). -/
def State.mcRange (s : State) (d : Nat) : List (Nat × Nat) :=
  match SMap.get none s.groups (s.mcKey d) with
  | none => []
  | some g =>
      match SMap.get none s.ctxs (65536 * s.myCore.vifn.toNat + g.ctx) with
      | some c =>
          if g.members.testBit s.pkg then
            s.arrayRangeOf (unitEgress (coreDie s.curCore)) c.asid (cdDst d) (cdDpitch d) (cdDrows d) (cdDbytes d)
          else []
      | none => []

/-- The whole package scratchpad. -/
def allScratch : List (Nat × Nat) := [(scratchBase, scratchBase + 176 * scratchSize)]

/-- The ranges a copy reads and writes. -/
def State.copyRanges (s : State) (k : CopyKind) (d : Nat) : List (Nat × Nat) × List (Nat × Nat) :=
  if copyEmpty d then ([], [])
  else
    let src := if k = .gather then allScratch else s.arrayRange (cdSrc d) (cdSpitch d) (cdRows d) (cdBytes d)
    let dst := if k = .scatter then allScratch else if k = .multicast then s.mcRange d
      else s.arrayRange (cdDst d) (cdDpitch d) (cdDrows d) (cdDbytes d)
    let idx := if k = .gather ∨ k = .scatter then s.arrayRange (cdSscl d) 4 (cdRows d) 4 else []
    let ss := if engScaled (cdSfmt d) then s.arrayRange (cdSscl d) (scaleCount (cdSe d)) (cdRows d) (scaleCount (cdSe d)) else []
    let ds := if engScaled (cdDfmt d) then s.arrayRange (cdDscl d) (scaleCount (cdDe d)) (cdDrows d) (scaleCount (cdDe d)) else []
    (src ++ idx ++ ss, dst ++ ds)

/-- Whether two lists of ranges meet. -/
def rangesMeet (x y : List (Nat × Nat)) : Bool := x.any fun a => y.any fun b => decide (a.1 < b.2 ∧ b.1 < a.2)

/-- Whether two copies conflict. -/
def rangesConflict (x y : List (Nat × Nat) × List (Nat × Nat)) : Bool :=
  rangesMeet x.2 (y.1 ++ y.2) || rangesMeet y.2 (x.1 ++ x.2)

/-- The copies of the core under way that are in flight. -/
def Core.copies (k : Core) : List (CopyKind × Issued) :=
  k.issued.filterMap fun i => (EngOp.copyKind i.c.cmd.op).map fun c => (c, i)

/-- Whether there are fewer than 96 copies in flight. -/
def State.copyRoom (s : State) : Bool := decide (s.myCore.copies.length < 96)

/-- Whether a copy with this descriptor may start beside those in flight: fewer than 96, and no conflict. -/
def State.copyMayStart (s : State) (k : CopyKind) (d : Nat) : Bool :=
  s.copyRoom && !s.myCore.copies.any fun x => rangesConflict (s.copyRanges k d) (s.copyRanges x.1 x.2.r.cdesc)

/-! ### Issue -/

/-- The descriptor at S[n].base (R228): 64 bytes of the own scratchpad. -/
def State.copyDesc (s : State) (sd : Nat) : Except (Nat × Word) (State × Nat × Option Word) :=
  let va := sdBase sd
  match s.unitCheck (unitEngine s.curCore) s.myCore.asid.toNat .load (rangePieces va 64) with
  | .error e => .error e
  | .ok (s, ps) =>
      if ps.all fun p => s.own p.1 then
        match s.readPieces ps with
        | .error c => .error (c, w64 va)
        | .ok bs => .ok (s, leNat bs, s.guardPieces ps)
      else .error (cPROT, w64 va)

/-- The first row of a copy is taken after an open time. -/
def State.startRows (s : State) (i : Issued) : Start :=
  .go (s.scheduleOpen 1 .copyRow (.nats [s.curCore, i.id])) i

/-- Whether the copy engine can start a copy whose stream descriptor is `sd` (R215): the range checker knows the ranges only of a
descriptor that can be read. -/
def State.copyReady (s : State) (k : CopyKind) (sd : Nat) : Bool :=
  s.copyRoom &&
    match sdCheck sd 15 1 0 false 0, s.copyDesc sd with
    | none, .ok (_, d, _) => s.copyMayStart k d
    | _, _ => true

/-- The stream descriptor of a command: the one it copied before XLATE stopped it in its checks, or that of its stream register. -/
def State.cmdStream (s : State) (c : QCmd) (sr : Nat) : Nat :=
  match c.resume with | some r => r.sdesc | none => s.myCore.sreg sr

/-- A stream advances at the issue of a command, once. -/
def State.advanceFor (s : State) (c : QCmd) (sr : Nat) : State := if c.resume.isSome then s else s.advanceStream sr

/-- The checks of a copy at issue (R215): the stream's (R207), the descriptor, Table 15-10. -/
def checkCopy (k : CopyKind) (sr : Nat) (c : QCmd) (s : State) : Start :=
  let sd := s.cmdStream c sr
  match sdCheck sd 15 1 0 false sr with
  | some e => .fault e.1 e.2
  | none =>
      match s.copyDesc sd with
      | .error e => .fault e.1 e.2
      | .ok (s, d, g) =>
          match copyCheck k d sr with
          | some e => .fault e.1 e.2
          | none =>
              let i := s.issued c sd d
              let i := { i with guard := firstTouch i.guard g }
              let s := s.advanceFor c sr
              if copyEmpty d then .go s { i with doneAt := some s.cycle } else s.startRows i

/-- A copy at issue: the copy engine can start it; then come its checks. One stopped at a row resumes there. -/
def startCopy (k : CopyKind) (sr : Nat) (c : QCmd) (s : State) : Start :=
  match c.resume.filter fun r => r.checked with
  | some r => if s.copyMayStart k r.cdesc then s.startRows (s.issued c 0 0) else .wait
  | none => if s.copyReady k (s.cmdStream c sr) then checkCopy k sr c s else .wait

/-- CPY at issue. -/
def startCpy (c : QCmd) (s : State) : Start :=
  match c.cmd.op with | .cpy sr => startCopy .plain sr.toNat c s | _ => .wait
/-- CPYG at issue. -/
def startCpyg (c : QCmd) (s : State) : Start :=
  match c.cmd.op with | .cpyg sr => startCopy .gather sr.toNat c s | _ => .wait
/-- CPYS at issue. -/
def startCpys (c : QCmd) (s : State) : Start :=
  match c.cmd.op with | .cpys sr => startCopy .scatter sr.toNat c s | _ => .wait
/-- CPYM at issue. -/
def startCpym (c : QCmd) (s : State) : Start :=
  match c.cmd.op with | .cpym sr => startCopy .multicast sr.toNat c s | _ => .wait

/-! ### Publish (R237) -/

/-- Where PUB may publish: the media of shadows, and pages with SH = 1. -/
def State.pubFrames (s : State) (va : Nat) : Nat → Nat → Except (Nat × Word) (State × List Nat)
  | 0, _ => .ok (s, [])
  | n + 1, i =>
      let a := va + 65536 * i
      match s.check (unitEngine s.curCore) s.myCore.asid.toNat false .store a with
      | .error c => .error (c, w64 a)
      | .ok l =>
          if !shadowOk (l.pa a) l.ent then .error (cPROT, w64 a)
          else match (s.fill (unitEngine s.curCore) l).pubFrames va n (i + 1) with
            | .error e => .error e
            | .ok (s, r) => .ok (s, l.pa a / 65536 :: r)

/-- Publish the shadows of frames in one step: each old media frame returns to the shadow pool of its home once the accesses
that reached the home before have been performed, after an open time. -/
def State.publish (s : State) (fs : List Nat) : State :=
  fs.foldl (fun s f =>
    let e := s.ditEntry f
    if e.shd then
      let s := s.setDit f { e with mframe := e.smframe, shd := false, smframe := 0 }
      s.scheduleOpen 0 .frameReturn (.nats [poolKey (homeDie (f * 65536)) 2, e.mframe])
    else s) s

/-- Whether a descriptor of PUB has a nonzero reserved field. -/
def pubReserved (d : Nat) : Bool :=
  decide (cdSrc d ≠ 0) || decide (cdBytes d ≠ 0) || decide (d / 2 ^ 192 ≠ 0)

/-- PUB at issue. -/
def startPub (c : QCmd) (s : State) : Start :=
  match c.cmd.op with
  | .pub sr =>
      let sd := s.cmdStream c sr.toNat
      if s.myCore.copies.any fun x => cdShadow x.2.r.cdesc then .wait
      else match sdCheck sd 15 1 0 false sr.toNat with
        | some e => .fault e.1 e.2
        | none =>
            match s.copyDesc sd with
            | .error e => .fault e.1 e.2
            | .ok (s, d, g) =>
                if pubReserved d then .fault cSHAPE (engShape 1 sr.toNat).2
                else if cdDst d % 65536 ≠ 0 then .fault cALIGN (w64 (cdDst d))
                else match s.pubFrames (cdDst d) (cdRows d) 0 with
                  | .error e => .fault e.1 e.2
                  | .ok (s, fs) =>
                      let s := (s.publish fs).advanceFor c sr.toNat
                      let i := s.issued c sd d
                      .go s { i with doneAt := some s.cycle, guard := firstTouch i.guard g }
  | _ => .wait

/-! ### Conversion (R120, R122, R123) -/

/-- A source value with its subnormals flushed where the format is one of FP64, FP32, FP16 and BF16. -/
def flushSource (c : Nat) (v : FVal) : FVal :=
  match v with
  | .fin s m e => if (c = 6 ∨ c = 0 ∨ c = 1 ∨ c = 2) ∧ m < 2 ^ (engFmt c).fb then .fin s 0 0 else .fin s m e
  | v => v

/-- y of R120 for the element value of a pattern. An FP64 source of a destination with MX scaling takes no intermediate (DEDUCED, log
entry 80). -/
def convValue (sfmt dfmt : Nat) (sc : Int) (scale : Option Nat) (v : FVal) : FVal :=
  let v := flushSource sfmt v
  let v := match scale with | some x => withScale x v | none => v
  let y := v.scale sc
  if sfmt = 6 ∧ (dfmt = 1 ∨ dfmt = 2 ∨ dfmt = 3 ∨ dfmt = 4 ∨ dfmt = 11) then Fmt.fp32.value (Fmt.fp32.ofVal .rto y).1 else y

/-- The generator after each advance of a row of `n` elements. -/
def rowStates : Nat → BitVec 32 → List (BitVec 32)
  | 0, _ => []
  | n + 1, s => let t := srAdvance s; t :: rowStates n t

/-- Element `e` of a stored row as a value, with its block scale. -/
def sourceElem (d row : Nat) (scales : List Byte) (e : Nat) : FVal :=
  let f := cdSfmt d
  convValue f (cdDfmt d) (cdSc d) (if engScaled f then some ((scales.getD (e / 32) 0).toNat) else none)
    ((engFmt f).value (fld row (engWidth f * e) (engWidth f)))

/-- A destination row from its converted values, padded with +0 to `de` elements: data and scales, and the generator after
it. The generator advances once for each 64 source elements begun; padding does not count (DEDUCED, log entry 80). -/
def encodeRow (d : Nat) (sr : BitVec 32) (ys : List FVal) : List Byte × List Byte × BitVec 32 :=
  let states := rowStates ((ys.length + 63) / 64) sr
  let w := engWidth (cdDfmt d)
  let mode (e : Nat) : RMode := mkMode (Rnd.ofCode (cdRnd d)) (states.getD (e / 64) 0) (e % 64) 0 w
  let pad := List.replicate (cdDe d - ys.length) (FVal.fin false 0 0)
  let r := engEncode (cdDfmt d) mode id (ys ++ pad)
  (leBytes (cdDbytes d) r.1, r.2, states.getLastD sr)

/-! ### Rows (R230-R232) -/

/-- What the sources of a row give: the state, the row's data and scales, the generator, where it goes (row number), and a
guard touch. -/
structure RowData where
  data : List Byte
  scales : List Byte
  sr : BitVec 32
  row : Nat
  guard : Option Word

/-- Count an access of a copy row to checked pieces for the hot-page tracker (R295) and at the pseudo-channels; what goes to other
packages leaves by the egress. -/
def State.hitPieces (s : State) (ps : List (Nat × Nat × Nat)) (k : Traffic) : State :=
  (ps.foldl (fun s p => (s.hit p.1 p.2.1).traffic p.1 p.2.1 k) s).sendPieces (unitEngine s.curCore) ps k

/-- Read `n` bytes at `va` for a copy row. -/
def State.copyRead (s : State) (va n : Nat) : Except (Nat × Word) (State × List Byte × Option Word) :=
  match s.unitCheck (unitEngine s.curCore) s.myCore.asid.toNat .load (rangePieces va n) with
  | .error e => .error e
  | .ok (s, ps) =>
      match s.readPieces ps with
      | .error c => .error (c, w64 va)
      | .ok bs => .ok (s.hitPieces ps .read, bs, s.guardPieces ps)

/-- An index of a gather or a scatter (R232): the index table lies in the own scratchpad. -/
def State.copyIndex (s : State) (d r : Nat) : Except (Nat × Word) (State × Nat × Option Word) :=
  let va := cdSscl d + 4 * r
  match s.unitCheck (unitEngine s.curCore) s.myCore.asid.toNat .load (rangePieces va 4) with
  | .error e => .error e
  | .ok (s, ps) =>
      if ps.all fun p => s.own p.1 then
        match s.readPieces ps with
        | .error c => .error (c, w64 va)
        | .ok bs => .ok (s, leNat bs, s.guardPieces ps)
      else .error (cPROT, w64 va)

/-- The source row and the destination row of row `r` of a copy. -/
def State.copyRows (s : State) (k : CopyKind) (d r : Nat) : Except (Nat × Word) (State × Nat × Nat × Option Word) :=
  match k with
  | .gather => (s.copyIndex d r).map fun x => (x.1, x.2.1, r, x.2.2)
  | .scatter => (s.copyIndex d r).map fun x => (x.1, r, x.2.1, x.2.2)
  | _ => .ok (s, r, r, none)

/-- Row `r` of the sources with layout 0b00. -/
def State.plainRow (s : State) (k : CopyKind) (d r reg : Nat) : Except (Nat × Word) (State × RowData) :=
  match s.copyRows k d r with
  | .error e => .error e
  | .ok (s, sr, dr, g) =>
      if !spanIn (rowSpan (rowAddr (cdSrc d) (cdSpitch d) sr) 0 1 (cdBytes d)) ||
          !spanIn (rowSpan (rowAddr (cdDst d) (cdDpitch d) dr) 0 1 (cdDbytes d)) then .error (engShape 5 reg)
      else match s.copyRead (rowAddr (cdSrc d) (cdSpitch d) sr) (cdBytes d) with
        | .error e => .error e
        | .ok (s, bs, g1) =>
            if !cdCvt d then .ok (s, { data := bs, scales := [], sr := s.myCore.copySr, row := dr, guard := firstTouch g g1 })
            else
              let n := scaleCount (cdSe d)
              match (if engScaled (cdSfmt d) then s.copyRead (cdSscl d + r * n) n else .ok (s, [], none)) with
              | .error e => .error e
              | .ok (s, sc, g2) =>
                  let row := leNat bs
                  let x := encodeRow d s.myCore.copySr ((List.range (cdSe d)).map (sourceElem d row sc))
                  .ok (s, { data := x.1, scales := x.2.1, sr := x.2.2, row := dr, guard := firstTouch (firstTouch g g1) g2 })

/-- Element `e` of source rows `r`, `r + 1`, …: the pattern and block scale of each. -/
def State.columnElems (s : State) (d e : Nat) : Nat → Nat → Except (Nat × Word) (State × List (Nat × Nat) × Option Word)
  | 0, _ => .ok (s, [], none)
  | n + 1, r =>
      let w := engWidth (cdSfmt d)
      let va := rowAddr (cdSrc d) (cdSpitch d) r + w * e / 8
      match s.copyRead va ((w + 7) / 8) with
      | .error x => .error x
      | .ok (s, bs, g) =>
          let v := fld (leNat bs) (w * e % 8) w
          match (if engScaled (cdSfmt d) then s.copyRead (cdSscl d + r * scaleCount (cdSe d) + e / 32) 1 else .ok (s, [], none)) with
          | .error x => .error x
          | .ok (s, sc, g2) =>
              match s.columnElems d e n (r + 1) with
              | .error x => .error x
              | .ok (s, l, g3) => .ok (s, (v, leNat sc) :: l, firstTouch (firstTouch g g2) g3)

/-- Destination row `e` with layout 0b01 (R231). -/
def State.transposedRow (s : State) (d e : Nat) : Except (Nat × Word) (State × RowData) :=
  match s.columnElems d e (cdRows d) 0 with
  | .error x => .error x
  | .ok (s, l, g) =>
      if cdCvt d then
        let f := cdSfmt d
        let ys := l.map fun v =>
          convValue f (cdDfmt d) (cdSc d) (if engScaled f then some v.2 else none) ((engFmt f).value v.1)
        let x := encodeRow d s.myCore.copySr ys
        .ok (s, { data := x.1, scales := x.2.1, sr := x.2.2, row := e, guard := g })
      else
        let w := engWidth (cdSfmt d)
        let v := ((List.range l.length).zip l).foldl (fun a p => a + p.2.1 * 2 ^ (w * p.1)) 0
        .ok (s, { data := leBytes (cdDbytes d) v, scales := [], sr := s.myCore.copySr, row := e, guard := g })

/-- What writing a row comes to. -/
inductive Wrote where
  | ok (s : State) (g : Option Word)
  | fail (cause : Nat) (info : Word)
  /-- The shadow pool is empty or the frame is moving (R236, R293). -/
  | wait

/-- Write a row's data and scales: everything is checked before any byte is written. -/
def State.writeRow (s : State) (d : Nat) (x : RowData) : Wrote :=
  let da := rowAddr (cdDst d) (cdDpitch d) x.row
  let sa := cdDscl d + x.row * scaleCount (cdDe d)
  let p1 := rangePieces da x.data.length
  let p2 := if x.scales.isEmpty then [] else rangePieces sa x.scales.length
  match s.unitCheck (unitEngine s.curCore) s.myCore.asid.toNat .store (p1 ++ p2) with
  | .error e => .fail e.1 e.2
  | .ok (s, ps) =>
      let bs := x.data ++ x.scales
      let g := s.guardPieces ps
      if cdShadow d then
        match ((p1 ++ p2).zip ps).find? fun p => !shadowOk p.2.1 p.2.2.2 with
        | some p => .fail cPROT (w64 p.1.1)
        | none =>
            match s.writeShadows bs ps with
            | none => .wait
            | some s => .ok (s.hitPieces ps .write) g
      else
        match s.writePieces bs ps with
        | .error c => .fail c (w64 da)
        | .ok s => .ok (s.hitPieces ps .write) g

/-- Whether a converted row of a copy may start (R234): every converted row of earlier copies has started. -/
def Core.mayConvert (k : Core) (i : Issued) : Bool :=
  !cdCvt i.r.cdesc || !(k.issued.any fun x => decide (x.id < i.id) && (EngOp.copyKind x.c.cmd.op).isSome && cdCvt x.r.cdesc &&
    decide (x.r.row < cdDrows x.r.cdesc) && x.doneAt.isNone)

/-- A row of a copy is done: the generator has advanced; the next row follows after an open time, or the copy retires. -/
def State.copyRowDone (s : State) (i : Issued) (sr : BitVec 32) (g : Option Word) : State :=
  let s := (s.modMyCore fun k => { k with copySr := if cdCvt i.r.cdesc then sr else k.copySr }).engProgress
  let last := decide (i.r.row + 1 = cdDrows i.r.cdesc)
  let s := s.rowDone i i.r.row (if last then some s.cycle else none) g
  if last then s else s.scheduleOpen 1 .copyRow (.nats [s.curCore, i.id])

/-- The row an XLATE stops a copy at: a transposing copy resumes from its first (R240). -/
def resumeRow (d row cause : Nat) : Nat := if cause = cXLATE ∧ cdLayout d = 1 then 0 else row

/-- COPY_ROW (R230): the operands are the core and the command's number. -/
def execCopyRow (s₀ : State) : Host.Outcome State Fault Refusal :=
  let s := { s₀ with curCore := s₀.ev.nat 0, hitSeen := [] }
  match s.myCore.issued.find? fun i => decide (i.id = s.ev.nat 1) with
  | none => .next s
  | some i =>
      match EngOp.copyKind i.c.cmd.op with
      | none => .next s
      | some k =>
          let d := i.r.cdesc
          let again (s : State) : State := s.schedule (s.cycle + 1) .copyRow (.nats [s.curCore, i.id])
          let stop (s : State) (cause : Nat) (info : Word) : State := s.stopIssued i (resumeRow d i.r.row cause) cause info
          if !s.myCore.mayConvert i then .next (again s)
          else match (if cdLayout d = 1 then s.transposedRow d i.r.row else s.plainRow k d i.r.row ((EngOp.stream i.c.cmd.op).getD 0)) with
            | .error e => .next (stop s e.1 e.2)
            | .ok (s, x) =>
                if k = .multicast then
                  let key := s.mcKey d
                  match SMap.get none s.groups key with
                  | none => .next (stop s cPROT (w64 (fld (cdDscl d) 0 12)))
                  | some _ =>
                      let m : McRow :=
                        { id := s.nextId, vi := s.myCore.vifn.toNat, group := fld (cdDscl d) 0 12, core := s.curCore, cmd := i.id,
                          va := rowAddr (cdDst d) (cdDpitch d) x.row, bytes := x.data }
                      let s := { s with nextId := s.nextId + 1, mcRows := s.mcRows ++ [m] }
                      let s := s.modMyCore fun k => { k with copySr := if cdCvt d then x.sr else k.copySr }
                      let s := s.modIssued i.id fun z => { z with guard := firstTouch z.guard x.guard }
                      .next (s.scheduleOpen 1 .multicastForward (.nats [m.id]))
                else match s.writeRow d x with
                  | .fail c w => .next (stop s c w)
                  | .wait => .next (again s₀)
                  | .ok s g => .next (s.copyRowDone i x.sr (firstTouch x.guard g))

/-! ### Multicast (R340) -/

/-- Perform a multicast row in this package, under the ASID of the group's local context; `die` is the die whose egress or ingress
has it. The row touches what it writes (R164, R295). -/
def State.performMulticast (s : State) (die vi va : Nat) (bytes : List Byte) (g : Group) : Except Nat (State × Option Word) :=
  match SMap.get none s.ctxs (65536 * vi + g.ctx) with
  | none => .error cPROT
  | some c =>
      match s.unitCheck (unitEgress die) c.asid .store (rangePieces va bytes.length) with
      | .error e => .error e.1
      | .ok (s, ps) =>
          let w := s.guardPieces ps
          match s.writePieces bytes ps with
          | .error c => .error c
          | .ok s => .ok (ps.foldl (fun (s : State) p => (s.hit p.1 p.2.1).traffic p.1 p.2.1 .write) s, w)

/-- The copy that sent a multicast row goes on, or stops with an engine fault; the package that sent a row of another package's copy
to this root is answered. -/
def State.multicastBack (s : State) (m : McRow) (bad : Option (Nat × Word)) : State :=
  let s := { s with curCore := m.core, mcRows := s.mcRows.filter fun y => decide (y.id ≠ m.id) }
  match m.from_ with
  | some r => s.respond r (match bad with | some e => e.1 | none => 0) 0 0
  | none =>
      match s.myCore.issued.find? fun i => decide (i.id = m.cmd) with
      | none => s
      | some i =>
          match bad with
          | some e => s.stopIssued i i.r.row e.1 e.2
          | none => s.copyRowDone i s.myCore.copySr m.guard

/-- The access that carries a multicast row to a package. -/
def McRow.request (m : McRow) (die cls p : Nat) : PeerReq :=
  { id := 0, src := 0, dst := p, aperture := m.va, op := .mcast (4096 * m.vi + m.group) m.bytes.length (leNat m.bytes), die := die,
    party := unitEgress die, dstDie := die, cls := cls }

/-- Send a multicast row to some packages: each must acknowledge within 2^19 cycles (R339, R340). -/
def State.sendRow (s : State) (m : McRow) (ps : List Nat) : State :=
  let die := coreDie m.core
  ps.foldl (fun (s : State) p =>
    let id := s.nextId
    (s.inject (.row m.id) (Config.meshSpot (unitEgress die)) (m.request die (s.classOf m.vi) p)).awaitPeer
      [3, p, m.id, m.core, 0, 0, s.cycle, id, m.va]) s

/-- A row of a multicast group leaves this package: this root forwards the oldest row of its group to every member, and performs it if
it is one itself; any other package sends it to the root. A package outside the torus fails as PROT (R335). -/
def State.forwardRow (s : State) (m : McRow) (g : Group) : State :=
  let info := w64 m.group
  if s.lost.any fun p => g.members.testBit p then s.multicastBack m (some (cMIRRFAIL, info))
  else
    let sent (s : State) (w : Option Word) : State :=
      ({ s with mcRows := s.mcRows.map fun (y : McRow) => if y.id = m.id then { y with sent := true, guard := w } else y }).scheduleOpen 1
        .multicastForward (.nats [m.id])
    let others := if g.root ≠ s.pkg then [g.root] else (List.range 4096).filter fun p => g.members.testBit p && decide (p ≠ s.pkg)
    if others.any fun p => !s.inTorus p then s.multicastBack m (some (cPROT, info))
    else if g.root ≠ s.pkg then sent (s.sendRow m others) none
    else if !g.members.testBit s.pkg then s.multicastBack m (some (cPROT, info))
    else match s.performMulticast (coreDie m.core) m.vi m.va m.bytes g with
      | .error c => s.multicastBack m (some (c, info))
      | .ok (s, w) =>
          sent (s.sendRow m others) w

/-- Every member has acknowledged a row: at a package that is not the root the row has come back from there, and a member performs it
(log entry 68). -/
def State.rowAcked (s : State) (m : McRow) (g : Group) : State :=
  let s := { s with agenda := s.agenda.filter fun d =>
    !(decide (d.row = Instr.peerTimeout) && decide (d.args.nat 0 = 3 ∧ d.args.nat 2 = m.id)) }
  if m.fail ≠ 0 then s.multicastBack m (some (m.fail, w64 m.group))
  else if g.root = s.pkg ∨ !g.members.testBit s.pkg then s.multicastBack m none
  else match s.performMulticast (coreDie m.core) m.vi m.va m.bytes g with
    | .error c => s.multicastBack m (some (c, w64 m.group))
    | .ok (s, w) => s.multicastBack { m with guard := w } none

/-- MULTICAST_FORWARD (R340): the operand names a row. One that has left this package has been acknowledged; else the oldest row of
its group that has not left goes: rows of a group are forwarded in their order of arrival. -/
def execMulticastForward (s : State) : Host.Outcome State Fault Refusal :=
  match s.mcRows.find? fun m => decide (m.id = s.ev.nat 0) with
  | none => .next s
  | some x =>
      let m := if x.sent then x else (s.mcRows.find? fun m => !m.sent && decide (m.vi = x.vi ∧ m.group = x.group)).getD x
      match SMap.get none s.groups (4096 * m.vi + m.group) with
      | none => .next (s.multicastBack m (some (cPROT, w64 m.group)))
      | some g => if m.sent then .next (s.rowAcked m g) else .next (s.forwardRow m g)

/-! ### Steps -/

/-- The step of CPY. -/
def execCpy (s : State) : Host.Outcome State Fault Refusal := s.engIssue .cpy startCpy
/-- The step of CPYG. -/
def execCpyg (s : State) : Host.Outcome State Fault Refusal := s.engIssue .cpyg startCpyg
/-- The step of CPYS. -/
def execCpys (s : State) : Host.Outcome State Fault Refusal := s.engIssue .cpys startCpys
/-- The step of CPYM. -/
def execCpym (s : State) : Host.Outcome State Fault Refusal := s.engIssue .cpym startCpym
/-- The step of PUB. -/
def execPub (s : State) : Host.Outcome State Fault Refusal := s.engIssue .pub startPub

end Sys2Proof.Machine
end

