-- ==== Sys2Proof/Machine/Bridle.lean ====
section
/-!
DEFINITION. The Bridle: entry of commands into the queues (R210, R218), engine streams (R92, R211, R212), ESTART and RENQ with
the inbox they share (R152, R219), EFLUSH (R220) and TCFG (R205).
-/

namespace Sys2Proof.Machine

/-! ### Entry into a queue -/

/-- Whether an instruction is a TCFG. -/
def isTcfg : Instr → Bool
  | .tcfg _ => true
  | _ => false

/-- Whether a TCFG of a cluster of the core holds the matrix queue (R205). -/
def Core.tcfgHolds (k : Core) : Bool :=
  k.cl.any fun e => match e.2.hold? with
    | some h => isTcfg h.instr
    | none => false

/-- Whether a queue accepts a command now. -/
def Core.accepts (k : Core) (q : Nat) : Bool :=
  decide ((k.queue q).length < queueSize q) && !(decide (q = 1) && k.tcfgHolds)

/-- Whether a command may enter a queue (Table 7-14). -/
def EngOp.inQueue : EngOp → Nat → Bool
  | .cwt _, _ | .cad _ _, _ => true
  | .cpy _, q | .cpyg _, q | .cpys _, q | .cpym _, q => decide (q ≠ 1)
  | .pub _, q => decide (q = 2)
  | _, q => decide (q = 1)

/-- The tile registers a command reads as activations. -/
def EngOp.sources (t : Word) : EngOp → List Nat
  | .mxrun _ _ tile src => if tile then (runTiles t src.toNat).1 else []
  | _ => []

/-- Whether the tile registers a command names pass T31 (R225, R226). -/
def EngOp.pastT31 (t : Word) : EngOp → Bool
  | .mxrun _ _ tile src => tile && (runTiles t src.toNat).1.any fun x => decide (32 ≤ x)
  | .mxout _ _ tile dst _ _ _ _ => tile && decide (32 < dst.toNat + (tcbM t + 15) / 16)
  | _ => false

/-- What the entry checks of R210 make of 96 bits. -/
def enterCheck (t : Word) (q w : Nat) : Except (Nat × Word) EngCmd :=
  match decodeCmd w with
  | none => .error (cENGILL, 0)
  | some c =>
      if !EngOp.inQueue c.op q then .error (cENGILL, 0)
      else if EngOp.pastT31 t c.op then .error (engShape 6 0)
      else .ok c

/-- A command that passed its checks enters a queue: the lock counts of its source registers rise from the next cycle. -/
def State.enterQueue (s : State) (q : Nat) (c : EngCmd) (sect : Option Nat) (stream : Nat) (origin : Word) : State :=
  let ts := EngOp.sources s.myCore.tcb c.op
  let s := if ts.isEmpty then s else s.land s.curCore 4 s.cycle (.lock ts true)
  s.modMyCore fun k =>
    k.setQueue q (k.queue q ++ [{ cmd := c, placed := s.cycle, sect := sect, stream := stream, origin := origin, resume := none }])

/-- EPUSH (R218). -/
def bodyEpush (o : EpushOps) (s : State) : Res :=
  let q := o.queue.toNat
  if !s.myCore.accepts q then .stall (.engQueue q)
  else
    let w := (s.x o.a).toNat * 2 ^ 32 + (s.x o.b).toNat % 2 ^ 32
    match enterCheck s.myCore.tcb q w with
    | .ok c => .done (s.landMine.enterQueue q c none 0 (w64 s.curCl))
    | .error e => .done (s.engFault s.curCore (queueUnit q) e.1 e.2 w s.curCl 0)

/-! ### The inbox -/

/-- Whether a wait is older than one that began in cycle `since`, of a cluster with gang rank `rank` and number `cl`. -/
def olderWait (h : Hold) (r c : Nat) (since rank cl : Nat) : Bool :=
  decide (h.since < since) || (decide (h.since = since) && (decide (r < rank) || (decide (r = rank) && decide (c < cl))))

/-- The clusters that wait for the inbox of core `n` and are taken before the cluster under way. -/
def State.inboxAhead (s : State) (n rank : Nat) : Nat :=
  let since := match s.me.hold? with
    | some h => if h.kind = .inbox n rank then h.since else s.cycle
    | none => s.cycle
  (s.cores.map fun e => (e.2.cl.filter fun x =>
    match x.2.hold? with
    | some h =>
        (match h.kind with
         | .inbox m _ => decide (m = n) && olderWait h e.2.grank.toNat x.1 since s.myCore.grank.toNat s.curCl
         | _ => false)
    | none => false).length).foldl (· + ·) 0

/-- Place an entry into the inbox of core `n`, of gang rank `rank`, or wait for room (R152). -/
def State.placeInbox (s : State) (n rank : Nat) (ea : Word) : Res :=
  if (s.core n).inbox.length + s.inboxAhead n rank < 8 then
    .done (s.modCore n fun k => { k with inbox := k.inbox ++ [{ addr := ea, placed := s.cycle }] })
  else .stall (.inbox n rank)

/-- RENQ (R152). TRAPINFO of its PROT is the rank or ea, whichever is refused (DESIGN CHOICE, log entry 81). -/
def bodyRenq (o : RenqOps) (s : State) : Res :=
  let ea := s.x o.ra
  let rank := (s.x o.rb).toNat
  match s.access .load 8 ea with
  | .error e => Res.denied e
  | .ok (s, _, pa) =>
      if !s.own pa then .trap cPROT ea
      else if s.myCore.gangSize ≤ rank then .trap cPROT (w64 rank)
      else match s.rankCore rank with
        | none => .trap cPROT (w64 rank)
        | some n => s.landMine.placeInbox n rank ea

/-- ESTART (R219). -/
def bodyEstart (o : XOnly) (s : State) : Res :=
  let ea := s.x o.a
  match s.access .load 8 ea with
  | .error e => Res.denied e
  | .ok (s, _, _) => s.landMine.placeInbox s.curCore s.myCore.grank.toNat ea

/-! ### EFLUSH -/

/-- The lock counts that a discarded command still holds (R220). -/
def QCmd.heldLocks (t : Word) (c : QCmd) : List Nat :=
  match c.cmd.op, c.resume with
  | .mxrun _ _ tile src, some r =>
      if tile then
        let q := runTiles t src.toNat
        q.1.filter fun y => decide (r.row ≤ lastRowOf t q.2 (y - src.toNat))
      else []
  | op, _ => EngOp.sources t op

/-- Discard the commands of a queue that have not issued; the sections of streams that lose commands count as retired. What of such a
section is fetched later keeps its dependences. -/
def Core.discardQueue (k : Core) (q : Nat) : Core :=
  let discarded (x : StreamSect) : Nat :=
    ((k.queue q).filter fun c => decide (x.eng = q ∧ c.sect = some x.num ∧ c.stream = x.stream)).length
  let less (x : StreamSect) : StreamSect :=
    if discarded x = 0 then x else { x with unretired := x.unretired - discarded x, lost := true }
  { (k.setQueue q []) with sections := k.sections.map less }

/-- Stop the current stream: no later section of it is defined. -/
def Core.stopStream (k : Core) : Core :=
  match k.stream with
  | none => k
  | some st =>
      let stopped := (List.range 3).foldl (fun m e => SMap.set 0 m (4 * st.id + e) (SMap.get 0 st.counts e + 1)) k.stopped
      { k with stream := none, stopped := stopped }

/-- The queues a mask selects. -/
def flushQueues (mask : Nat) : List Nat := (List.range 3).filter fun q => mask.testBit q

/-- What EFLUSH does at issue. -/
def Core.flush (k : Core) (mask : Nat) : Core :=
  let k := (flushQueues mask).foldl Core.discardQueue k
  if mask.testBit 3 then { k.stopStream with inbox := [] } else k

/-- The issued commands of the selected queues, by their order of issue. -/
def Core.toRetire (k : Core) (mask : Nat) : List Nat :=
  (k.issued.filter fun i => (flushQueues mask).contains i.queue).map fun i => i.r.order

/-- Whether commands that had issued have retired: they are neither issued nor stopped by XLATE. -/
def Core.flushed (k : Core) (orders : List Nat) : Bool :=
  !(k.issued.any fun i => orders.contains i.r.order) &&
    !([0, 1, 2].any fun q => (k.queue q).any fun c => match c.resume with | some r => orders.contains r.order | none => false)

/-- The FIFOs are set to 0 at the end of the wait. -/
def Core.flushTokens (k : Core) (mask : Nat) : Core :=
  if mask.testBit 4 then { k with tokens := [], freshTokens := [] } else k

/-- The lock counts that the discarded commands of the queues of a mask still hold. -/
def Core.lostLocks (k : Core) (mask : Nat) : List Nat := (flushQueues mask).flatMap fun q => (k.queue q).flatMap (QCmd.heldLocks k.tcb)

/-- EFLUSH (R220): the lock counts fall from the next cycle, as they rise. -/
def bodyEflush (o : EflushOps) (s : State) : Res :=
  let m := o.mask.toNat
  let ts := s.myCore.lostLocks m
  let s := (if ts.isEmpty then s else s.land s.curCore 4 s.cycle (.lock ts false)).modMyCore fun k => k.flush m
  let l := s.myCore.toRetire m
  if l.isEmpty then .done (s.modMyCore fun k => k.flushTokens m)
  else .hold s (s.blocking (.eflush o) 0 (m :: l))

/-! ### TCFG -/

/-- Whether the matrix queue is empty and both pipes are idle. -/
def Core.matrixIdle (k : Core) (cycle : Nat) : Bool :=
  k.matQ.isEmpty && decide (k.loaderFree ≤ cycle) && decide (k.runFree ≤ cycle) && decide (k.arrayFree ≤ cycle)

/-- The tile configuration block takes effect: the accumulators and both weight planes are cleared. -/
def Core.setTcb (k : Core) (t : Word) : Core := { k with tcb := t, acc := [], planes := [] }

/-- TCFG (R205): with the matrix queue empty and both pipes idle it completes in its issue cycle. -/
def bodyTcfg (o : XOnly) (s : State) : Res :=
  match tcbBad (s.x o.a) with
  | some r => .trap cSHAPE (w64 (256 * r))
  | none =>
      if s.myCore.matrixIdle s.cycle then .done (s.modMyCore fun k => k.setTcb (s.x o.a))
      else .hold s { s.blocking (.tcfg o) 0 [(s.x o.a).toNat] with kind := .engQueue 1 }

/-- The clusters of a core that wait in TCFG, in the order of issue, then of cluster number (R60). -/
def Core.tcfgWaiters (k : Core) : List (Nat × Hold) :=
  let l := k.cl.filterMap fun e => match e.2.hold? with
    | some h => if isTcfg h.instr then some (e.1, h) else none
    | none => none
  let put (l : List (Nat × Hold)) (x : Nat × Hold) : List (Nat × Hold) :=
    l.takeWhile (fun y => decide (y.2.since ≤ x.2.since)) ++ [x] ++ l.dropWhile (fun y => decide (y.2.since ≤ x.2.since))
  l.foldl put []

/-- TCFG_COMPLETE (R205): the operand is the core. Every TCFG that waits there completes in the cycle. -/
def execTcfgComplete (s : State) : Host.Outcome State Fault Refusal :=
  let s := { s with curCore := s.ev.nat 0 }
  if s.myCore.matrixIdle s.cycle then
    .next (s.myCore.tcfgWaiters.foldl (fun (s : State) (w : Nat × Hold) =>
      ({ s with curCl := w.1 }.modMyCore fun k => k.setTcb (w64 (w.2.vals.getD 0 0))).release w.2) s)
  else .next s

/-! ### Streams -/

/-- BRIDLE_STREAM_BEGIN (R211): the operand is the core. -/
def execBridleStreamBegin (s : State) : Host.Outcome State Fault Refusal :=
  let s := { s with curCore := s.ev.nat 0 }
  let k := s.myCore
  match k.stream, k.inbox with
  | none, e :: t =>
      if decide (e.placed < s.cycle) && s.bridleRuns s.curCore then
        let st : Stream :=
          { id := k.nextStream, start := e.addr, next := e.addr, left := 0, eng := 0, num := 0, counts := [] }
        .next (s.modMyCore fun k => { k with stream := some st, inbox := t, nextStream := k.nextStream + 1 })
      else .next s
  | _, _ => .next s

/-- Read `n` bytes of a stream for the Bridle. -/
def State.bridleRead (s : State) (va n : Nat) : Except (Nat × Word) (State × Nat × Option Word) :=
  match s.unitCheck (unitBridle s.curCore) s.myCore.asid.toNat .load (rangePieces va n) with
  | .error e => .error e
  | .ok (s, ps) =>
      match s.readPieces ps with
      | .error c => .error (c, w64 va)
      | .ok bs => .ok (s.trafficPieces (unitBridle s.curCore) ps .read, leNat bs, s.guardPieces ps)

/-- An engine fault of the Bridle at a stream; but for a translation fault, fetching of the stream stops. -/
def State.bridleFault (s : State) (st : Stream) (cause : Nat) (info : Word) : State :=
  let s := if cause = cXLATE then s else s.modMyCore Core.stopStream
  s.engFault s.curCore 4 cause info 0 st.start.toNat 0

/-- Take a section header (R92, R212) at `a`. -/
def State.takeHeader (s : State) (st : Stream) (a h : Nat) : State :=
  let eng := fld h 62 2
  let num := fld h 46 16
  let len := fld h 32 12
  if eng = 3 then
    if h % 2 ^ 62 ≠ 0 then s.bridleFault st cENGILL 0
    else
      let undefined (x : StreamSect) : Bool :=
        decide (x.stream = st.id) &&
          ((decide (x.afterNext ≠ 0xFFFF) && decide (SMap.get 0 st.counts (nextQ x.eng) ≤ x.afterNext)) ||
           (decide (x.afterPrev ≠ 0xFFFF) && decide (SMap.get 0 st.counts (prevQ x.eng) ≤ x.afterPrev)))
      if s.myCore.sections.any undefined then s.bridleFault st cENGILL 0
      else s.modMyCore fun k => { k with stream := none }
  else if fld h 44 2 ≠ 0 ∨ num ≠ SMap.get 0 st.counts eng then s.bridleFault st cENGILL 0
  else
    let x : StreamSect :=
      { stream := st.id, eng := eng, num := num, afterNext := fld h 16 16, afterPrev := fld h 0 16, empty := decide (len = 0),
        unretired := len }
    let st := { st with next := w64 (a + 8), left := len, eng := eng, num := num,
                        counts := SMap.set 0 st.counts eng (num + 1) }
    s.modMyCore fun k => { k with stream := some st, sections := k.sections ++ [x] }

/-- Take a command of the current section. -/
def State.takeCommand (s : State) (st : Stream) (w : Nat) : State :=
  let st' := { st with next := st.next + 12, left := st.left - 1 }
  let s := s.modMyCore fun k => { k with stream := some st' }
  match enterCheck s.myCore.tcb st.eng w with
  | .ok c => s.enterQueue st.eng c (some st.num) st.id st.start
  | .error e => s.engFault s.curCore (queueUnit st.eng) e.1 e.2 w st.start.toNat 0

/-- A guard touch of a fetch faults the node. -/
def State.bridleGuard (s : State) (st : Stream) (g : Option Word) : State :=
  match g with
  | some w => s.engFault s.curCore 4 cGUARD w 0 st.start.toNat 0
  | none => s

/-- The cycle from which the word of `n` bytes at `a` of a stream is fetched: at once from the own scratchpad, else after an open time
(R370). -/
def State.fetchAt (s : State) (st : Stream) (a n : Nat) : Nat :=
  if s.ownBytes (unitBridle s.curCore) a n then s.cycle else s.openAt st.gate a

/-- The word at `a` is still on its way: its open time is kept. -/
def State.fetchLater (s : State) (st : Stream) (a t : Nat) : State :=
  (s.drawn st.gate a).modMyCore fun k => { k with stream := some { st with gate := (a + 1, t) } }

/-- BRIDLE_FETCH (R211): the operand is the core. The padding after an odd number of commands is passed over unread: R92 gives nonzero
bytes in it no fate (DESIGN CHOICE, log entry 79). -/
def execBridleFetch (s : State) : Host.Outcome State Fault Refusal :=
  let s := { s with curCore := s.ev.nat 0 }
  match s.myCore.stream with
  | none => .next s
  | some st =>
      if !s.bridleRuns s.curCore then .next s
      else if st.left = 0 then
        let a := (st.next.toNat + 7) / 8 * 8
        let t := s.fetchAt st a 8
        if s.cycle < t then .next (s.fetchLater st a t)
        else match s.bridleRead a 8 with
        | .error e => .next (s.bridleFault st e.1 e.2)
        | .ok (s, h, g) => .next ((s.engProgress.takeHeader st a h).bridleGuard st g)
      else if !s.myCore.accepts st.eng then .next s
      else
        let t := s.fetchAt st st.next.toNat 12
        if s.cycle < t then .next (s.fetchLater st st.next.toNat t)
        else match s.bridleRead st.next.toNat 12 with
        | .error e => .next (s.bridleFault st e.1 e.2)
        | .ok (s, w, g) => .next ((s.engProgress.takeCommand st w).bridleGuard st g)

/-! ### Steps -/

/-- The step of RENQ. -/
def execRenq (o : RenqOps) (s : State) : Host.Outcome State Fault Refusal := s.issue (.renq o) (bodyRenq o)
/-- The step of EPUSH. -/
def execEpush (o : EpushOps) (s : State) : Host.Outcome State Fault Refusal := s.issue (.epush o) (bodyEpush o)
/-- The step of ESTART. -/
def execEstart (o : XOnly) (s : State) : Host.Outcome State Fault Refusal := s.issue (.estart o) (bodyEstart o)
/-- The step of EFLUSH. -/
def execEflush (o : EflushOps) (s : State) : Host.Outcome State Fault Refusal := s.issue (.eflush o) (bodyEflush o)
/-- The step of TCFG. -/
def execTcfg (o : XOnly) (s : State) : Host.Outcome State Fault Refusal := s.issue (.tcfg o) (bodyTcfg o)

end Sys2Proof.Machine
end

