-- ==== Sys2Proof/Machine/TileMem.lean ====
section
/-!
DEFINITION. Tile memory (R187-R190) and the record family but for SWP (R191-R193).
-/

namespace Sys2Proof.Machine

/-! ### Instructions of several accesses -/

/-- One access of an instruction that makes several: what it is for, its address, its device-physical address and its
leaf. -/
structure Piece where
  key : Nat
  ea : Nat
  pa : Nat
  ent : Nat
  deriving DecidableEq, Repr

/-- Pieces as operands of a wait. -/
def Piece.pack : List Piece → List Nat
  | [] => []
  | p :: t => p.key :: p.ea :: p.pa :: p.ent :: pack t

/-- The pieces of a wait. -/
def Piece.unpack : List Nat → List Piece
  | k :: e :: p :: n :: t => { key := k, ea := e, pa := p, ent := n } :: unpack t
  | _ => []

/-- The leaf of a piece. -/
def Piece.leaf (p : Piece) : TlbEntry := { asid := 0, vbase := 0, size := 0, ent := p.ent }

/-- The checks of R125 for several accesses, in order. -/
def State.checkEach (s : State) (n : Need) (align : Nat) : List (Nat × Word) → Except (Nat × Word) (State × List Piece)
  | [] => .ok (s, [])
  | p :: t =>
      match s.access n align p.2 with
      | .error e => .error e
      | .ok (s, l, pa) =>
          match s.checkEach n align t with
          | .error e => .error e
          | .ok (s, r) => .ok (s, { key := p.1, ea := p.2.toNat, pa := pa, ent := l.ent } :: r)

/-- The issue checks of several accesses: those of R125 for each, and after them for a store CNTSTORE at the first on a counter page
(R187, R286). -/
def State.checkAll (s : State) (n : Need) (align : Nat) (l : List (Nat × Word)) : Except (Nat × Word) (State × List Piece) :=
  match s.checkEach n align l with
  | .error e => .error e
  | .ok r =>
      match (if n = .store then r.2.find? fun p => pteC p.ent else none) with
      | some p => .error (cCNTSTORE, w64 p.ea)
      | none => .ok r

/-- A store of pieces with the bytes of each by offset: DTOVF when the DT buffer lacks room for those on DT pages, with
the address of the first of them; otherwise each enters the DT buffer or is posted (R187). -/
def storePieces (size : Nat) (ps : List (Piece × List (Nat × Byte))) (s : State) : Res :=
  let dt := ps.filter fun p => decide (pteKind p.1.ent = 3) && !p.2.isEmpty
  if decide (dt ≠ []) && decide (128 < s.me.dtBuf.length + dt.length) then
    .trap cDTOVF (w64 ((dt.map fun p => p.1.ea).headD 0))
  else
    .done (ps.foldl (fun s p =>
      if p.2.isEmpty then s
      else
        let s := p.2.foldl (fun s c => s.touch (p.1.pa + c.1) 1) s
        if pteKind p.1.ent = 3 then
          s.modMe fun c => { c with dtBuf := c.dtBuf ++ [{ va := p.1.ea, pa := p.1.pa, size := size, cells := p.2 }] }
        else (s.traffic p.1.pa size .write).post p.1.leaf p.1.pa p.2 (w64 p.1.ea)) s)

/-- The bytes of `n` consecutive bytes of a piece, as the cluster under way sees them at completion, or its precise
failure (R132, R244). -/
def State.loadPiece (s : State) (p : Piece) (n : Nat) : Except (Nat × Word) (List Byte) :=
  match s.dest p.leaf p.pa true with
  | .error c => .error (c, w64 p.ea)
  | .ok as => .ok (s.view (as.headD p.pa) n)

/-- All pieces of `n` bytes each, or the first failure. -/
def State.loadPieces (s : State) (n : Nat) : List Piece → Except (Nat × Word) (List (Nat × List Byte))
  | [] => .ok []
  | p :: t =>
      match s.loadPiece p n with
      | .error e => .error e
      | .ok b => match s.loadPieces n t with
        | .error e => .error e
        | .ok r => .ok ((p.key, b) :: r)

/-! ### VLD, VST -/

/-- The address of row i's segment (R188). -/
def segAddr (s : State) (o : TMem) (i : Nat) : Word := s.x o.a + w64 (i * 64 * o.pitch.toNat) + w64 (64 * s.curCl)

/-- The tile elements of a segment of row i for the enabled columns. -/
def segCells (d i : Nat) (lanes : List (Nat × Nat)) (bs : List Byte) : List (Nat × Elem) :=
  lanes.map fun l => (tileKey d i l.2, BitVec.ofNat 32 (leNat ((bs.drop (4 * l.1)).take 4)))

/-- The lanes of a mask of the cluster under way. -/
def State.maskLanes (s : State) (m : Nat) : List (Nat × Nat) :=
  ((List.range 16).filter fun i => m.testBit i).map fun i => (i, 16 * s.curCl + i)

/-- VLD (R188): latency 8 when every segment lies in the own scratchpad, otherwise blocking. -/
def bodyVld (o : TMem) (s : State) : Res :=
  if s.myCore.locked o.d.toNat then .stall (.lock o.d.toNat)
  else if (s.x o.a).toNat % 64 ≠ 0 then .trap cALIGN (s.x o.a)
  else match s.checkAll .load 64 ((List.range 16).map fun i => (i, segAddr s o i)) with
    | .error e => Res.denied e
    | .ok (s, ps) =>
        let s := ps.foldl (fun s p => s.reach p.pa 64 .read) s
        let lanes := s.lanes o.pred
        if ps.all fun p => s.own p.pa then
          .done (s.result 8 (.tile (ps.flatMap fun p => segCells o.d.toNat p.key lanes (s.view p.pa 64))))
        else .hold (s.completeOpen 1) (s.blocking (.vld o) (s.x o.a) ((s.p o.pred).toNat :: Piece.pack ps))

/-- Completion of a blocking VLD. -/
def vldDone (o : TMem) (h : Hold) (s : State) : Except (Nat × Word) State :=
  match s.loadPieces 64 (Piece.unpack (h.vals.drop 1)) with
  | .error e => .error e
  | .ok bs =>
      let lanes := s.maskLanes (h.vals.getD 0 0)
      .ok (s.resultOf h.since (.tile (bs.flatMap fun b => segCells o.d.toNat b.1 lanes b.2)))

/-- The bytes of one element with their offsets from `off`. -/
def elemBytes (off : Nat) (e : Elem) : List (Nat × Byte) :=
  (enumBytes (leBytes 4 e.toNat)).map fun b => (off + b.1, b.2)

/-- VST (R188). -/
def bodyVst (o : TMem) (s : State) : Res :=
  if (s.x o.a).toNat % 64 ≠ 0 then .trap cALIGN (s.x o.a)
  else match s.checkAll .store 64 ((List.range 16).map fun i => (i, segAddr s o i)) with
    | .error e => Res.denied e
    | .ok (s, ps) =>
        let lanes := s.lanes o.pred
        storePieces 64 (ps.map fun p =>
          (p, lanes.flatMap fun l => elemBytes (4 * l.1) (s.myCore.tile o.d.toNat p.key l.2))) s

/-! ### VLDG, VSTS -/

/-- The addresses of the enabled elements in ascending row, then column; the key is 64 * row + column (R189). -/
def gatherAddrs (s : State) (o : TIdx) : List (Nat × Word) :=
  (List.range 16).flatMap fun i => (s.lanes o.pred).map fun l =>
    (64 * i + l.2, s.x o.a + w64 (4 * (s.myCore.tile o.b.toNat i l.2).toNat))

/-- VLDG (R189). -/
def bodyVldg (o : TIdx) (s : State) : Res :=
  if s.myCore.locked o.d.toNat then .stall (.lock o.d.toNat)
  else if (s.x o.a).toNat % 4 ≠ 0 then .trap cALIGN (s.x o.a)
  else match s.checkAll .load 4 (gatherAddrs s o) with
    | .error e => Res.denied e
    | .ok (s, ps) =>
        let s := ps.foldl (fun s p => s.reach p.pa 4 .read) s
        .hold (s.completeOpen 1) (s.blocking (.vldg o) (s.x o.a) (Piece.pack ps))

/-- Completion of a VLDG. -/
def vldgDone (o : TIdx) (h : Hold) (s : State) : Except (Nat × Word) State :=
  match s.loadPieces 4 (Piece.unpack h.vals) with
  | .error e => .error e
  | .ok bs => .ok (s.resultOf h.since (.tile (bs.map fun b => (1024 * o.d.toNat + b.1, BitVec.ofNat 32 (leNat b.2)))))

/-- VSTS (R189). -/
def bodyVsts (o : TIdx) (s : State) : Res :=
  if (s.x o.a).toNat % 4 ≠ 0 then .trap cALIGN (s.x o.a)
  else match s.checkAll .store 4 (gatherAddrs s o) with
    | .error e => Res.denied e
    | .ok (s, ps) =>
        storePieces 4 (ps.map fun p => (p, elemBytes 0 (SMap.get 0 s.myCore.tiles (1024 * o.d.toNat + p.key)))) s

/-! ### VQPOP, VQPUSH -/

/-- VQPOP (R190). -/
def bodyVqpop (o : TQueue) (s : State) : Res :=
  if s.myCore.locked o.d.toNat then .stall (.lock o.d.toNat)
  else queueRead o.q.toNat true (fun data s =>
    .done (s.result 4 (.tile ((List.range 4).flatMap fun r => (s.lanes o.pred).map fun l =>
      (tileKey o.d.toNat (4 * o.g.toNat + r) l.2, BitVec.ofNat 32 (fld data (8 * (64 * r + 4 * l.1)) 32)))))) s

/-- VQPUSH (R190). -/
def bodyVqpush (o : TQueue) (s : State) : Res :=
  let data := (List.range 4).foldl (fun acc r => (s.lanes o.pred).foldl (fun acc l =>
    acc + (s.myCore.tile o.d.toNat (4 * o.g.toNat + r) l.2).toNat * 2 ^ (8 * (64 * r + 4 * l.1))) acc) 0
  queueWrite o.q.toNat data s

/-! ### Records, codebook and generators -/

/-- Schedule the completion of a load of several pieces: with latency `l` when all lie in the own scratchpad (R59). -/
def State.completeOwn (s : State) (l : Nat) (ps : List Piece) : State :=
  if ps.all fun p => s.own p.pa then s.completeIn l else s.completeOpen 1

/-- A blocking load of a record of `n` 64-byte or smaller chunks (R191). -/
def recLoad (i : Instr) (a : BitVec 5) (chunk n align : Nat) (s : State) : Res :=
  let ea := s.x a
  if ea.toNat % align ≠ 0 then .trap cALIGN ea
  else match s.checkAll .load chunk ((List.range n).map fun j => (j, ea + w64 (chunk * j))) with
    | .error e => Res.denied e
    | .ok (s, ps) =>
        let s := ps.foldl (fun s p => s.reach p.pa chunk .read) s
        .hold (s.completeOwn 8 ps) (s.blocking i ea (Piece.pack ps))

/-- Completion of a record load: `f` writes the bytes. -/
def recDone (chunk : Nat) (f : List Byte → Write) (h : Hold) (s : State) : Except (Nat × Word) State :=
  match s.loadPieces chunk (Piece.unpack h.vals) with
  | .error e => .error e
  | .ok bs => .ok (s.resultOf h.since (f (bs.flatMap fun b => b.2)))

/-- ILD (R191). -/
def bodyIld (o : RecMem) (s : State) : Res := recLoad (.ild o) o.a 128 1 128 s

/-- Completion of ILD. -/
def ildDone (o : RecMem) (h : Hold) (s : State) : Except (Nat × Word) State :=
  recDone 128 (fun bs => .ireg o.d.toNat (BitVec.ofNat 1024 (leNat bs))) h s

/-- SLD (R191). -/
def bodySld (o : RecMem) (s : State) : Res := recLoad (.sld o) o.a 32 1 32 s

/-- Completion of SLD. -/
def sldDone (o : RecMem) (h : Hold) (s : State) : Except (Nat × Word) State :=
  recDone 32 (fun bs => .sreg o.d.toNat (BitVec.ofNat 256 (leNat bs))) h s

/-- CBLD (R191). -/
def bodyCbld (o : XOnly) (s : State) : Res := recLoad (.cbld o) o.a 64 16 64 s

/-- Completion of CBLD. -/
def cbldDone (h : Hold) (s : State) : Except (Nat × Word) State :=
  recDone 64 (fun bs => .codebook (enumBytes bs)) h s

/-- IST (R191). -/
def bodyIst (o : RecMem) (s : State) : Res :=
  match s.checkAll .store 128 [(0, s.x o.a)] with
  | .error e => Res.denied e
  | .ok (s, ps) =>
      storePieces 128 (ps.map fun p => (p, enumBytes (leBytes 128 (SMap.get 0 s.myCore.iregs o.d.toNat).toNat))) s

/-- SEED (R193). -/
def bodySeed (o : XOnly) (s : State) : Res :=
  .done (s.modMe fun c => { c with srstate := srStore ((s.x o.a).truncate 32) })

/-- SEED.CE (R193): rows that begin converting after this cycle use it. -/
def bodySeedCe (o : XOnly) (s : State) : Res := .done (s.result 1 (.copySr (srStore ((s.x o.a).truncate 32))))

/-! ### Steps -/

/-- The step of VLD. -/
def execVld (o : TMem) (s : State) : Host.Outcome State Fault Refusal := s.issue (.vld o) (bodyVld o)
/-- The step of VST. -/
def execVst (o : TMem) (s : State) : Host.Outcome State Fault Refusal := s.issue (.vst o) (bodyVst o)
/-- The step of VLDG. -/
def execVldg (o : TIdx) (s : State) : Host.Outcome State Fault Refusal := s.issue (.vldg o) (bodyVldg o)
/-- The step of VSTS. -/
def execVsts (o : TIdx) (s : State) : Host.Outcome State Fault Refusal := s.issue (.vsts o) (bodyVsts o)
/-- The step of VQPOP. -/
def execVqpop (o : TQueue) (s : State) : Host.Outcome State Fault Refusal := s.issue (.vqpop o) (bodyVqpop o)
/-- The step of VQPUSH. -/
def execVqpush (o : TQueue) (s : State) : Host.Outcome State Fault Refusal := s.issue (.vqpush o) (bodyVqpush o)
/-- The step of ILD. -/
def execIld (o : RecMem) (s : State) : Host.Outcome State Fault Refusal := s.issue (.ild o) (bodyIld o)
/-- The step of IST. -/
def execIst (o : RecMem) (s : State) : Host.Outcome State Fault Refusal := s.issue (.ist o) (bodyIst o)
/-- The step of SLD. -/
def execSld (o : RecMem) (s : State) : Host.Outcome State Fault Refusal := s.issue (.sld o) (bodySld o)
/-- The step of CBLD. -/
def execCbld (o : XOnly) (s : State) : Host.Outcome State Fault Refusal := s.issue (.cbld o) (bodyCbld o)
/-- The step of SEED. -/
def execSeed (o : XOnly) (s : State) : Host.Outcome State Fault Refusal := s.issue (.seed o) (bodySeed o)
/-- The step of SEED.CE. -/
def execSeedCe (o : XOnly) (s : State) : Host.Outcome State Fault Refusal := s.issue (.seedCe o) (bodySeedCe o)

end Sys2Proof.Machine
end

