-- ==== Sys2Proof/Machine/Dist.lean ====
section
/-!
DEFINITION. The distribution unit: registers and tags (R270-R274), binary arithmetic (R277, R278), condensation (R279), unary,
mixing and tag instructions (R280-R283), constructors (R284), loads and stores (R285, R286) and extraction (R287, R288).
-/

namespace Sys2Proof.Machine

/-! ### Points and tags -/

/-- A point: the patterns of its value and its weight. -/
abbrev Point := BitVec 32 × BitVec 32

/-- The number of a point. -/
def pointKey (d j i : Nat) : Nat := 512 * d + 8 * j + i

/-- Point i of element j of D[d]. -/
def Core.point (k : Core) (d j i : Nat) : Point := (SMap.get 0 k.dval (pointKey d j i), SMap.get 0 k.dwt (pointKey d j i))

/-- The points of element j. -/
def Core.element (k : Core) (d j : Nat) : List Point := (List.range 8).map (k.point d j)

/-- The tag of D[d]. -/
def Core.tag (k : Core) (d : Nat) : BitVec 16 := SMap.get 0 k.dtags d

/-- The tag that an allocation returns (R272). -/
def Core.nextTag (k : Core) : BitVec 16 := if k.tagAlloc = 0 then 1 else k.tagAlloc

/-- Allocate a tag. -/
def State.takeTag (s : State) : State := s.modMyCore fun k => { k with tagAlloc := k.nextTag + 1 }

/-- The clusters whose columns a distribution instruction acts on: the issuing one, or all four in a wide word (R274). -/
def State.distClusters (s : State) : List Nat := if s.irSync then [0, 1, 2, 3] else [s.curCl]

/-- The columns of a cluster that its own P[n] selects. -/
def State.columnsOf (s : State) (c : Nat) (n : BitVec 3) : List Nat :=
  ((List.range 16).filter fun i => ((s.cluster s.curCore c).readP n.toNat).getLsbD i).map fun i => 16 * c + i

/-- Where a result tag comes from. -/
inductive TagOf where
  | is (t : BitVec 16)
  | fresh
  deriving DecidableEq, Repr

/-- The points of an element with their numbers. -/
def pointCells (d j : Nat) (ps : List Point) : List (Nat × BitVec 32 × BitVec 32) :=
  ((List.range 8).zip ps).map fun p => (pointKey d j p.1, p.2.1, p.2.2)

/-- The flags of the elements that a distribution instruction writes, over all the clusters it acts for (R113, R274). -/
def State.distFlags {α : Type} (s : State) (pred : BitVec 3) (f : Nat → α × FFlags) : FFlags :=
  (s.distClusters.flatMap fun c => s.columnsOf c pred).foldl (fun a j => a ||| (f j).2) fNone

/-- A distribution instruction that writes D[d] with latency `l`: the elements `f` computes for the selected columns, the
flags of the instruction for each cluster that writes an element (R274, log entry 71), and the tag. -/
def distOp (l : Nat) (d : BitVec 4) (tag : TagOf) (pred : BitVec 3) (f : Nat → List Point × FFlags) (s : State) : Res :=
  let t := match tag with | .is t => t | .fresh => s.myCore.nextTag
  let due := s.cycle + l - 1
  let cls := s.distClusters
  let start := match tag with | .is _ => s | .fresh => s.takeTag
  let fl := s.distFlags pred f
  .done ((cls.foldl (fun u c =>
    let rs := (s.columnsOf c pred).map fun j => (j, f j)
    let u := u.land s.curCore c due (.dist (rs.flatMap fun r => pointCells d.toNat r.1 r.2.1))
    if fl = fNone ∨ rs.isEmpty = true then u else u.land s.curCore c due (.flags fl)) start).land s.curCore s.curCl due (.dtag d.toNat t))

/-- A distribution instruction that writes row `r` of T[d] with latency `l`; it stalls while T[d] is locked (R63). -/
def extractOp (l : Nat) (d : BitVec 5) (r : Nat) (pred : BitVec 3) (f : Nat → Nat × FFlags) (s : State) : Res :=
  if s.myCore.locked d.toNat then .stall (.lock d.toNat)
  else
    let due := s.cycle + l - 1
    let fl := s.distFlags pred f
    .done (s.distClusters.foldl (fun u c =>
      let rs := (s.columnsOf c pred).map fun j => (j, f j)
      let u := u.land s.curCore c due (.tile (rs.map fun x => (tileKey d.toNat r x.1, BitVec.ofNat 32 x.2.1)))
      if fl = fNone ∨ rs.isEmpty = true then u else u.land s.curCore c due (.flags fl)) s)

/-! ### Arithmetic -/

/-- The value of an FP32 pattern. -/
def f32 (b : BitVec 32) : FVal := Fmt.fp32.value b.toNat

/-- round_rne to binary64. -/
def r64 (v : FVal) : FVal := Fmt.fp64.value (Fmt.fp64.ofVal .rne v).1

/-- round_rne to FP32, with its flags. -/
def r32 (v : FVal) : BitVec 32 × FFlags :=
  let x := Fmt.fp32.ofVal .rne v
  (BitVec.ofNat 32 x.1, x.2)

/-- The canonical NaN of FP32. -/
def nan32 : BitVec 32 := BitVec.ofNat 32 Fmt.fp32.nanBits

/-- 0.125 -/
def eighth : BitVec 32 := 0x3E000000

/-- IEEE binary64 division of values, the divisor positive and finite. -/
def div64 (a b : FVal) : FVal :=
  match a, b with
  | .nan, _ | _, .nan => .nan
  | .inf s, .fin t _ _ => .inf (s != t)
  | .inf _, .inf _ => .nan
  | .fin s _ _, .inf t => .fin (s != t) 0 0
  | .fin s m e, .fin t n g =>
      if n = 0 then (if m = 0 then .nan else .inf (s != t))
      else if m = 0 then .fin (s != t) 0 0
      else
        let sh := Nat.log2 n + 65
        let q := m * 2 ^ sh
        Fmt.fp64.value (Fmt.fp64.round .rne (s != t) (q / n) (e - g - sh) (decide (q % n ≠ 0))).1

/-- The operations of R277. -/
inductive DOp where
  | add | sub | mul | max
  deriving DecidableEq, Repr

/-- The exact result, and whether the operation is invalid. -/
def DOp.eval (o : DOp) (x y : FVal) : FVal × Bool :=
  if x.isNan || y.isNan then (.nan, false)
  else match o with
    | .add => (x.add false y, x.isInf && y.isInf && (x.sign != y.sign))
    | .sub => (x.add false y.neg, x.isInf && y.isInf && (x.sign == y.sign))
    | .mul => (x.mul y, (x.isInf && y.isZero) || (x.isZero && y.isInf))
    | .max => (x.maxz y, false)

/-- A pointwise result with its flags. -/
def pointResult (r : FVal × Bool) : BitVec 32 × FFlags :=
  if r.2 then (nan32, fInvalid) else if r.1.isNan then (nan32, fNone) else r32 r.1

/-! ### Condensation (R279) -/

/-- invalid_result -/
def invalidResult : List Point × FFlags := (List.replicate 8 (nan32, 0), fInvalid)

/-- Insert a point after those that do not come after it. -/
def insertPoint (p : FVal × FVal) : List (FVal × FVal) → List (FVal × FVal)
  | [] => [p]
  | q :: t => if p.1.lt q.1 || (!p.1.isNan && q.1.isNan) then p :: q :: t else q :: insertPoint p t

/-- Points in ascending order of value, equal ones in their order, NaN last. -/
def sortPoints (ps : List (FVal × FVal)) : List (FVal × FVal) := ps.foldl (fun l p => insertPoint p l) []

/-- Whether a weight is NaN, infinite or negative. -/
def badWeight (q : FVal) : Bool := q.isNan || q.isInf || (q.sign && !q.isZero)

/-- The smaller and the larger of two numbers. -/
def fmin (a b : FVal) : FVal := if b.lt a then b else a
/-- The larger. -/
def fmax (a b : FVal) : FVal := if a.lt b then b else a

/-- The sums of one bin: mass and moment. -/
structure Bin where
  lo : FVal
  hi : FVal
  m : FVal
  s : FVal

/-- A point whose cumulative weight goes from `c` to `e` adds its part to a bin. -/
def Bin.take (b : Bin) (c e p : FVal) : Bin :=
  let part := r64 ((fmin e b.hi).add false (fmax c b.lo).neg)
  if (FVal.zero false).lt part then
    { b with m := r64 (b.m.add false part), s := r64 (b.s.add false (r64 (part.mul p))) }
  else b

/-- condense: eight points of equal weight. -/
def condense (pts : List (FVal × FVal)) : List Point × FFlags :=
  if pts.any fun p => badWeight p.2 then invalidResult
  else
    let kept := sortPoints (pts.filter fun p => !p.2.isZero)
    let z := FVal.zero false
    let w := kept.foldl (fun a p => r64 (a.add false p.2)) z
    let b := r64 (w.scale (-3))
    if w.isZero || b.isZero then invalidResult
    else
      let wt := r32 b
      if kept.any fun p => p.1.isNan then (List.replicate 8 (nan32, wt.1), wt.2)
      else
        let bins : List Bin := (List.range 8).map fun (k : Nat) =>
          { lo := r64 ((FVal.ofInt (k : Nat)).mul b), hi := if k = 7 then w else r64 ((FVal.ofInt ((k + 1 : Nat) : Int)).mul b), m := z, s := z }
        let fin := kept.foldl (fun (a : FVal × List Bin) p =>
          let e := r64 (a.1.add false p.2)
          (e, a.2.map fun x => x.take a.1 e p.1)) (z, bins)
        let outs := fin.2.map fun x =>
          let q := div64 x.s x.m
          if q.isNan then (nan32, fInvalid) else r32 q
        (outs.map fun o => (o.1, wt.1), outs.foldl (fun a o => a ||| o.2) wt.2)

/-! ### Binary instructions -/

/-- Whether a binary instruction combines pointwise (R277). -/
def pointwise (pw : Bool) (ta tb : BitVec 16) : Bool := pw || decide (ta = tb) || decide (ta = 0) || decide (tb = 0)

/-- An element of a pointwise combination. -/
def pointPairs (o : DOp) (pw : Bool) (ta tb : BitVec 16) (a b : List Point) : List Point × FFlags :=
  let rs := (a.zip b).map fun p =>
    let r := pointResult (o.eval (f32 p.1.1) (f32 p.2.1))
    ((r.1, if decide (ta = 0) && decide (tb ≠ 0) && !pw then p.2.2 else p.1.2), r.2)
  (rs.map fun r => r.1, rs.foldl (fun a r => a ||| r.2) fNone)

/-- An element of an all-pairs combination (R278). -/
def allPairs (o : DOp) (a b : List Point) : List Point × FFlags :=
  let ps := a.flatMap fun x => b.map fun y =>
    let r := o.eval (f32 x.1) (f32 y.1)
    (((if r.2 then FVal.nan else r64 r.1), r64 ((f32 x.2).mul (f32 y.2))), r.2)
  let c := condense (ps.map fun p => p.1)
  (c.1, if ps.any fun p => p.2 then c.2 ||| fInvalid else c.2)

/-- DADD, DSUB, DMUL and DMAX (R277, R278). -/
def dbinBody (op : DOp) (o : DBin) (s : State) : Res :=
  let k := s.myCore
  let ta := k.tag o.a.toNat
  let tb := k.tag o.b.toNat
  let a (j : Nat) := k.element o.a.toNat j
  let b (j : Nat) := k.element o.b.toNat j
  if pointwise o.pw ta tb then
    distOp (if o.pw then 6 else 48) o.d (.is (if ta ≠ 0 then ta else tb)) o.pred
      (fun j => pointPairs op o.pw ta tb (a j) (b j)) s
  else distOp 48 o.d .fresh o.pred (fun j => allPairs op (a j) (b j)) s

/-! ### Unary and mixing instructions -/

/-- A unary pointwise instruction (R280). -/
def dunBody (d a : BitVec 4) (pred : BitVec 3) (f : Nat → BitVec 32 → BitVec 32 × FFlags) (s : State) : Res :=
  let k := s.myCore
  distOp 6 d (.is (k.tag a.toNat)) pred (fun j =>
    let rs := (k.element a.toNat j).map fun p => ((f j p.1), p.2)
    (rs.map fun r => (r.1.1, r.2), rs.foldl (fun x r => x ||| r.1.2) fNone)) s

/-- DRELU of a value. -/
def reluBits (v : BitVec 32) : BitVec 32 :=
  let x := f32 v
  if x.isNan then nan32 else if x.sign || x.isZero then 0 else v

/-- The function of a DAPP code. -/
def dappFn : Nat → SpFn
  | 0 => .rcp | 1 => .rsq | 2 => .sqrt | 3 => .exp2 | 4 => .log2 | 5 => .sin | 6 => .cos | 7 => .tanh | 8 => .sigm | _ => .erf

/-- The points of a mixture (R281). -/
def mixPoints (pi : FVal) (a b : List Point) : List (FVal × FVal) :=
  let rest := (FVal.ofInt 1).add false pi.neg
  (a.map fun p => (f32 p.1, r64 (pi.mul (f32 p.2)))) ++ (b.map fun p => (f32 p.1, r64 (rest.mul (f32 p.2))))

/-- An element of DMIX. -/
def mixElem (pi : FVal) (a b : List Point) : List Point × FFlags :=
  if pi.isNan || pi.lt (.zero false) || (FVal.ofInt 1).lt pi then invalidResult else condense (mixPoints pi a b)

/-! ### Constructors (R284) -/

/-- An element of DMKU. -/
def uniformElem (lo hi : FVal) : List Point × FFlags :=
  if lo.isNan || hi.isNan then (List.replicate 8 (nan32, eighth), fNone)
  else if lo.isInf || hi.isInf then (List.replicate 8 (nan32, eighth), fInvalid)
  else
    let d := hi.add false lo.neg
    let rs := (List.range 8).map fun (i : Nat) => r32 (lo.add false ((((FVal.ofInt ((2 * i + 1 : Nat) : Int)).mul d)).scale (-4)))
    (rs.map fun r => (r.1, eighth), rs.foldl (fun a r => a ||| r.2) fNone)

/-! ### Loads and stores (R285, R286) -/

/-- The addresses of the elements of the image at `ea` that an instruction acts on, by column. -/
def State.imageAddrs (s : State) (ea : Word) : List (Nat × Word) :=
  s.distClusters.flatMap fun c => (List.range 16).map fun i => (16 * c + i, ea + w64 (64 * (16 * c + i)))

/-- The points of an element's 64 bytes (R271). -/
def imagePoints (d j : Nat) (bs : List Byte) : List (Nat × BitVec 32 × BitVec 32) :=
  let w (off : Nat) : BitVec 32 := BitVec.ofNat 32 (leNat ((bs.drop off).take 4))
  (List.range 8).map fun i => (pointKey d j i, w (4 * i), w (32 + 4 * i))

/-- The 64 bytes of an element. -/
def elementImage (ps : List Point) : List Byte :=
  (ps.flatMap fun p => leBytes 4 p.1.toNat) ++ (ps.flatMap fun p => leBytes 4 p.2.toNat)

/-- The elements that a DLD reads, each as its own cluster sees it (R253), or the first failure. -/
def State.loadElements (s : State) : List Piece → Except (Nat × Word) (List (Nat × List Byte))
  | [] => .ok []
  | p :: t =>
      match { s with curCl := p.key / 16 }.loadPiece p 64 with
      | .error e => .error e
      | .ok b => match s.loadElements t with
        | .error e => .error e
        | .ok r => .ok ((p.key, b) :: r)

/-- Completion of DLD: the elements and, unless the tag is kept, the tag. -/
def dldDone (o : DLdOps) (h : Hold) (s : State) : Except (Nat × Word) State :=
  match s.loadElements (Piece.unpack (h.vals.drop 1)) with
  | .error e => .error e
  | .ok bs =>
      let s := s.resultOf h.since (.dist (bs.flatMap fun b => imagePoints o.d.toNat b.1 b.2))
      .ok (if o.mode = 2 then s else s.resultOf h.since (.dtag o.d.toNat (BitVec.ofNat 16 (h.vals.getD 0 0))))

/-- Store the elements of each cluster. -/
def dstClusters (o : DStOps) (ps : List Piece) : List Nat → State → Res
  | [], s => .done s
  | c :: t, s =>
      let cl := s.curCl
      let mine := (ps.filter fun p => decide (p.key / 16 = c)).map fun p =>
        (p, enumBytes (elementImage (s.myCore.element o.d.toNat p.key)))
      match storePieces 64 mine { s with curCl := c } with
      | .done u => dstClusters o ps t { u with curCl := cl }
      | r => r

/-! ### Extraction (R287, R288) -/

/-- The points whose weight is not zero, as values. -/
def weighted (ps : List Point) : List (FVal × FVal) := (ps.map fun p => (f32 p.1, f32 p.2)).filter fun p => !p.2.isZero

/-- `n` further products by `d`, each rounded. -/
def powMul (d : FVal) : Nat → FVal → FVal
  | 0, x => x
  | n + 1, x => powMul d n (r64 (x.mul d))

/-- The statistic of DMOM with `k` - 1 = `n`. A NaN that arises from no NaN is that of a difference of infinities, which is invalid
(R112). -/
def moment (n : Nat) (ps : List Point) : Nat × FFlags :=
  let z := FVal.zero false
  let l := weighted ps
  if l.any fun p => badWeight p.2 then (nan32.toNat, fInvalid)
  else
    let w := l.foldl (fun a p => r64 (a.add false p.2)) z
    if w.isZero then (nan32.toNat, fInvalid)
    else if l.any fun p => p.1.isNan then (nan32.toNat, fNone)
    else
      let m := div64 (l.foldl (fun a p => r64 (a.add false (r64 (p.2.mul p.1)))) z) w
      let res :=
        if n = 0 then m
        else div64 (l.foldl (fun a p =>
          let d := r64 (p.1.add false m.neg)
          r64 (a.add false (r64 (p.2.mul (powMul d n d))))) z) w
      if res.isNan then (nan32.toNat, fInvalid) else Fmt.fp32.ofVal .rne res

/-- The first point whose cumulative weight `c` satisfies 1,000 c ≥ q W. -/
def quantileAt (q : Nat) (w : FVal) : FVal → List (FVal × FVal × BitVec 32) → BitVec 32
  | _, [] => nan32
  | c, p :: t =>
      let c := r64 (c.add false p.2.1)
      if ((FVal.ofInt 1000).mul c).lt ((FVal.ofInt q).mul w) then quantileAt q w c t else p.2.2

/-- Insert a point with its pattern in the order of R279. -/
def insertPat (p : FVal × FVal × BitVec 32) : List (FVal × FVal × BitVec 32) → List (FVal × FVal × BitVec 32)
  | [] => [p]
  | q :: t => if p.1.lt q.1 then p :: q :: t else q :: insertPat p t

/-- The quantile of DQNT. -/
def quantile (q : Nat) (ps : List Point) : Nat × FFlags :=
  let z := FVal.zero false
  let l := (ps.map fun p => (f32 p.1, f32 p.2, p.1)).filter fun p => !p.2.1.isZero
  if l.any fun p => badWeight p.2.1 then (nan32.toNat, fInvalid)
  else
    let sorted := l.foldl (fun a p => insertPat p a) []
    let w := sorted.foldl (fun a p => r64 (a.add false p.2.1)) z
    if w.isZero then (nan32.toNat, fInvalid)
    else if l.any fun p => p.1.isNan then (nan32.toNat, fNone)
    else ((quantileAt q w z sorted).toNat, fNone)

/-! ### Meanings -/

/-- DADD (R277, R278). -/
def bodyDadd (o : DBin) (s : State) : Res :=
  dbinBody .add o s

/-- The step of DADD. -/
def execDadd (o : DBin) (s : State) : Host.Outcome State Fault Refusal := s.issue (.dadd o) (bodyDadd o)

/-- DSUB (R277, R278). -/
def bodyDsub (o : DBin) (s : State) : Res :=
  dbinBody .sub o s

/-- The step of DSUB. -/
def execDsub (o : DBin) (s : State) : Host.Outcome State Fault Refusal := s.issue (.dsub o) (bodyDsub o)

/-- DMUL (R277, R278). -/
def bodyDmul (o : DBin) (s : State) : Res :=
  dbinBody .mul o s

/-- The step of DMUL. -/
def execDmul (o : DBin) (s : State) : Host.Outcome State Fault Refusal := s.issue (.dmul o) (bodyDmul o)

/-- DMAX (R277, R278). -/
def bodyDmax (o : DBin) (s : State) : Res :=
  dbinBody .max o s

/-- The step of DMAX. -/
def execDmax (o : DBin) (s : State) : Host.Outcome State Fault Refusal := s.issue (.dmax o) (bodyDmax o)

/-- DMIX (R281). -/
def bodyDmix (o : DMixOps) (s : State) : Res :=
  let k := s.myCore
  distOp 48 o.d .fresh o.pred (fun j =>
    mixElem (f32 (k.tile o.t.toNat o.r.toNat j)) (k.element o.a.toNat j) (k.element o.b.toNat j)) s

/-- The step of DMIX. -/
def execDmix (o : DMixOps) (s : State) : Host.Outcome State Fault Refusal := s.issue (.dmix o) (bodyDmix o)

/-- DCOND (R282). -/
def bodyDcond (o : DUn) (s : State) : Res :=
  let k := s.myCore
  distOp 48 o.d .fresh o.pred (fun j => condense ((k.element o.a.toNat j).map fun p => (f32 p.1, f32 p.2))) s

/-- The step of DCOND. -/
def execDcond (o : DUn) (s : State) : Host.Outcome State Fault Refusal := s.issue (.dcond o) (bodyDcond o)

/-- DSCL (R280). -/
def bodyDscl (o : DRow) (s : State) : Res :=
  let k := s.myCore
  dunBody o.d o.a o.pred (fun j v => pointResult (DOp.eval .mul (f32 v) (f32 (k.tile o.t.toNat o.r.toNat j)))) s

/-- The step of DSCL. -/
def execDscl (o : DRow) (s : State) : Host.Outcome State Fault Refusal := s.issue (.dscl o) (bodyDscl o)

/-- DSHF (R280). -/
def bodyDshf (o : DRow) (s : State) : Res :=
  let k := s.myCore
  dunBody o.d o.a o.pred (fun j v => pointResult (DOp.eval .add (f32 v) (f32 (k.tile o.t.toNat o.r.toNat j)))) s

/-- The step of DSHF. -/
def execDshf (o : DRow) (s : State) : Host.Outcome State Fault Refusal := s.issue (.dshf o) (bodyDshf o)

/-- DRELU (R280). -/
def bodyDrelu (o : DUn) (s : State) : Res :=
  dunBody o.d o.a o.pred (fun _ v => (reluBits v, fNone)) s

/-- The step of DRELU. -/
def execDrelu (o : DUn) (s : State) : Host.Outcome State Fault Refusal := s.issue (.drelu o) (bodyDrelu o)

/-- DAPP (R280, R177). -/
def bodyDapp (o : DAppOps) (s : State) : Res :=
  dunBody o.d o.a o.pred (fun _ v =>
    let r := special (dappFn o.fn.toNat) .fp32 .rne 0 (f32 v)
    (BitVec.ofNat 32 r.1, r.2)) s

/-- The step of DAPP. -/
def execDapp (o : DAppOps) (s : State) : Host.Outcome State Fault Refusal := s.issue (.dapp o) (bodyDapp o)

/-- DTAG (R283). -/
def bodyDtag (o : DTagOps) (s : State) : Res :=
  let k := s.myCore
  distOp 6 o.d (.is (k.tag o.b.toNat)) o.pred (fun j => (k.element o.a.toNat j, fNone)) s

/-- The step of DTAG. -/
def execDtag (o : DTagOps) (s : State) : Host.Outcome State Fault Refusal := s.issue (.dtag o) (bodyDtag o)

/-- DTAGPM (R283). -/
def bodyDtagPm (o : DUn) (s : State) : Res :=
  let k := s.myCore
  distOp 6 o.d (.is 0) o.pred (fun j => (k.element o.a.toNat j, fNone)) s

/-- The step of DTAGPM. -/
def execDtagPm (o : DUn) (s : State) : Host.Outcome State Fault Refusal := s.issue (.dtagPm o) (bodyDtagPm o)

/-- TAGNEXT (R283). -/
def bodyTagnext (o : DUn) (s : State) : Res :=
  let k := s.myCore
  distOp 6 o.d .fresh o.pred (fun j => (k.element o.a.toNat j, fNone)) s

/-- The step of TAGNEXT. -/
def execTagnext (o : DUn) (s : State) : Host.Outcome State Fault Refusal := s.issue (.tagnext o) (bodyTagnext o)

/-- DLD (R285). -/
def bodyDld (o : DLdOps) (s : State) : Res :=
  let ea := s.x o.a
  if ea.toNat % 64 ≠ 0 then .trap cALIGN ea
  else match s.checkAll .load 64 (s.imageAddrs ea) with
    | .error e => Res.denied e
    | .ok (s, ps) =>
        let s := ps.foldl (fun s p => s.reach p.pa 64 .read) s
        let t := if o.mode = 0 then s.myCore.nextTag.toNat else 0
        let s := if o.mode = 0 then s.takeTag else s
        .hold (s.completeOwn 8 ps) (s.blocking (.dld o) ea (t :: Piece.pack ps))

/-- The step of DLD. -/
def execDld (o : DLdOps) (s : State) : Host.Outcome State Fault Refusal := s.issue (.dld o) (bodyDld o)

/-- DST (R286). -/
def bodyDst (o : DStOps) (s : State) : Res :=
  let ea := s.x o.a
  if ea.toNat % 64 ≠ 0 then .trap cALIGN ea
  else match s.checkAll .store 64 (s.imageAddrs ea) with
    | .error e => Res.denied e
    | .ok (s, ps) => dstClusters o ps s.distClusters s

/-- The step of DST. -/
def execDst (o : DStOps) (s : State) : Host.Outcome State Fault Refusal := s.issue (.dst o) (bodyDst o)

/-- DMKP (R284). -/
def bodyDmkp (o : DMk1) (s : State) : Res :=
  let k := s.myCore
  distOp 6 o.d (.is 0) o.pred (fun j =>
    let v := k.tile o.a.toNat o.r.toNat j
    (List.replicate 8 ((if (f32 v).isNan then nan32 else v), eighth), fNone)) s

/-- The step of DMKP. -/
def execDmkp (o : DMk1) (s : State) : Host.Outcome State Fault Refusal := s.issue (.dmkp o) (bodyDmkp o)

/-- DMKU (R284). -/
def bodyDmku (o : DMk2) (s : State) : Res :=
  let k := s.myCore
  distOp 6 o.d .fresh o.pred (fun j =>
    uniformElem (f32 (k.tile o.a.toNat o.rlo.toNat j)) (f32 (k.tile o.a.toNat o.rhi.toNat j))) s

/-- The step of DMKU. -/
def execDmku (o : DMk2) (s : State) : Host.Outcome State Fault Refusal := s.issue (.dmku o) (bodyDmku o)

/-- DMKQ (R284). -/
def bodyDmkq (o : DMk1) (s : State) : Res :=
  let k := s.myCore
  distOp 6 o.d .fresh o.pred (fun j =>
    ((List.range 8).map fun i => (k.tile o.a.toNat (o.r.toNat + i) j, eighth), fNone)) s

/-- The step of DMKQ. -/
def execDmkq (o : DMk1) (s : State) : Host.Outcome State Fault Refusal := s.issue (.dmkq o) (bodyDmkq o)

/-- DMOM (R287). -/
def bodyDmom (o : DMomOps) (s : State) : Res :=
  let k := s.myCore
  extractOp 12 o.d o.r.toNat o.pred (fun j => moment o.k.toNat (k.element o.a.toNat j)) s

/-- The step of DMOM. -/
def execDmom (o : DMomOps) (s : State) : Host.Outcome State Fault Refusal := s.issue (.dmom o) (bodyDmom o)

/-- DQNT (R288). -/
def bodyDqnt (o : DQntOps) (s : State) : Res :=
  let k := s.myCore
  extractOp 16 o.d o.r.toNat o.pred (fun j => quantile o.q.toNat (k.element o.a.toNat j)) s

/-- The step of DQNT. -/
def execDqnt (o : DQntOps) (s : State) : Host.Outcome State Fault Refusal := s.issue (.dqnt o) (bodyDqnt o)

end Sys2Proof.Machine
end

