-- ==== Sys2Proof/Machine/Fetch.lean ====
section
/-!
DEFINITION. Fetching the words of an instruction (R75, R87).
-/

namespace Sys2Proof.Machine

/-- The 32-bit word at a virtual address for cluster `c` of core `n`, under the execute permission of its page, or the
cause of row 1 or 3 of Table 7-12; through a window of the own package it fails where the window does (R244). DESIGN CHOICE (log entry
76): fetch is not ordered with stores (R76), and the model's fetch reads every store that has been performed. -/
def State.fetchWord (s : State) (n c : Nat) (va : Nat) : Except Nat (State × Nat) :=
  match s.check (unitCore n) (s.core n).asid.toNat (s.cluster n c).super .fetch va with
  | .error e => .error e
  | .ok t => match s.target (t.pa va) false with
    | some a => .ok (s.fill (unitCore n) t, s.readN a 4)
    | none => .error cPROT

/-- What fetching an instruction gives: its bits, or the trap of a row of Table 7-12. -/
inductive Fetched where
  | word (s : State) (w : Nat)
  | bad (s : State) (cause : Nat) (info : Word) (w : Nat)

/-- The later words of an instruction, `k` of them from `va`, above the bits `w` already fetched (row 3). -/
def State.fetchMore (s : State) (n c : Nat) : Nat → Nat → Nat → Nat → Fetched
  | 0, _, _, w => .word s w
  | k + 1, va, sh, w =>
      match s.fetchWord n c (va % 2 ^ 64) with
      | .error e => .bad s e (w64 va) w
      | .ok (s, v) => s.fetchMore n c k (va + 4) (sh + 32) (w + v * 2 ^ sh)

/-- Rows 1 to 3 of Table 7-12: the first word, its length, the later words. -/
def State.fetch (s : State) (n c : Nat) (va : Nat) : Fetched :=
  match s.fetchWord n c va with
  | .error e => .bad s e (w64 va) 0
  | .ok (s, w) =>
      match wordLen w with
      | 0 => .bad s cILLEN 0 w
      | l => s.fetchMore n c (l / 4 - 1) (va + 4) 32 w

end Sys2Proof.Machine
end

