-- ==== Sys2Proof/Machine/Tlb.lean ====
section
/-!
DEFINITION. Translation maintenance: TLBI (R160), TLBSYNC (R161), the dropping of entries and its acknowledgement (R266, R269).
-/

namespace Sys2Proof.Machine

/-- The die of a unit with a translation cache. -/
def unitDie (u : Nat) : Nat := if u < 3000 then coreDie (u % 1000) else u % 1000

/-- Whether a unit lies within a scope as seen from a die: 2 die, 3 package, 4 system. -/
def inScope (scope die u : Nat) : Bool := decide (3 ≤ scope) || decide (unitDie u = die)

/-- Whether a TLBI reaches a page of an ASID. -/
def Ticket.hitsPage (t : Ticket) (asid base size : Nat) : Bool :=
  (match t.asid with | none => true | some a => decide (a = asid)) &&
  decide (t.len ≠ 0) && decide (base < t.lo + t.len) && decide (t.lo < base + size)

/-- Whether a TLBI removes an entry (R160). -/
def Ticket.hits (t : Ticket) (e : TlbEntry) : Bool := t.hitsPage e.asid e.vbase e.size

/-- Whether an access in flight was made under a translation that a TLBI removes (R269). -/
def Ticket.hitsUse (t : Ticket) (u : Use) : Bool := t.hitsPage u.asid u.base u.size

/-! ### Accesses in flight (R161, R268, R269) -/

/-- The translated accesses that a wait holds: addresses and leaves. An atomic on the own scratchpad has been performed, and one on
another's travels as a message. -/
def Hold.flights (h : Hold) : List (Nat × Nat) :=
  let pieces (l : List Nat) : List (Nat × Nat) := (Piece.unpack l).map fun p => (p.ea, p.ent)
  match h.kind with
  | .relay _ k => if k = 0 then [(h.ea.toNat, h.vals.getD 1 0)] else []
  | .blocking =>
      (match h.instr with
       | .ldB _ | .ldBu _ | .ldH _ | .ldHu _ | .ldW _ | .ldWu _ | .ldD _ | .lda _ | .creadPage _ => [(h.ea.toNat, h.vals.getD 4 0)]
       | .aadd _ | .amin _ | .amax _ | .aminu _ | .amaxu _ | .aand _ | .aor _ | .axor _ | .aswp _ | .acas _ | .afadd _ =>
           if h.vals.headD 0 = 2 then [(h.vals.getD 12 0, h.vals.getD 13 0)] else []
       | .vld _ | .dld _ => pieces (h.vals.drop 1)
       | .vldg _ | .ild _ | .sld _ | .cbld _ => pieces h.vals
       | _ => [])
  | _ => []

/-- The translated access of a step due, with its core: an LDQ fill or an atomic message. -/
def Due.flight (d : Due) : List (Nat × Nat × Nat) :=
  if d.row = .ldqFill then [(d.args.nat 0, d.args.nat 8, d.args.nat 4)]
  else if d.row = .atomicMessageArrival then [(d.args.nat 0, d.args.nat 11, d.args.nat 12)]
  else []

/-- Every access in flight that a unit made under a translation: those of clusters, and the slabs of the relay ports. Every other access
is performed in the step that translates it. -/
def State.flights (s : State) : List Use :=
  (s.cores.flatMap fun e => e.2.cl.flatMap fun x => match x.2.hold? with
    | some h => h.flights.map fun p => Use.of_ (unitCore e.1) p.1 p.2
    | none => []) ++
  (s.agenda.flatMap fun d => d.flight.map fun p => Use.of_ (unitCore p.1) p.2.1 p.2.2) ++
  (s.chans.flatMap fun e => e.2.slabs.flatMap fun x => x.uses) ++ s.lates.flatMap fun l => l.uses

/-- Whether every access that a unit issued under a translation which a TLBI removes has been performed. -/
def State.unitDrained (s : State) (u : Nat) (t : Ticket) : Bool := !s.flights.any fun x => decide (x.unit = u) && t.hitsUse x

/-- The units of a TLBI's scope that hold an entry it removes. -/
def State.hitUnits (s : State) (die : Nat) (t : Ticket) : List Nat :=
  (s.tlbs.filter fun e => inScope t.scope die e.1 && e.2.any t.hits).map fun e => e.1

/-- The other units of its scope that have such an access in flight (R269); every unit beside these acknowledges at once. -/
def State.busyUnits (s : State) (die : Nat) (t : Ticket) : List Nat :=
  (((s.flights.filter fun x => inScope t.scope die x.unit && t.hitsUse x).map fun x => x.unit).filter fun u =>
    !(s.hitUnits die t).contains u).eraseDups

/-- Issue a TLBI: its ticket, and for each unit concerned, after an open time, a drop, or its acknowledgement where it holds no entry. -/
def State.invalidate (s : State) (core cl die : Nat) (asid : Option Nat) (lo len scope : Nat) : State :=
  let t : Ticket :=
    { id := s.nextId, core := core, cl := cl, asid := asid, lo := lo, len := len, scope := scope, undropped := [],
      unacked := [], doneAt := none }
  let us := s.hitUnits die t
  let bs := s.busyUnits die t
  let t := { t with undropped := us, unacked := us ++ bs, doneAt := if (us ++ bs).isEmpty then some s.cycle else none }
  let s := { s with nextId := s.nextId + 1, tickets := s.tickets ++ [t] }
  bs.foldl (fun s u => s.scheduleOpen 1 .tlbiAcknowledge (.nats [u, t.id]))
    (us.foldl (fun s u => s.scheduleOpen 1 .tlbEntryDrop (.nats [u, t.id])) s)

/-- The ticket with a number. -/
def State.ticket (s : State) (id : Nat) : Option Ticket := s.tickets.find? fun t => decide (t.id = id)

/-- Change a ticket. -/
def State.modTicket (s : State) (id : Nat) (f : Ticket → Ticket) : State :=
  { s with tickets := s.tickets.map fun t => if t.id = id then f t else t }

/-- A waiter on a counter page whose page is no longer mapped, when its unit drops the entry (Table 11-8). -/
def State.unmapWaiter (s : State) (n : Nat) (t : Ticket) (c : Cluster) : Cluster :=
  match c.act with
  | .waiting h =>
      (match h.kind with
       | .cwait (.page pa va) =>
           let gone : Bool := match s.lookup (unitCore n) (s.core n).asid.toNat va with
             | none => true
             | some l => !pteC l.ent
           if gone && decide (t.lo ≤ va) && decide (va < t.lo + t.len) then
             { c with act := .waiting { h with kind := .unmapped (.page pa va) t.id, since := s.cycle } }
           else c
       | _ => c)
  | _ => c

/-- A unit's cache without the entries that a TLBI removes. -/
def State.dropHits (s : State) (u : Nat) (t : Ticket) : State :=
  { s with tlbs := SMap.set [] s.tlbs u ((SMap.get [] s.tlbs u).filter fun e => !t.hits e) }

/-- TLB_ENTRY_DROP (R269): the operands are the unit and the ticket. The unit removes the entries; it acknowledges later. -/
def execTlbEntryDrop (s : State) : Host.Outcome State Fault Refusal :=
  let u := s.ev.nat 0
  match s.ticket (s.ev.nat 1) with
  | none => .next s
  | some t =>
      if !t.undropped.contains u then .next s
      else
        let s := (s.dropHits u t).modTicket t.id fun t => { t with undropped := t.undropped.filter fun x => decide (x ≠ u) }
        let s :=
          if u < 1000 then
            s.modCore u fun k => { k with cl := k.cl.map fun e => (e.1, s.unmapWaiter u t e.2) }
          else s
        .next (s.scheduleOpen 1 .tlbiAcknowledge (.nats [u, t.id]))

/-- TLBI_ACKNOWLEDGE (R269): the operands are the unit and the ticket. It comes once the unit's accesses under a translation that the
TLBI removes are performed; an entry that the unit has fetched again since its drop goes too, so that it holds none. -/
def execTlbiAcknowledge (s : State) : Host.Outcome State Fault Refusal :=
  let u := s.ev.nat 0
  match s.ticket (s.ev.nat 1) with
  | none => .next s
  | some t =>
      if t.undropped.contains u || !t.unacked.contains u then .next s
      else if !s.unitDrained u t then .next (s.schedule (s.cycle + 1) .tlbiAcknowledge (.nats [u, t.id]))
      else
        let left := t.unacked.filter fun x => decide (x ≠ u)
        .next ((s.dropHits u t).modTicket t.id fun t => { t with unacked := left, doneAt := if left.isEmpty then some s.cycle else none })

/-- Whether every TLBI of a list has been acknowledged in an earlier cycle. -/
def State.ticketsDone (s : State) (ids : List Nat) : Bool :=
  ids.all fun i => match s.ticket i with
    | none => true
    | some t => match t.doneAt with | some c => decide (c < s.cycle) | none => false

/-- The end of a TLBSYNC over some TLBIs: waiters whose page they unmapped take XLATE at their CWAIT (Table 11-8). -/
def State.syncTickets (s : State) (ids : List Nat) : State :=
  let ws : List (Nat × Nat × Hold) := s.cores.flatMap fun e => e.2.cl.filterMap fun x =>
    match x.2.hold? with
    | some h => (match h.kind with
        | .unmapped _ t => if ids.contains t then some (e.1, x.1, h) else none
        | _ => none)
    | none => none
  let s := { s with tickets := s.tickets.filter fun t => !ids.contains t.id }
  ws.foldl (fun s w => s.trapAt w.1 w.2.1 cXLATE w.2.2.ea (s.cluster w.1 w.2.1).pc w.2.2.sync false) s

/-- TLBSYNC_COMPLETE (R161): the operands are the core and the cluster. -/
def execTlbsyncComplete (s : State) : Host.Outcome State Fault Refusal :=
  let s := { s with curCore := s.ev.nat 0, curCl := s.ev.nat 1 }
  match s.me.hold? with
  | none => .next s
  | some h =>
      if decide (h.kind = .tlbsync) && s.ticketsDone s.me.tlbis then
        let ids := s.me.tlbis
        .next (((s.syncTickets ids).modMe fun c => { c with tlbis := [] }).release h)
      else .next s

/-- TLBI (R160): it does not block. -/
def bodyTlbi (o : TlbiOps) (s : State) : Res :=
  let id := s.nextId
  let s := s.invalidate s.curCore s.curCl (coreDie s.curCore) (if o.all then none else some o.asid.toNat) (s.x o.ra).toNat
    (s.x o.rb).toNat o.scope.toNat
  .done (s.modMe fun c => { c with tlbis := c.tlbis ++ [id] })

/-- TLBSYNC (R161). -/
def bodyTlbsync (s : State) : Res :=
  let scope := s.ir % 8
  let open_ := s.tickets.filter fun t => s.me.tlbis.contains t.id
  if scope < 2 ∨ (open_.any fun t => decide (scope < t.scope)) then .trap cILLFLD 0
  else if s.ticketsDone s.me.tlbis then
    let ids := s.me.tlbis
    .done ((s.syncTickets ids).modMe fun c => { c with tlbis := [] })
  else .hold s { s.blocking .tlbsync 0 [] with kind := .tlbsync }

/-- The step of TLBI. -/
def execTlbi (o : TlbiOps) (s : State) : Host.Outcome State Fault Refusal := s.issue (.tlbi o) (bodyTlbi o)
/-- The step of TLBSYNC. -/
def execTlbsync (s : State) : Host.Outcome State Fault Refusal := s.issue .tlbsync bodyTlbsync

end Sys2Proof.Machine
end

