-- ==== Sys2Proof/Machine/Gang.lean ====
section
/-!
DEFINITION. Gangs (R32-R35): their cores, asynchronous events for their clusters (R67), and quantum boundaries (R147).
-/

namespace Sys2Proof.Machine

/-- Node `n` of the node table. -/
def State.node (s : State) (n : Nat) : Option Node := SMap.get none s.nodes n

/-- Replace node `n`. -/
def State.setNode (s : State) (n : Nat) (x : Node) : State := { s with nodes := SMap.set none s.nodes n (some x) }

/-- Change node `n`. -/
def State.modNode (s : State) (n : Nat) (f : Node → Node) : State :=
  match s.node n with
  | some x => s.setNode n (f x)
  | none => s

/-- The cores of the gang of core `n`, ascending; a core without a node is a gang of its own. -/
def State.gangOf (s : State) (n : Nat) : List Nat :=
  match (s.core n).node with
  | none => [n]
  | some i => (s.cores.filter fun e => decide (e.2.node = some i)).map fun e => e.1

/-- The clusters of a core. -/
def clusters : List Nat := [0, 1, 2, 3]

/-- Whether a cluster has executed EXIT. -/
def Cluster.exited (c : Cluster) : Bool := decide (c.act = .exited)

/-- Whether a cluster stands at a SAFE. -/
def Cluster.safe (c : Cluster) : Bool := match c.act with | .atSafe _ => true | _ => false

/-- Whether all four clusters of a core have executed EXIT. -/
def Core.exited (k : Core) : Bool := clusters.all fun c => (k.cluster c).exited

/-! ### Asynchronous events (R67) -/

/-- Whether a cluster can still take an asynchronous event: it has not ended, stopped at a SAFE, been halted or been held in the
runtime. -/
def Cluster.live (c : Cluster) : Bool :=
  match c.act with
  | .running => true
  | .waiting h => decide (h.kind ≠ .runtime)
  | _ => false

/-- An asynchronous event of a kind becomes pending; one that is pending already stays. -/
def Cluster.raise (c : Cluster) (kind cycle : Nat) : Cluster :=
  if c.live && decide (c.event = none) then { c with event := some (kind, cycle) } else c

/-- An asynchronous event for every cluster of a core. -/
def Core.raise (k : Core) (kind cycle : Nat) : Core :=
  clusters.foldl (fun k c => k.setCluster c ((k.cluster c).raise kind cycle)) k

/-- The hard-pre-emption halt of a gang (R47). -/
def State.haltGang (s : State) (cores : List Nat) : State :=
  cores.foldl (fun s n => s.modCore n fun k => k.raise 0 s.cycle) s

/-- Hard pre-emption, or suspension by a translation fault, of node `n` (R47, R240). -/
def State.stopHard (s : State) (n : Nat) (why : StopKind) : State :=
  match s.node n with
  | none => s
  | some x => (s.setNode n { x with stop := why }).haltGang x.cores

/-- A debugger halt of a core (R73). -/
def State.haltCore (s : State) (n : Nat) : State :=
  s.modCore n fun k => { k.raise 1 s.cycle with halted := true }

/-! ### Quantum boundaries (R147) -/

/-- Commit the buffered DT stores of a cluster in issue order. -/
def State.commitDt (s : State) (n c : Nat) : State :=
  let buf := (s.cluster n c).dtBuf
  let s := buf.foldl (fun (s : State) d => (s.traffic d.pa d.size .write).setCells d.pa d.cells) s
  if buf.isEmpty then s else s.modCluster n c fun k => { k with dtBuf := [] }

/-- Commit the buffered DT stores of every cluster of some cores, in ascending global cluster index. -/
def State.commitGang (s : State) (cores : List Nat) : State :=
  cores.foldl (fun s n => clusters.foldl (fun s c => s.commitDt n c) s) s

/-- Whether an LDQ fill of a cluster is pending. -/
def State.fillsPending (s : State) (n c : Nat) : Bool :=
  s.agenda.any fun d => decide (d.row = .ldqFill) && decide (d.args.nat 0 = n) && decide (d.args.nat 5 = c)

/-- Whether every access of a cluster has been performed (R148). -/
def State.accessesDone (s : State) (n c : Nat) : Bool := (s.cluster n c).posted.isEmpty && !s.fillsPending n c

/-- Whether the gang of core `n` stands at its boundary: each cluster has executed QSYNC or EXIT, and the accesses of those at
QSYNC have been performed. -/
def State.atBoundary (s : State) (n : Nat) : Bool :=
  (s.gangOf n).all fun m => clusters.all fun c =>
    let k := s.cluster m c
    k.exited || (k.arrived && s.accessesDone m c)

/-- End the QSYNC wait of cluster `c` of core `n`, if it is in one. -/
def State.leaveQsync (s : State) (n c : Nat) : State :=
  match (s.cluster n c).hold? with
  | some h => if h.kind = .qsync then { s with curCore := n, curCl := c }.release h else s
  | none => s

/-- The boundary of the gang of core `n`: its DT stores are committed and every waiting cluster completes QSYNC. -/
def State.crossBoundary (s : State) (n : Nat) : State :=
  let cores := s.gangOf n
  let core := s.curCore
  let cl := s.curCl
  let s := s.commitGang cores
  let s := cores.foldl (fun s m => clusters.foldl (fun s c =>
    (s.leaveQsync m c).modCluster m c fun k => { k with arrived := false }) s) s
  { s with curCore := core, curCl := cl }

end Sys2Proof.Machine
end

