-- ==== Sys2Proof/Machine/Frames.lean ====
section
/-!
DEFINITION. Frames and the indirection table (R289-R296, R298, R299, R263): moves, the hot-page tracker, atomic-driven
migration, HPTCFG and DITSWP.
-/

namespace Sys2Proof.Machine

/-! ### Media and pools -/

/-- The free list that a media frame belongs to: that of the die and tier whose range holds it (R292). -/
def freeKey (m : Nat) : Option Nat :=
  match memKind (m * 65536) with
  | some .hbm => some (poolKey (homeDie (m * 65536)) 0)
  | some .lpddr => some (poolKey (homeDie (m * 65536)) 1)
  | _ => none

/-- FRAME_RETURN (R292, R294): the operands are the pool, the media frame and, for the frame that a move leaves, the moved frame
plus one. A media frame joins its pool. The move is then over. -/
def frameReturn (s : State) : State :=
  let s := s.giveFrame (s.ev.nat 0) (s.ev.nat 1)
  if s.ev.nat 2 = 0 then s else { s with moves := s.moves.filter fun m => decide (m.frame + 1 ≠ s.ev.nat 2) }

/-- Start the first move of a die, if none of it is under way (R294): MOV := 1, and the oldest frame of the destination's free
list is taken, and the dirty map is clear. A move whose free list is empty does not start. -/
def State.startMove (s : State) (die : Nat) : Nat → State
  | 0 => s
  | fuel + 1 =>
      match s.moves.find? fun m => decide (m.die = die) with
      | none => s
      | some m =>
          if m.new.isSome then s
          else
            let e := s.ditEntry m.frame
            let drop : State := { s with moves := s.moves.filter fun x => decide (x.frame ≠ m.frame) }
            if e.shd || e.mov || e.pin || !e.valid then drop.startMove die fuel
            else match s.takeFrame m.dest with
              | none => drop.startMove die fuel
              | some (g, s) =>
                  let s := s.setDit m.frame { e with mov := true }
                  let s := { s with moves := s.moves.map fun (x : Move) => if x.frame = m.frame then { x with new := some g, dirty := [], copies := 0 } else x }
                  s.scheduleOpen 1 .moveFinalSwap (.nats [m.frame])

/-- The step of FRAME_RETURN; the next move of the die follows. -/
def execFrameReturn (s : State) : Host.Outcome State Fault Refusal :=
  let t := frameReturn s
  if s.ev.nat 2 = 0 then .next t
  else .next (t.startMove (homeDie ((s.ev.nat 2 - 1) * 65536)) (t.moves.length + 1))

/-- Whether a move copies the frame, or recopies the granules whose bit is set, before its last step: the first copy, and then up to four
passes while more than 8 bits are set (R294). -/
def Move.copiesOn (m : Move) : Bool := decide (m.copies = 0) || (decide (8 < m.dirty.length) && decide (m.copies < 5))

/-- A copy of a move has been made: its bits are cleared, as each granule has been read. -/
def State.moveCopied (s : State) (f : Nat) : State :=
  { s with moves := s.moves.map fun (m : Move) => if m.frame = f then { m with dirty := [], copies := m.copies + 1 } else m }

/-- The copies and the end of a move (R294): the operand is the frame. Each copy brings the new media frame up to date, and takes an open
time; in the last step, between one access to the frame and the next, the rest is copied, the entry names the new media frame and MOV
clears, so that no access is left held (R252). A copy moves the whole frame: a granule whose bit is not set holds the same bytes in
both. The old media frame returns once the accesses that used it have been performed. -/
def execMoveFinalSwap (s : State) : Host.Outcome State Fault Refusal :=
  let f := s.ev.nat 0
  match s.moves.find? fun m => decide (m.frame = f) with
  | none => .next s
  | some m =>
      match m.new with
      | none => .next s
      | some g =>
          let e := s.ditEntry f
          if !e.mov then .next s
          else if m.copiesOn then .next (((s.copyFrame e.mframe g).moveCopied f).scheduleOpen 1 .moveFinalSwap s.ev)
          else
            let s := (s.copyFrame e.mframe g).setDit f { e with mframe := g, mov := false }
            .next (s.scheduleOpen 1 .frameReturn (.nats [(freeKey e.mframe).getD (poolKey (homeDie (f * 65536)) 2), e.mframe, f + 1]))

/-! ### The end of a tracking period (R263, R295, R296) -/

/-- Whether a frame may be moved by the tracker or by migration. -/
def State.movable (s : State) (f : Nat) : Bool :=
  let e := s.ditEntry f
  e.valid && !e.pin && !e.shd && !e.mov

/-- The frames of a die with counted atomics, ascending. -/
def State.atomFrames (s : State) (die : Nat) : List Nat :=
  (s.atomCounts.foldl (fun l e => if l.getLast? = some (e.1 / 8) then l else l ++ [e.1 / 8]) []).filter fun f =>
    decide (homeDie (f * 65536) = die)

/-- The die with the most atomics to a frame, the lower on a tie, with its count. -/
def State.atomWinner (s : State) (f : Nat) : Nat × Nat :=
  (List.range 6).foldl (fun a d => let n := SMap.get 0 s.atomCounts (8 * f + d); if a.2 < n then (d, n) else a) (0, 0)

/-- The migrations decided at a period's end (R263): each to the winner's medium of the same tier, where a free frame is left. -/
def State.migrations (s : State) (die : Nat) : List Move :=
  (s.atomFrames die).foldl (fun l f =>
    let w := s.atomWinner f
    let m := (s.ditEntry f).mframe
    match freeKey m with
    | none => l
    | some k =>
        let dest := poolKey w.1 (k % 3)
        let used := (l.filter fun x => decide (x.dest = dest)).length
        if w.1 ≠ k / 3 ∧ s.hptItem die 3 ≤ w.2 ∧ s.movable f ∧ used < (SMap.get [] s.pools dest).length then
          l ++ [{ frame := f, die := die, dest := dest, new := none }]
        else l) []

/-- The auto-tier frames of a die with their media tier and count, in a list ordered by rising count, the higher address first on
a tie, so that the last is the hottest. -/
def State.tracked (s : State) (die tier : Nat) : List (Nat × Nat) :=
  let fs := s.dit.filterMap fun e => match e.2 with
    | some x =>
        if x.autoTier ∧ homeDie (e.1 * 65536) = die ∧ ((freeKey x.mframe).map fun k => k % 3) = some tier ∧ s.movable e.1 then
          some (e.1, SMap.get 0 s.hits e.1)
        else none
    | none => none
  let put (l : List (Nat × Nat)) (x : Nat × Nat) : List (Nat × Nat) :=
    l.takeWhile (fun y => decide (y.2 < x.2)) ++ [x] ++ l.dropWhile (fun y => decide (y.2 < x.2))
  fs.foldl put []

/-- The coldest frame of a list with rising counts: the lowest address among those of the least count. -/
def coldest (l : List (Nat × Nat)) : Option (Nat × Nat) :=
  match l with
  | [] => none
  | x :: _ => (l.takeWhile fun y => decide (y.2 = x.2)).getLast?

/-- The promotions of a period and the demotions that make room for them (R295): candidates come hottest first; `free` is the
room left in the HBM4E free list, `victims` the HBM4E frames left. -/
def promote (die thr : Nat) : List (Nat × Nat) → Nat → Nat → List (Nat × Nat) → List Move
  | [], _, _, _ => []
  | c :: t, left, free, victims =>
      if left = 0 ∨ c.2 < thr then []
      else
        let up : Move := { frame := c.1, die := die, dest := poolKey die 0, new := none }
        if 0 < free then up :: promote die thr t (left - 1) (free - 1) victims
        else match coldest victims with
          | none => []
          | some v =>
              if v.2 < c.2 then
                { frame := v.1, die := die, dest := poolKey die 1, new := none } :: up ::
                  promote die thr t (left - 1) free (victims.filter fun x => decide (x.1 ≠ v.1))
              else []

/-- TRACKING_PERIOD_END (R295, R296): the operand is the die. Migrations are decided first; a frame they move is excluded from
the promotions. The counts restart, and the tracker items written since take effect. -/
def execTrackingPeriodEnd (s : State) : Host.Outcome State Fault Refusal :=
  let die := s.ev.nat 0
  let am := s.migrations die
  let out (l : List (Nat × Nat)) : List (Nat × Nat) := l.filter fun x => !am.any fun m => decide (m.frame = x.1)
  let cands := (out (s.tracked die 1)).reverse
  let ups := promote die (s.hptItem die 2) cands (s.hptItem die 1) (SMap.get [] s.pools (poolKey die 0)).length (out (s.tracked die 0))
  let next := s.hptNext.filter fun e => decide (e.1 / 256 = die ∧ e.1 % 256 ≤ 2)
  let s := { s with
    moves := s.moves ++ am ++ ups
    hits := s.hits.filter fun e => decide (homeDie (e.1 * 65536) ≠ die)
    atomCounts := s.atomCounts.filter fun e => decide (homeDie (e.1 / 8 * 65536) ≠ die)
    hpt := SMap.setAll 0 s.hpt next
    hptNext := s.hptNext.filter fun e => !decide (e.1 / 256 = die ∧ e.1 % 256 ≤ 2)
    trackStart := SMap.set 0 s.trackStart die (s.cycle + 1) }
  .next (s.startMove die (s.moves.length + 1))

/-- Whether the tracking period of a die ends in a cycle. -/
def State.periodEnds (s : State) (die : Nat) : Bool :=
  decide (SMap.get 0 s.trackStart die + s.hptItem die 0 ≤ s.cycle + 1)

/-! ### Self-refresh (R299) -/

/-- The first cycle in which a pseudo-channel has received no request for the idle time, counted from its last request or from
power-on; none where the idle time is 0 or it is in self-refresh. -/
def State.sleepAt (s : State) (q : Nat) : Option Nat :=
  let c := s.chanCtr q
  match s.hptItem (q / 4096) 4 with
  | 0 => none
  | t + 1 => if c.asleep then none else some (c.last + t)

/-- Whether a pseudo-channel enters self-refresh in this cycle: at its end, so that a request of the cycle wins. -/
def State.sleeps (s : State) (q : Nat) : Bool := match s.sleepAt q with | some t => decide (t ≤ s.cycle) | none => false

/-- The pseudo-channels of the package. -/
def pseudoChans : List Nat :=
  (List.range 6).flatMap fun d =>
    ((List.range (if d < 4 then 64 else 256)) ++ (List.range (2 * (if d < 4 then 32 else 16))).map fun i => 256 + i).map fun q => 4096 * d + q

/-- The pseudo-channels that enter self-refresh in this cycle. -/
def State.sleepers (s : State) : List Nat := if s.cycle < s.sleepNext then [] else pseudoChans.filter s.sleeps

/-- The next cycle in which one may enter, once those of this cycle have. -/
def State.nextSleep (s : State) : State :=
  if s.cycle < s.sleepNext then s
  else
    let l := pseudoChans.filterMap s.sleepAt
    { s with sleepNext := max (s.cycle + 1) (l.foldl min (l.headD (s.cycle + 256))) }

/-- SELF_REFRESH_ENTRY (R299): the operand is the pseudo-channel, 4096 × die + number. A die whose idle time is 0 never enters. -/
def execSelfRefreshEntry (s : State) : Host.Outcome State Fault Refusal :=
  let q := s.ev.nat 0
  if s.sleeps q then .next (s.modChanCtr q fun c => { c with asleep := true, entries := (c.entries + 1) % 2 ^ 64 }) else .next s

/-! ### HPTCFG (R315) -/

/-- Whether a value lies in the range of an item; none for an unknown item. -/
def hptOk (i v : Nat) : Bool :=
  match i with
  | 0 => decide (2 ^ 16 ≤ v ∧ v ≤ 2 ^ 30)
  | 1 => decide (v ≤ 4096)
  | 2 | 3 => decide (1 ≤ v ∧ v ≤ 65535)
  | 4 => decide (v = 0 ∨ (256 ≤ v ∧ v ≤ 2 ^ 24))
  | _ => decide (0x20 ≤ i) && decide (i < 0x40) && (if i % 2 = 0 then decide (v < 2 ^ 40) else decide (v < 2 ^ 36))

/-- HPTCFG (R315): blocking. -/
def bodyHptcfg (o : XPair) (s : State) : Res :=
  let i := (s.x o.a).toNat
  let v := (s.x o.b).toNat
  if !hptOk i v then .trap cILLFLD (s.x o.a)
  else .hold (s.completeOpen 1) (s.blocking (.hptcfg o) 0 [coreDie s.curCore, i, v])

/-- Completion of HPTCFG: the tracker's items wait for the next period, the others for the next cycle. -/
def hptDone (h : Hold) (s : State) : State :=
  { s with hptNext := SMap.set 0 s.hptNext (256 * h.vals.getD 0 0 + h.vals.getD 1 0) (h.vals.getD 2 0 + 1) }

/-- The items but the tracker's that were written in a cycle, at its end. -/
def State.applyHpt (s : State) : State :=
  match s.hptNext with
  | [] => s
  | l => { s with sleepNext := 0, hpt := SMap.setAll 0 s.hpt (l.filter fun e => decide (2 < e.1 % 256)),
                  hptNext := l.filter fun e => decide (e.1 % 256 ≤ 2) }

/-! ### DITSWP (R316) -/

/-- Word 0 of an entry (Table 21-1). -/
def DitEntry.word (e : DitEntry) : Word :=
  w64 (e.mframe % 2 ^ 36 + e.valid.toNat * 2 ^ 36 + e.autoTier.toNat * 2 ^ 37 + e.pin.toNat * 2 ^ 38 + e.shd.toNat * 2 ^ 39 +
    e.mov.toNat * 2 ^ 40)

/-- An entry with the writable fields of a word 0. -/
def DitEntry.withWord (e : DitEntry) (w : Nat) : DitEntry :=
  { e with mframe := fld w 0 36, valid := bit w 36, autoTier := bit w 37, pin := bit w 38 }

/-- The conditions on an operand that names a frame by its address. -/
def frameOperand (x : Word) : Option (Nat × Word) :=
  if x.toNat % 65536 ≠ 0 then some (cALIGN, x)
  else if viaDit x.toNat then none
  else some (cPROT, x)

/-- The wait of a DITSWP: its operation, its frame, its second operand and where the result goes. -/
def ditHold (i : Instr) (op : Nat) (d : BitVec 5) (a b : Word) (s : State) : Res :=
  .hold (s.completeOpen 1) (s.blocking i 0 [op, a.toNat, b.toNat, d.toNat])

/-- DITSWP.swap. -/
def bodyDitswpSwap (o : X3) (s : State) : Res :=
  let a := s.x o.a
  let b := s.x o.b
  match frameOperand a, frameOperand b with
  | some e, _ => .trap e.1 e.2
  | none, some e => .trap e.1 e.2
  | none, none =>
      if homeDie a.toNat ≠ homeDie b.toNat then .trap cPROT b else ditHold (.ditswpSwap o) 0 o.d a b s

/-- DITSWP.set. -/
def bodyDitswpSet (o : X3) (s : State) : Res :=
  let a := s.x o.a
  match frameOperand a with
  | some e => .trap e.1 e.2
  | none => if 2 ^ 41 ≤ (s.x o.b).toNat then .trap cILLFLD 0 else ditHold (.ditswpSet o) 1 o.d a (s.x o.b) s

/-- DITSWP.free: the media frame is named by its media address; without `.shadow` it needs a free list (log entry 15). -/
def bodyDitswpFree (o : DitFree) (s : State) : Res :=
  let a := s.x o.a
  let b := s.x o.b
  match frameOperand a, frameOperand b with
  | some e, _ => .trap e.1 e.2
  | none, some e => .trap e.1 e.2
  | none, none =>
      if !o.shadow && decide (freeKey (b.toNat / 65536) = none) then .trap cPROT b
      else ditHold (.ditswpFree o) (if o.shadow then 3 else 2) o.d a b s

/-- The step of a DITSWP that the cluster under way holds: it waits while an entry it names moves (R296), and then completes. -/
def ditStep (h : Hold) (s : State) : State :=
  let op := h.vals.getD 0 0
  let f := h.vals.getD 1 0 / 65536
  let b := h.vals.getD 2 0
  let d := BitVec.ofNat 5 (h.vals.getD 3 0)
  let e := s.ditEntry f
  let g := s.ditEntry (b / 65536)
  let again : State := s.schedule (s.cycle + 1) .blockingCompletion (.nats [s.curCore, s.curCl, h.since])
  match op with
  | 0 =>
      if e.mov || g.mov then again
      else if e.shd then (s.resultX 1 d e.word).release h
      else if g.shd then (s.resultX 1 d g.word).release h
      else
        (((s.setDit f { e with mframe := g.mframe }).setDit (b / 65536) { g with mframe := e.mframe }).resultX
          1 d e.word).release h
  | 1 =>
      if e.mov then again
      else if e.shd then (s.resultX 1 d e.word).release h
      else ((s.setDit f (e.withWord b)).resultX 1 d e.word).release h
  | 2 => if e.mov then again else (((s.giveFrame ((freeKey (b / 65536)).getD 0) (b / 65536))).resultX 1 d 0).release h
  | _ => if e.mov then again else ((s.giveFrame (poolKey (homeDie (f * 65536)) 2) (b / 65536)).resultX 1 d 0).release h

/-- The step of HPTCFG. -/
def execHptcfg (o : XPair) (s : State) : Host.Outcome State Fault Refusal := s.issue (.hptcfg o) (bodyHptcfg o)
/-- The step of DITSWP.swap. -/
def execDitswpSwap (o : X3) (s : State) : Host.Outcome State Fault Refusal := s.issue (.ditswpSwap o) (bodyDitswpSwap o)
/-- The step of DITSWP.set. -/
def execDitswpSet (o : X3) (s : State) : Host.Outcome State Fault Refusal := s.issue (.ditswpSet o) (bodyDitswpSet o)
/-- The step of DITSWP.free. -/
def execDitswpFree (o : DitFree) (s : State) : Host.Outcome State Fault Refusal := s.issue (.ditswpFree o) (bodyDitswpFree o)

end Sys2Proof.Machine
end

