-- ==== Sys2Proof/Machine/Ring.lean ====
section
/-!
DEFINITION. The rings of an interface (R344, R346, R348, R351, Tables 25-3 and 25-6): completions and events in host memory.
-/

namespace Sys2Proof.Machine

/-- Interface `v`. -/
def State.vif (s : State) (v : Nat) : Vif := SMap.get Vif.reset s.vifs v

/-- Change an interface. -/
def State.modVif (s : State) (v : Nat) (f : Vif → Vif) : State := { s with vifs := SMap.set Vif.reset s.vifs v (f (s.vif v)) }

/-- The rings of interface `v`. -/
def State.ring (s : State) (v : Nat) : Ring := SMap.get Ring.reset s.rings v

/-- Change the rings of an interface. -/
def State.modRing (s : State) (v : Nat) (f : Ring → Ring) : State := { s with rings := SMap.set Ring.reset s.rings v (f (s.ring v)) }

/-- Device-physical address of a host bus address (Table 17-1). -/
def hostAddr (bus : Nat) : Nat := 0x100000000000 + bus

/-- QCFG[63]: the rings are enabled. -/
def Ring.enabled (r : Ring) : Bool := r.qcfg.getLsbD 63

/-- Entries of the submission and completion rings. -/
def Ring.size (r : Ring) : Nat := 2 ^ fld r.qcfg.toNat 0 4

/-- Entries of the event ring. -/
def Ring.eventSize (r : Ring) : Nat := 2 ^ fld r.qcfg.toNat 16 4

/-- Stamps are enabled. -/
def Ring.stamps (r : Ring) : Bool := r.qcfg.getLsbD 32

/-- The stamp of the n-th entry (R349, R351). -/
def stampOf (n : Nat) : Nat := n % 65535 + 1

/-- Bus address of the next event entry. -/
def Ring.eventAddr (r : Ring) : Nat := hostAddr (r.eqBase.toNat + 64 * (r.events % r.eventSize))

/-- Whether the event ring has room; one entry stays unused, so that a full ring differs from an empty one (log entry 16). A ring that
lies outside host memory takes no entry (log entry 48). -/
def Ring.eventRoom (r : Ring) : Bool :=
  decide (memKind r.eventAddr = some .host) &&
  decide ((r.events % r.eventSize + r.eventSize - r.eqHead % r.eventSize) % r.eventSize + 1 < r.eventSize)

/-- Write the events held back, in order, while there is room (R351). -/
def State.flushEvents (s : State) (v : Nat) : List Nat → State
  | [] => s
  | e :: t =>
      let r := s.ring v
      if r.enabled && r.eventRoom then
        let s := s.writeN r.eventAddr 64 (e + stampOf r.events * 2 ^ 496)
        (s.modRing v fun r => { r with events := r.events + 1, held := t }).flushEvents v t
      else s

/-- Post an event (R351): the fields of Table 25-6 without CYCLE and stamp. -/
def State.postEvent (s : State) (v e : Nat) : State :=
  let s := s.modRing v fun r => { r with held := r.held ++ [e + s.cycle % 2 ^ 64 * 2 ^ 384] }
  s.flushEvents v (s.ring v).held

/-- The position of a core among the cores of an interface (R346); physical for interface 0. -/
def State.coreNumber (s : State) (v core : Nat) : Nat :=
  if v = 0 then core else ((List.range core).filter fun c => (s.vif v).cores.testBit c).length

/-- An event entry: kind, cause, context, handle, node index, core, its further word, info and the engine fields. -/
def eventWord (kind cause ctx handle index core extra info cmd place row : Nat) : Nat :=
  kind + cause % 256 * 2 ^ 8 + ctx % 2 ^ 16 * 2 ^ 16 + handle % 2 ^ 32 * 2 ^ 32 + index % 2 ^ 16 * 2 ^ 64 + core % 2 ^ 16 * 2 ^ 80 +
  extra % 2 ^ 32 * 2 ^ 96 + info % 2 ^ 64 * 2 ^ 128 + cmd % 2 ^ 96 * 2 ^ 192 + place % 2 ^ 64 * 2 ^ 288 + row % 2 ^ 32 * 2 ^ 352

end Sys2Proof.Machine
end

