-- ==== Sys2Proof/Machine/Accept.lean ====
section
/-!
DEFINITION. Graphs at submission (R33, R36-R38, R153, R352): their records and the checks of acceptance.
-/

namespace Sys2Proof.Machine

/-! ### Node records (Table 3-2) -/

/-- code_base -/
def nrCode (r : Nat) : Nat := fld r 0 64
/-- entry c -/
def nrEntry (r c : Nat) : Nat := fld r (64 + 16 * c) 16
/-- arg_base -/
def nrArg (r : Nat) : Nat := fld r 128 64
/-- operand_table -/
def nrTable (r : Nat) : Nat := fld r 192 64
/-- livemap_table -/
def nrLivemap (r : Nat) : Nat := fld r 256 64
/-- save_area -/
def nrSave (r : Nat) : Nat := fld r 320 64
/-- done_counter -/
def nrDone (r : Nat) : Nat := fld r 384 64
/-- operand_count -/
def nrCount (r : Nat) : Nat := fld r 448 16
/-- a_cores -/
def nrA (r : Nat) : Nat := fld r 464 8
/-- f_cores -/
def nrF (r : Nat) : Nat := fld r 472 8
/-- priority -/
def nrPrio (r : Nat) : Nat := fld r 480 2

/-- Whether a node record is invalid (R36), the alignment of the record apart. -/
def nrBad (r : Nat) : Bool :=
  decide (fld r 482 30 ≠ 0) || decide (nrCode r % 4 ≠ 0) || decide (nrTable r % 16 ≠ 0) || decide (nrLivemap r % 32 ≠ 0) ||
  decide (nrSave r % 4096 ≠ 0) || decide (nrDone r % 8 ≠ 0)

/-- Whether a gang shape lies outside the limits (R33). -/
def nrShape (r : Nat) : Bool := decide (48 < nrA r) || decide (64 < nrF r) || decide (nrA r + nrF r = 0) || decide (64 < nrA r + nrF r)

/-! ### Reads by the firmware -/

/-- Read `n` bytes at a virtual address of a context; none where a byte cannot be read. -/
def State.fwRead (s : State) (asid va n : Nat) : Option (List Byte) :=
  match s.unitCheck unitFirmware asid .load (rangePieces va n) with
  | .error _ => none
  | .ok (s, ps) => match s.readPieces ps with
    | .error _ => none
    | .ok bs => some bs

/-- Resolve the address of a done counter: it must translate, with write permission, to a counter page; otherwise the cause
(R36). -/
def State.resolveCounter (s : State) (asid va : Nat) : Except Nat CtrName :=
  match s.check unitFirmware asid true .store va with
  | .error c => .error c
  | .ok t => match pteC t.ent, s.target (t.pa va) true with
    | true, some a => .ok (.page a va)
    | _, _ => .error cPROT

/-- 64-byte records from bytes. -/
def records : Nat → List Byte → List Nat
  | 0, _ => []
  | n + 1, bs => leNat (bs.take 64) :: records n (bs.drop 64)

/-- `n`-byte items from bytes. -/
def items (n : Nat) : Nat → List Byte → List Nat
  | 0, _ => []
  | k + 1, bs => leNat (bs.take n) :: items n k (bs.drop n)

/-! ### Operands (R37) -/

/-- The range and write access of an operand entry; none where it is invalid. -/
def operand (e : Nat) : Option (Nat × Nat × Bool) :=
  if fld e 112 2 = 0 ∨ fld e 114 14 ≠ 0 then none else some (fld e 0 64, fld e 64 48, bit e 113)

/-- Whether two operands overlap and one of them is written. -/
def operandsMeet (x y : Nat × Nat × Bool) : Bool :=
  (x.2.2 || y.2.2) && decide (0 < x.2.1) && decide (0 < y.2.1) && decide (x.1 < y.1 + y.2.1) && decide (y.1 < x.1 + x.2.1)

/-- The operands of every node, in order, or the index of the node whose table cannot be read (0x07) or holds an invalid entry
(0x04). -/
def State.operandTables (s : State) (asid : Nat) : List Nat → Nat → Except (Nat × Nat) (List (List (Nat × Nat × Bool)))
  | [], _ => .ok []
  | r :: t, i =>
      match s.fwRead asid (nrTable r) (16 * nrCount r) with
      | none => .error (7, i)
      | some bs =>
          let es := (items 16 (nrCount r) bs).map operand
          if es.any fun e => e.isNone then .error (4, i)
          else match s.operandTables asid t (i + 1) with
            | .error e => .error e
            | .ok l => .ok (es.filterMap id :: l)

/-! ### Edges (R38) -/

/-- Predecessor and successor of an edge. -/
def edge (e : Nat) : Nat × Nat := (fld e 0 16, fld e 16 16)

/-- Whether an edge lies in range and joins two nodes. -/
def edgeOk (n : Nat) (e : Nat × Nat) : Bool := decide (e.1 < n) && decide (e.2 < n) && decide (e.1 ≠ e.2)

/-- One round of reachability: the successors of every node, as bit sets, grow by those of its successors. -/
def reachStep (es : List (Nat × Nat)) (m : SMap Nat) : SMap Nat :=
  es.foldl (fun m e => SMap.set 0 m e.1 (SMap.get 0 m e.1 ||| 2 ^ e.2 ||| SMap.get 0 m e.2)) m

/-- The nodes reachable from each node by at least one edge. -/
def reach (es : List (Nat × Nat)) : Nat → SMap Nat → SMap Nat
  | 0, m => m
  | n + 1, m => let m' := reachStep es m; if m' = m then m else reach es n m'

/-- The lowest index of an edge out of range, from a node to itself, or on a cycle. -/
def badEdge (n : Nat) (es : List (Nat × Nat)) : Option Nat :=
  let m := reach (es.filter (edgeOk n)) (n + 1) []
  (List.range es.length).find? fun i =>
    match es[i]? with
    | some e => !edgeOk n e || (SMap.get 0 m e.2).testBit e.1
    | none => false

/-- The lower node of the lowest pair of nodes without a path between them whose operands conflict. -/
def badPair (es : List (Nat × Nat)) (ops : List (List (Nat × Nat × Bool))) : Option Nat :=
  let n := ops.length
  let m := reach es (n + 1) []
  (List.range n).find? fun i => (List.range n).any fun j =>
    decide (i < j) && !(SMap.get 0 m i).testBit j && !(SMap.get 0 m j).testBit i &&
      (ops.getD i []).any fun x => (ops.getD j []).any fun y => operandsMeet x y

/-! ### Room (R352) -/

/-- Whether a state is final (Table 3-3). -/
def NodeState.final : NodeState → Bool
  | .complete | .faulted | .cancelled => true
  | _ => false

/-- Graph `g`. -/
def State.graph (s : State) (g : Nat) : Option Graph := SMap.get none s.graphs g

/-- The interface of a node. -/
def State.nodeVi (s : State) (x : Node) : Nat := match s.graph x.graph with | some g => g.vi | none => 0

/-- The nodes that hold an entry of the node table. -/
def State.liveNodes (s : State) : List (Nat × Node) :=
  s.nodes.filterMap fun e => match e.2 with
    | some x => if x.st.final then none else some (e.1, x)
    | none => none

/-- The entries of the node table free for interface `v`: those held in other interfaces' unused reserves are not. -/
def State.nodeRoom (s : State) (v : Nat) : Nat :=
  let live := s.liveNodes
  let unused := (s.vifs.map fun e =>
    if e.1 = v then 0 else e.2.reserve - (live.filter fun x => decide (s.nodeVi x.2 = e.1)).length).foldl (· + ·) 0
  1024 - live.length - unused

/-! ### Acceptance -/

/-- A graph that passed: its nodes, distinct predecessors of each, and its done counter. -/
structure Parsed where
  recs : List Nat
  edges : List (Nat × Nat)
  doneCtr : Nat

/-- Checks 4 to 8 of R153 over records already read: the code and the index of the first failure. -/
def State.checkNodes (s : State) (v asid : Nat) (p : Parsed) (edgesRead : Option (List (Nat × Nat))) :
    Except (Nat × Nat) Parsed :=
  match (List.range p.recs.length).find? fun i => nrShape (p.recs.getD i 0) with
  | some i => .error (3, i)
  | none =>
      match s.operandTables asid p.recs 0 with
      | .error e => .error e
      | .ok ops =>
          match edgesRead with
          | none => .error (7, 0)
          | some es =>
              match badEdge p.recs.length es with
              | some i => .error (5, i)
              | none =>
                  match badPair es ops with
                  | some i => .error (4, i)
                  | none => if s.nodeRoom v < p.recs.length then .error (6, 0) else .ok { p with edges := es }

/-- The checks of R153 on the graph record at `va` in the order given there. -/
def State.checkGraph (s : State) (v asid va : Nat) : Except (Nat × Nat) Parsed :=
  match s.fwRead asid va 32 with
  | none => .error (7, 0)
  | some bs =>
      let g := leNat bs
      let n := fld g 128 16
      let ne := fld g 144 16
      let dc := fld g 192 64
      if va % 32 ≠ 0 ∨ fld g 160 32 ≠ 0 ∨ n = 0 ∨ 1024 < n ∨ 8192 < ne then .error (1, 0)
      else if dc ≠ 0 ∧ (dc % 8 ≠ 0 ∨ (s.resolveCounter asid dc).toOption.isNone) then .error (8, 0)
      else match s.fwRead asid (fld g 0 64) (64 * n) with
        | none => .error (7, 0)
        | some bs =>
            let recs := records n bs
            if fld g 0 64 % 64 ≠ 0 then .error (2, 0)
            else match (List.range n).find? fun i => nrBad (recs.getD i 0) with
              | some i => .error (2, i)
              | none =>
                  let es := (s.fwRead asid (fld g 64 64) (4 * ne)).map fun bs => (items 4 ne bs).map edge
                  s.checkNodes v asid { recs := recs, edges := [], doneCtr := dc } es

/-- The next graph handle of an interface (R372). -/
def State.takeHandle (s : State) (v : Nat) : Nat × State :=
  let h := (s.vif v).nextHandle
  (h, s.modVif v fun x => { x with nextHandle := if h = 2 ^ 32 - 1 then 1 else h + 1 })

/-- Enter an accepted graph: its nodes are WAITING; the graph's number and handle. -/
def State.enterGraph (s : State) (v ctx : Nat) (p : Parsed) (batch : Option (Nat × Nat × Nat × Nat)) : State × Nat × Nat :=
  let h := s.takeHandle v
  let s := h.2
  let g := s.nextId
  let first := g + 1
  let ids := (List.range p.recs.length).map fun i => first + i
  let mk (i : Nat) : Node :=
    { record := p.recs.getD i 0, graph := g, index := i,
      preds := ((List.range p.recs.length).filter fun j => p.edges.contains (j, i)).map fun j => first + j,
      st := .waiting, readyAt := 0, cores := [], dispatchNo := 0, reqAt := none, stop := .none, faultVa := none, faultRep := .bare, victimOf := none,
      saved := [], savedMem := [], savedRanges := [] }
  let nodes := (List.range p.recs.length).foldl (fun m i => SMap.set none m (first + i) (some (mk i))) s.nodes
  let gr : Graph := { vi := v, ctx := ctx, handle := h.1, nodes := ids, doneCtr := w64 p.doneCtr, batch := batch }
  ({ s with nodes := nodes, graphs := SMap.set none s.graphs g (some gr), nextId := first + p.recs.length }, g, h.1)

end Sys2Proof.Machine
end

