-- ==== Sys2Proof/Machine/Hop.lean ====
section
/-!
DEFINITION. Checks and expansion of shards: CRC-32C (R307), HVZ blocks (R306-R308) and the granules of a hop (R309, R310,
R318).
-/

namespace Sys2Proof.Machine

/-! ### CRC-32C -/

/-- One bit of the reflected CRC. -/
def crcBit (c : BitVec 32) : BitVec 32 := if c.getLsbD 0 then (c >>> 1) ^^^ 0x82F63B78 else c >>> 1

/-- One byte. -/
def crcByte (c : BitVec 32) (b : Byte) : BitVec 32 :=
  let c := c ^^^ b.zeroExtend 32
  crcBit (crcBit (crcBit (crcBit (crcBit (crcBit (crcBit (crcBit c)))))))

/-- CRC-32C of some bytes. -/
def crc32c (bs : List Byte) : Nat := (~~~(bs.foldl crcByte 0xFFFFFFFF)).toNat

/-! ### The code of a block (R308) -/

/-- The code lengths of the 16 nibble symbols. -/
def hvzLens (lens : Nat) : List Nat := (List.range 16).map fun i => fld lens (4 * i) 4

/-- The canonical code: (symbol, length, code) in the order in which the codes are given out. -/
def hvzCodes (lens : List Nat) : List (Nat × Nat × Nat) :=
  let level (a : List (Nat × Nat × Nat) × Nat) (n : Nat) : List (Nat × Nat × Nat) × Nat :=
    let r := (List.range 16).foldl (fun (a : List (Nat × Nat × Nat) × Nat) s =>
      if lens.getD s 0 = n then (a.1 ++ [(s, n, a.2)], a.2 + 1) else a) a
    (r.1, 2 * r.2)
  ((List.range 15).foldl (fun a i => level a (i + 1)) ([], 0)).1

/-- Whether the lengths overfill the code, or are all 0. -/
def hvzBad (lens : List Nat) : Bool :=
  decide (2 ^ 15 < lens.foldl (fun a n => if n = 0 then a else a + 2 ^ (15 - n)) 0) || lens.all fun n => decide (n = 0)

/-- Decode `need` nibbles from bits: `acc` is the code so far and `n` its length. The nibbles come with the bits left, or
none where the bits match no code or run out. -/
def hvzNibbles (codes : List (Nat × Nat × Nat)) : List Bool → Nat → Nat → Nat → Option (List Nat × List Bool)
  | bits, 0, _, _ => some ([], bits)
  | [], _ + 1, _, _ => none
  | b :: t, need + 1, acc, n =>
      let acc := 2 * acc + b.toNat
      let n := n + 1
      match codes.find? fun c => decide (c.2.1 = n ∧ c.2.2 = acc) with
      | some c => (hvzNibbles codes t need 0 0).map fun r => (c.1 :: r.1, r.2)
      | none => if 15 ≤ n then none else hvzNibbles codes t (need + 1) acc n

/-- Pairs of nibbles as bytes, low nibble first. -/
def nibbleBytes : List Nat → List Byte
  | a :: b :: t => BitVec.ofNat 8 (a + 16 * b) :: nibbleBytes t
  | _ => []

/-- The bits of a payload, byte 0 bit 0 first. -/
def payloadBits (bs : List Byte) : List Bool := bs.flatMap fun b => (List.range 8).map fun i => b.getLsbD i

/-- The expanded data of a compressed payload; none where it fails as kind 3. -/
def hvzDecode (lens : Nat) (ulen : Nat) (payload : List Byte) : Option (List Byte) :=
  let ls := hvzLens lens
  if hvzBad ls then none
  else match hvzNibbles (hvzCodes ls) (payloadBits payload) (2 * ulen) 0 0 with
    | none => none
    | some r =>
        if 8 ≤ r.2.length ∨ r.2.any id then none else some (nibbleBytes r.1)

/-! ### Granules (R309, R310) -/

/-- What a granule gives: the bytes to write, the source bytes it takes and its new check, or the kind of its failure. -/
inductive Gran where
  | ok (bs : List Byte) (used check : Nat)
  | bad (kind : Nat)
  deriving DecidableEq, Repr

/-- A multiple of 64. -/
def ceil64 (n : Nat) : Nat := (n + 63) / 64 * 64

/-- An HVZ block at offset `off` of a source of `len` bytes, with expansion point `xpt`: `expand` at the hop that expands,
which has written `doff` of `xlen` bytes. -/
def blockGran (s : State) (src off len xpt : Nat) (expand : Bool) (doff xlen : Nat) : Gran :=
  let head := s.bytes (src + off) 32
  let h := leNat head
  let ulen := fld h 32 16
  let clen := fld h 48 16
  let lens := fld h 64 64
  let stored := bit h 26
  let fin := off + ceil64 (32 + clen)
  let payload := s.bytes (src + off + 32) clen
  if fld h 0 16 ≠ 0x5A48 ∨ fld h 16 8 ≠ 1 ∨ fld h 27 5 ≠ 0 ∨ fld h 160 64 ≠ 0 then .bad 2
  else if fld h 24 2 ≠ xpt then .bad 4
  else if len < fin then .bad 3
  else
    let hcrc := crc32c (head.take 28 ++ payload)
    if expand then
      let data := if stored then (if clen = ulen ∧ lens = 0 then some payload else none) else hvzDecode lens ulen payload
      match data with
      | none => .bad 3
      | some bs =>
          if ulen = 0 ∨ 4096 < ulen ∨ clen = 0 ∨ 4096 < clen ∨ xlen < doff + ulen ∨ (fin = len ∧ doff + ulen ≠ xlen) then .bad 3
          else if hcrc ≠ fld h 224 32 then .bad 1
          else
            let c := crc32c bs
            if c ≠ fld h 128 32 then .bad 0 else .ok bs (fin - off) c
    else if hcrc ≠ fld h 224 32 then .bad 1
    else .ok (head ++ payload ++ List.replicate (fin - off - 32 - clen) 0) (fin - off) hcrc

/-- A granule of data at `src + off`, of `n` bytes, with the carried check if there is one. -/
def dataGran (s : State) (src off n : Nat) (carried : Option Nat) : Gran :=
  let bs := s.bytes (src + off) n
  let c := crc32c bs
  match carried with
  | some k => if c = k then .ok bs n c else .bad 0
  | none => .ok bs n c

end Sys2Proof.Machine
end

