-- ==== Sys2Proof/Machine/Tier.lean ====
section
/-!
DEFINITION. Tier-engine lanes (R300-R305, R309-R314, R317): TEGO, TESTAT, TETHR, shard records, hops and the throttle.
-/

namespace Sys2Proof.Machine

/-! ### Shard records (Table 21-3) -/

/-- src -/
def shSrc (r : Nat) : Nat := fld r 0 52
/-- ldst -/
def shLdst (r : Nat) : Nat := fld r 64 52
/-- hdst -/
def shHdst (r : Nat) : Nat := fld r 128 52
/-- sdst -/
def shSdst (r : Nat) : Nat := fld r 192 22
/-- srank -/
def shRank (r : Nat) : Nat := fld r 224 6
/-- len -/
def shLen (r : Nat) : Nat := fld r 256 32
/-- xlen -/
def shXlen (r : Nat) : Nat := fld r 288 32
/-- due -/
def shDue (r : Nat) : Nat := fld r 320 32
/-- first -/
def shFirst (r : Nat) : Nat := fld r 352 2
/-- xpt -/
def shXpt (r : Nat) : Nat := fld r 354 2
/-- rslot -/
def shRslot (r : Nat) : Nat := fld r 356 9
/-- ren -/
def shRen (r : Nat) : Bool := bit r 365
/-- wslot -/
def shWslot (r : Nat) : Nat := fld r 366 9
/-- wen -/
def shWen (r : Nat) : Bool := bit r 375
/-- wval -/
def shWval (r : Nat) : Nat := fld r 384 16

/-- Whether a reserved bit is set, or `first` is 0b11 (row 2 of R302). -/
def shReserved (r : Nat) : Bool :=
  decide (fld r 52 12 ≠ 0) || decide (fld r 116 12 ≠ 0) || decide (fld r 180 12 ≠ 0) || decide (fld r 214 10 ≠ 0) ||
  decide (fld r 230 26 ≠ 0) || decide (fld r 376 8 ≠ 0) || decide (fld r 400 112 ≠ 0) || decide (shFirst r = 3) ||
  (decide (shFirst r ≠ 0) && decide (shLdst r ≠ 0)) || (decide (shFirst r = 2) && decide (shHdst r ≠ 0))

/-- The memory of a tier: 0 the pool, 1 LPDDR 6, 2 HBM4E. -/
def tierKind (t : Nat) : MemKind := match t with | 0 => .pool | 1 => .lpddr | _ => .hbm

/-- The length of a shard where hop `h` has written it: expanded or not (R306). -/
def shLenAfter (r h : Nat) : Nat := if shXpt r ≠ 3 ∧ shXpt r ≤ h then shXlen r else shLen r

/-- The length in the scratchpad (R302). -/
def shScratchLen (r : Nat) : Nat := shLenAfter r 2

/-- The places of a shard outside the scratchpad: address, tier and bytes. -/
def shSpans (r : Nat) : List (Nat × Nat × Nat) :=
  (shSrc r, shFirst r, shLen r) ::
    ((if shFirst r = 0 then [(shLdst r, 1, shLenAfter r 0)] else []) ++
     (if shFirst r ≤ 1 then [(shHdst r, 2, shLenAfter r 1)] else []))

/-- Rows 2 to 5 of R302: the cause and info value of the first failure. Row 3 looks at where each place begins, for the lengths are not
checked before row 5; bytes beyond the tier lie in no registered range, which is row 6. -/
def shCheck (r : Nat) : Option (Nat × Word) :=
  if shReserved r then some (cSHAPE, 0x100)
  else if (shSpans r).any (fun p => decide (memKind p.1 ≠ some (tierKind p.2.1))) ||
      decide (scratchSize < shSdst r + shScratchLen r) then some (cSHAPE, 0x500)
  else match (((shSpans r).map fun p => p.1) ++ [shSdst r]).find? fun a => decide (a % 64 ≠ 0) with
  | some a => some (cALIGN, w64 a)
  | none =>
      let l := shLen r
      let x := shXlen r
      if l % 64 ≠ 0 ∨ l < 64 ∨ 2 ^ 24 < l ∨ x < 1 ∨ 2 ^ 24 < x ∨ (shXpt r = 3 ∧ x ≠ l) ∨ (shXpt r ≠ 3 ∧ shXpt r < shFirst r) then
        some (cSHAPE, 0x300)
      else none

/-- Whether every byte of `[a, a + n)` lies in one of the registered ranges: each step reaches the end of the furthest range
that holds the address. -/
def inRanges (rs : List (Nat × Nat)) : Nat → Nat → Nat → Bool
  | 0, _, n => decide (n = 0)
  | fuel + 1, a, n =>
      if n = 0 then true
      else
        let e := (rs.filter fun q => decide (q.1 ≤ a ∧ a < q.1 + q.2)).foldl (fun e q => max e (q.1 + q.2)) a
        if e ≤ a then false else if a + n ≤ e then true else inRanges rs fuel e (a + n - e)

/-! ### Lanes -/

/-- Lane `n` of a die. -/
def State.lane (s : State) (die n : Nat) : Lane := SMap.get Lane.reset s.tierLanes (8 * die + n)

/-- Replace a lane. -/
def State.setLane (s : State) (die n : Nat) (l : Lane) : State :=
  { s with tierLanes := SMap.set Lane.reset s.tierLanes (8 * die + n) l }

/-- Change a lane. -/
def State.modLane (s : State) (die n : Nat) (f : Lane → Lane) : State := s.setLane die n (f (s.lane die n))

/-- Whether a lane is assigned to an interface (R311). -/
def State.laneOf (s : State) (vi die n : Nat) : Bool :=
  (SMap.get 0 (SMap.get Vif.reset s.vifs vi).lanes die).testBit n

/-- Whether a gang is resident: its cores are reserved for it (R35). -/
def Node.resident (x : Node) : Bool :=
  match x.st with
  | .dispatched | .running | .preempting | .draining => true
  | _ => false

/-- Whether the gang of a node is resident and its cores hold its state: while it is DISPATCHED they are still being set up. -/
def State.resident (s : State) (n : Option Nat) : Bool :=
  match n with
  | none => false
  | some i => match s.node i with
    | some x => x.resident && decide (x.st ≠ .dispatched)
    | none => false

/-- The core of a rank in the gang of a lane or channel. -/
def State.nodeCore (s : State) (n : Option Nat) (rank : Nat) : Option Nat :=
  match n with
  | none => none
  | some i => match s.node i with
    | some x => x.cores[rank]?
    | none => none

/-- The shard with an index. -/
def Lane.shard (l : Lane) (i : Nat) : Option Shard := l.shards.find? fun x => decide (x.index = i)

/-- Hop `h` of a shard. -/
def Shard.hop (x : Shard) (h : Nat) : Hop := SMap.get Hop.fresh x.hops h

/-- Change hop `h` of shard `i`. -/
def Lane.modHop (l : Lane) (i h : Nat) (f : Hop → Hop) : Lane :=
  { l with shards := l.shards.map fun x =>
      if x.index = i then { x with hops := SMap.set Hop.fresh x.hops h (f (x.hop h)) } else x }

/-! ### Granules of a hop -/

/-- The device-physical address at which hop `h` of a record writes; the gang's core for the scratchpad. -/
def State.hopDst (s : State) (l : Lane) (r h : Nat) : Nat :=
  match h with
  | 0 => shLdst r
  | 1 => shHdst r
  | _ => scratchBase + (s.nodeCore l.node (shRank r)).getD 0 * scratchSize + shSdst r

/-- The address from which hop `h` reads. -/
def State.hopSrc (s : State) (l : Lane) (r h : Nat) : Nat := if h = shFirst r then shSrc r else s.hopDst l r (h - 1)

/-- The bytes that hop `h` reads in all. -/
def hopLen (r h : Nat) : Nat := if h = shFirst r then shLen r else shLenAfter r (h - 1)

/-- The next granule of hop `h` of a shard. -/
def State.granule (s : State) (l : Lane) (x : Shard) (h : Nat) : Gran :=
  let r := x.record
  let p := x.hop h
  let src := s.hopSrc l r h
  let carried : Option Nat := if h = shFirst r then none else some (SMap.get 0 (x.hop (h - 1)).checks p.gran)
  if shXpt r = 3 then dataGran s src p.off (min 4096 (hopLen r h - p.off)) (carried.map fun c => c % 2 ^ 32)
  else if shXpt r < h then
    match carried with
    | some c => dataGran s src p.off (c / 2 ^ 32) (some (c % 2 ^ 32))
    | none => .bad 3
  else blockGran s src p.off (shLen r) (shXpt r) (decide (shXpt r = h)) p.doff (shXlen r)

/-- A granule that passed: it is written, and the hop goes on to the next. -/
def State.writeGranule (s : State) (die n : Nat) (x : Shard) (h : Nat) (bs : List Byte) (used check : Nat) : State :=
  let l := s.lane die n
  let dst := s.hopDst l x.record h + (x.hop h).doff
  let g := s.guardTouch dst bs.length
  ((s.traffic dst bs.length .write).setBytes dst bs).modLane die n fun l => l.modHop x.index h fun p =>
    { p with gran := p.gran + 1, off := p.off + used, doff := p.doff + bs.length, rereads := 0,
             checks := SMap.set 0 p.checks p.gran (check + 2 ^ 32 * bs.length),
             guard := match p.guard with | some w => some w | none => g }

/-- The first address of a range whose frame is not valid (R291). -/
def State.badFrame (s : State) (pa n : Nat) : Option Nat :=
  ((List.range ((pa % 65536 + n + 65535) / 65536)).map fun i => max pa ((pa / 65536 + i) * 65536)).find? fun a => !s.frameOk a

/-- The writes that a started scratchpad hop still has to do; a granule that fails ends it (R300). -/
def State.restOfHop (s : State) (l : Lane) : Nat → Shard → List (Nat × List Byte)
  | 0, _ => []
  | fuel + 1, x =>
      let p := x.hop 2
      if hopLen x.record 2 ≤ p.off then []
      else match s.granule l x 2 with
        | .bad _ => []
        | .ok bs used c =>
            let q : Hop :=
              { p with gran := p.gran + 1, off := p.off + used, doff := p.doff + bs.length,
                       checks := SMap.set 0 p.checks p.gran (c + 2 ^ 32 * bs.length) }
            (s.hopDst l x.record 2 + p.doff, bs) :: s.restOfHop l fuel { x with hops := SMap.set Hop.fresh x.hops 2 q }

/-- Writes to finish later, in a step of row `row` whose operands begin with `args` and end with the number of the writes and 2. -/
def State.finishLater (s : State) (cores : List Nat) (writes : List (Nat × List Byte)) (uses : List Use) (row : Instr) (args : List Nat) :
    State :=
  let id := s.lates.foldl (fun a l => max a (l.id + 1)) 0
  let s : State := { s with lates := s.lates ++ [{ id := id, cores := cores, writes := writes, uses := uses }] }
  s.scheduleOpen 1 row (.nats (args ++ [id, 2]))

/-- The writes of number `id` are performed. -/
def State.performLate (s : State) (id : Nat) : State :=
  match s.lates.find? fun l => decide (l.id = id) with
  | none => s
  | some l =>
      l.writes.foldl (fun (s : State) w => s.setBytes w.1 w.2) { s with lates := s.lates.filter fun l => decide (l.id ≠ id) }

/-- The cores of the gang of a lane or channel. -/
def State.nodeCores (s : State) (n : Option Nat) : List Nat :=
  match n with
  | none => []
  | some i => match s.node i with
    | some x => x.cores
    | none => []

/-- A lane stops: started scratchpad hops are written to their end later, without arrival actions; every other shard is abandoned
(R300). -/
def State.stopLane (s : State) (die n : Nat) : State :=
  let l := s.lane die n
  let mine (d : Due) : Bool :=
    (decide (d.row = .shardRecordRead) || decide (d.row = .hopGranule) || decide (d.row = .hopDone)) &&
      decide (d.args.nat 0 = die) && decide (d.args.nat 1 = n) && !(decide (d.row = .hopGranule) && decide (d.args.nat 5 = 2))
  let s : State := { s with agenda := s.agenda.filter fun d => !mine d }
  (l.shards.foldl (fun (s : State) x =>
    if (x.hop 2).st = .active then
      s.finishLater (s.nodeCores l.node) (s.restOfHop l (hopLen x.record 2 / 64 + 1) x) [] .hopGranule [die, n, x.index, 2]
    else s) s).modLane die n fun l => { l with shards := [] }

/-- A fault of a lane (R310): the lane is FAULTED; the report is made while the gang is resident. -/
def State.laneFault (s : State) (die n cause : Nat) (info : Word) : State :=
  (s.stopLane die n).modLane die n fun l => { l with st := .faulted, info := info, held := some (cause, info) }

/-- The gang of a lane has ended: the lane is IDLE and unbound, with its level at 0. -/
def State.releaseLane (s : State) (die n : Nat) : State :=
  (s.stopLane die n).modLane die n fun l =>
    { l with st := .idle, node := none, level := 0, step := 0, mask := 0, held := none }

/-- The report of a faulted lane whose gang is resident: the lane enters IDLE. -/
def State.reportLane (s : State) (die n : Nat) : State :=
  let l := s.lane die n
  match l.held with
  | none => s
  | some f =>
      if s.resident l.node then
        let r : FaultRec :=
          { cycle := s.cycle, core := l.core, unit := 16 * die + n, cause := f.1, info := f.2, nested := false, user := false,
            kind := .lane, cmd := 0, place := 0, row := 0 }
        { s with faults := s.faults ++ [r] }.modLane die n fun l => { l with st := .idle, held := none }
      else s

/-! ### Records -/

/-- The context of the gang of a node: the ASID and the registered ranges. -/
def State.nodeCtx (s : State) (n : Option Nat) : Option Ctx :=
  match n with
  | none => none
  | some i => match s.node i with
    | none => none
    | some x => match SMap.get none s.graphs x.graph with
      | none => none
      | some g => SMap.get none s.ctxs (65536 * g.vi + g.ctx)

/-- The ASID and the registered ranges under which a lane acts: those of the core that started it, where it has no node. -/
def State.laneAsid (s : State) (l : Lane) : Nat :=
  match s.nodeCtx l.node with
  | some c => c.asid
  | none => (s.core l.core).asid.toNat

/-- The gang size of a lane. -/
def State.laneGang (s : State) (l : Lane) : Nat :=
  match l.node with
  | none => 0
  | some i => match s.node i with
    | some x => x.cores.length
    | none => 0

/-- Row 6 of R302. -/
def State.shPlaces (s : State) (l : Lane) (r : Nat) : Option (Nat × Word) :=
  if s.laneGang l ≤ shRank r then some (cPROT, w64 (shRank r))
  else
    let rs := match s.nodeCtx l.node with | some c => c.itin | none => []
    ((shSpans r).find? fun p => !inRanges rs (rs.length + 1) p.1 p.2.2).map fun p => (cPROT, w64 p.1)

/-- The info value of CHKFAIL (R310). -/
def chkInfo (die lane hop kind gran shard : Nat) : Word :=
  w64 (die * 2 ^ 61 + lane * 2 ^ 58 + hop * 2 ^ 56 + kind * 2 ^ 52 + gran % 2 ^ 18 * 2 ^ 34 + shard % 2 ^ 20)

/-- SHARD_RECORD_READ (R302): the operands are the die, the lane, the shard and the phase. In phase 0 the record is read; a fifth operand
of 1 says that the read returned a link error, and the sixth counts the rereads so far: after three the record is unreadable, which is
CHKFAIL of kind 5 with hop 3 (R310). In phase 1, one cycle later, it is checked: the further operands are then the cause of a failed read
or 0, the info value, the record, and the touch of a marked granule plus one, or 0 (R164), which the shard's first hop reports. -/
def execShardRecordRead (s : State) : Host.Outcome State Fault Refusal :=
  let die := s.ev.nat 0
  let n := s.ev.nat 1
  let i := s.ev.nat 2
  let l := s.lane die n
  if l.st ≠ .running then .next s
  else if s.ev.nat 3 = 0 ∧ s.ev.nat 4 = 1 then
    if 3 ≤ s.ev.nat 5 then .next (s.laneFault die n cCHKFAIL (chkInfo die n 3 5 0 i))
    else .next (s.scheduleOpen 1 .shardRecordRead (.nats [die, n, i, 0, 0, s.ev.nat 5 + 1]))
  else if s.ev.nat 3 = 0 then
    let va := l.records + 64 * i
    match s.check (unitTier die) (s.laneAsid l) false .load va with
    | .error c => .next (s.schedule (s.cycle + 1) .shardRecordRead (.nats [die, n, i, 1, c, va, 0]))
    | .ok t =>
        let s := s.fill (unitTier die) t
        match s.dest t (t.pa va) true with
        | .error c => .next (s.schedule (s.cycle + 1) .shardRecordRead (.nats [die, n, i, 1, c, va, 0]))
        | .ok as =>
            let a := as.headD (t.pa va)
            let g := match s.guardTouch a 64 with | some w => w.toNat + 1 | none => 0
            .next (((s.hit a 64).traffic a 64 .read).schedule (s.cycle + 1) .shardRecordRead (.nats [die, n, i, 1, 0, 0, s.readN a 64, g]))
  else
    let r := s.ev.nat 6
    if s.ev.nat 4 ≠ 0 then .next (s.laneFault die n (s.ev.nat 4) (w64 (s.ev.nat 5)))
    else match shCheck r with
      | some e => .next (s.laneFault die n e.1 e.2)
      | none =>
          match s.shPlaces l r with
          | some e => .next (s.laneFault die n e.1 e.2)
          | none =>
              .next (s.modLane die n fun l =>
                let first : Hop := { Hop.fresh with guard := if s.ev.nat 7 = 0 then none else some (w64 (s.ev.nat 7 - 1)) }
                { l with shards := l.shards ++
                    [{ index := i, record := r, ready := s.cycle, hops := SMap.set Hop.fresh [] (shFirst r) first }] })

/-! ### Hops (R303, Table 21-4) -/

/-- Whether a hop had started before a cycle. -/
def Hop.startedBy (p : Hop) (cycle : Nat) : Bool := decide (p.st ≠ .pending) && decide (p.start < cycle)

/-- Whether a hop had reached DONE before a cycle (R317). -/
def Hop.doneBy (p : Hop) (cycle : Nat) : Bool := decide (p.st = .done) && decide (p.fin < cycle)

/-- The window of a tier. -/
def Lane.window (l : Lane) (h : Nat) : Nat := match h with | 0 => l.wl | 1 => l.wh | _ => l.ws

/-- How the gang of a node is being stopped. -/
def State.nodeStop (s : State) (n : Option Nat) : StopKind :=
  match n with
  | none => .none
  | some i => match s.node i with
    | some x => x.stop
    | none => .none

/-- Whether a save of the gang of a lane is under way, which reads its scratchpads: the gang is leaving its cores (R300). -/
def StopKind.saves : StopKind → Bool
  | .saving _ => true
  | _ => false

/-- Whether hop `h` of a shard may start (R303). A scratchpad hop does not start while the gang is not resident or its save runs. -/
def State.hopReady (s : State) (l : Lane) (x : Shard) (h : Nat) : Bool :=
  let r := x.record
  let users := l.shards.filter fun y => decide (y.index < x.index) && decide (shFirst y.record ≤ h)
  decide (shFirst r ≤ h) && decide (h < 3) && decide ((x.hop h).st = .pending) && decide (x.ready ≤ s.cycle) &&
  (decide (h = shFirst r) || (x.hop (h - 1)).doneBy s.cycle) &&
  (match users.getLast? with | none => true | some y => (y.hop h).startedBy s.cycle) &&
  (if users.length < l.window h then true
   else match users[users.length - l.window h]? with
     | none => true
     | some y => (y.hop h).doneBy s.cycle && (decide (h = 2) || (y.hop (h + 1)).doneBy s.cycle)) &&
  (decide (h ≠ 2) ||
    (s.resident l.node && !(s.nodeStop l.node).saves &&
      (!shWen r || (match s.nodeCore l.node (shRank r) with
        | none => false
        | some c => decide (((SMap.get 0 (s.core c).kSnap (shWslot r)).toNat % 65536 + 65536 - shWval r) % 65536 < 32768)))))

/-- HOP_START (R303): the operands are the die, the lane, the shard and the hop. The start of a shard's first hop reads the next
record. -/
def execHopStart (s : State) : Host.Outcome State Fault Refusal :=
  let die := s.ev.nat 0
  let n := s.ev.nat 1
  let i := s.ev.nat 2
  let h := s.ev.nat 3
  let l := s.lane die n
  match l.shard i with
  | none => .next s
  | some x =>
      if l.st = .running ∧ s.hopReady l x h then
        let s := s.modLane die n fun l => l.modHop i h fun p => { p with st := .active, start := s.cycle }
        let s := s.scheduleOpen 1 .hopGranule (.nats [die, n, i, h, 0, 0])
        .next (if h = shFirst x.record ∧ i + 1 < l.count then s.schedule s.cycle .shardRecordRead (.nats [die, n, i + 1, 0]) else s)
      else .next s

/-- The hops that may start now: die, lane, shard and hop. -/
def State.hopStarts (s : State) : List (List Nat) :=
  s.tierLanes.flatMap fun e =>
    if e.2.st ≠ .running then []
    else e.2.shards.flatMap fun x => ([0, 1, 2].filter fun h => s.hopReady e.2 x h).map fun h => [e.1 / 8, e.1 % 8, x.index, h]

/-- HOP_GRANULE (R309, R310): the operands are the die, the lane, the shard, the hop, the granule, and 1 where the source read
returned a link error; or, with 2 there, the fifth names writes left by a gang that has ended. -/
def execHopGranule (s : State) : Host.Outcome State Fault Refusal :=
  let s := { s with hitSeen := [] }
  let die := s.ev.nat 0
  let n := s.ev.nat 1
  let i := s.ev.nat 2
  let h := s.ev.nat 3
  let l := s.lane die n
  if s.ev.nat 5 = 2 then .next (s.performLate (s.ev.nat 4))
  else match l.shard i with
  | none => .next s
  | some x =>
      let p := x.hop h
      let src := s.hopSrc l x.record h
      let fail (s : State) (cause : Nat) (info : Word) : State :=
        (s.modLane die n fun l => l.modHop i h fun p => { p with st := .failed }).laneFault die n cause info
      if p.st ≠ .active ∨ p.gran ≠ s.ev.nat 4 then .next s
      else if s.ev.nat 5 = 1 then
        if 3 ≤ p.rereads then .next (fail s cCHKFAIL (chkInfo die n h 5 p.gran i))
        else
          .next ((s.modLane die n fun l => l.modHop i h fun p => { p with rereads := p.rereads + 1 }).scheduleOpen 1 .hopGranule
            (.nats [die, n, i, h, p.gran, 0]))
      else match s.badFrame (src + p.off) 1 with
        | some a => .next (fail s cPROT (w64 a))
        | none =>
            match s.granule l x h with
            | .bad k => .next (fail s cCHKFAIL (chkInfo die n h k p.gran i))
            | .ok bs used c =>
                match s.badFrame (src + p.off) used, s.badFrame (s.hopDst l x.record h + p.doff) bs.length with
                | some a, _ => .next (fail s cPROT (w64 a))
                | none, some a => .next (fail s cPROT (w64 a))
                | none, none =>
                    let s := ((s.hit (src + p.off) used).traffic (src + p.off) used .read).writeGranule die n x h bs used c
                    if p.off + used < hopLen x.record h then .next (s.scheduleOpen 0 .hopGranule (.nats [die, n, i, h, p.gran + 1, 0]))
                    else .next (s.schedule s.cycle .hopDone (.nats [die, n, i, h]))

/-- ceil(a / b) -/
def ceilDiv (a b : Nat) : Nat := (a + b - 1) / b

/-- The arrival of a shard (R304, R305): the arrived count, lateness, the level, the add of rslot and IDLE after the last. -/
def State.arrive (s : State) (die n : Nat) (r : Nat) : State :=
  let l := s.lane die n
  let late := (s.cycle - l.t0) / 64 - shDue r
  let acc := l.acc + late
  let level := if late ≠ 0 ∧ l.step ≠ 0 then max l.level (min 7 (ceilDiv acc l.step)) else l.level
  let last := decide (l.arrived + 1 = l.count)
  let s := s.modLane die n fun l =>
    { l with arrived := l.arrived + 1, lateness := min (2 ^ 64 - 1) (l.lateness + late), acc := acc, level := level,
             st := if last then .idle else l.st, shards := if last then [] else l.shards }
  match (if shRen r then s.nodeCore l.node (shRank r) else none) with
  | none => s
  | some c =>
      s.queueAdd (.slot c (shRslot r)) 1 (.lane die n (ctrInfo 1 (shRslot r) (shRank r) 0))

/-- HOP_DONE (Table 21-4): the operands are the die, the lane, the shard and the hop. It is progress of the gang (R52). -/
def execHopDone (s : State) : Host.Outcome State Fault Refusal :=
  let die := s.ev.nat 0
  let n := s.ev.nat 1
  let i := s.ev.nat 2
  let h := s.ev.nat 3
  match (s.lane die n).shard i with
  | none => .next s
  | some x =>
      if (x.hop h).st ≠ .active then .next s
      else
        let s := s.modLane die n fun l => l.modHop i h fun p => { p with st := .done, fin := s.cycle }
        let s := match s.nodeCore (s.lane die n).node 0 with
          | some c => s.modCore c fun k => { k with lastStep := s.cycle }
          | none => s
        let s := if h = 2 then s.arrive die n x.record else s
        match (x.hop h).guard with
        | some w => .next (if (s.lane die n).st = .faulted then s else s.laneFault die n cGUARD w)
        | none => .next s

/-! ### Throttle (R305) -/

/-- Whether a step window of a lane ends in a cycle: windows last 64 × S cycles. -/
def Lane.windowEnds (l : Lane) (cycle : Nat) : Bool :=
  decide (l.step ≠ 0) && decide (l.winStart ≤ cycle) && decide ((cycle + 1 - l.winStart) % (64 * l.step) = 0)

/-- THROTTLE_WINDOW_END (R305): the operands are the die and the lane. -/
def execThrottleWindowEnd (s : State) : Host.Outcome State Fault Refusal :=
  let die := s.ev.nat 0
  let n := s.ev.nat 1
  .next (s.modLane die n fun l =>
    if l.windowEnds s.cycle then { l with level := if l.acc = 0 then l.level - 1 else l.level, acc := 0 } else l)

/-- The level that applies to a core: the largest among the lanes of its gang that name its rank. -/
def State.laneLevel (s : State) (k : Core) : Nat :=
  s.tierLanes.foldl (fun a e =>
    if e.2.node.isSome ∧ e.2.node = k.node ∧ e.2.mask.testBit k.grank.toNat then max a e.2.level else a) 0

/-! ### Instructions (R311-R314) -/

/-- A lane that is not assigned to the interface of the cluster under way raises PROT. -/
def withLane (lane : BitVec 3) (body : Nat → Lane → State → Res) (s : State) : Res :=
  let die := coreDie s.curCore
  if s.laneOf s.myCore.vifn.toNat die lane.toNat then body die (s.lane die lane.toNat) s else .trap cPROT (lane.zeroExtend 64)

/-- TEGO (R312). -/
def bodyTego (o : TegoOps) (s : State) : Res :=
  withLane o.lane (fun die l s =>
    let a := (s.x o.a).toNat
    let n := (s.x o.b).toNat
    if a % 64 ≠ 0 then .trap cALIGN (s.x o.a)
    else if l.st ≠ .idle then .done (s.resultX 3 o.d 1)
    else if 2 ^ 20 < n then .done (s.resultX 3 o.d 2)
    else
      let l' : Lane :=
        { Lane.reset with st := if n = 0 then .idle else .running, node := s.myCore.node, core := s.curCore, records := a, count := n,
                          wl := o.wl.toNat + 1, wh := o.wh.toNat + 1, ws := o.ws.toNat + 1, t0 := s.cycle }
      let s := s.landMine.setLane die o.lane.toNat l'
      let s := if n = 0 then s else s.schedule s.cycle .shardRecordRead (.nats [die, o.lane.toNat, 0, 0])
      .done (s.resultX 3 o.d 0)) s

/-- The state code of TESTAT item 0. -/
def State.laneCode (s : State) (l : Lane) : Nat :=
  match l.st with
  | .idle => 0
  | .running => if s.resident l.node then 1 else 2
  | .faulted => 3

/-- Whether a pseudo-channel of TESTAT item 4 exists: the stacks of the die hold 64 each; then two sub-channels of each LPDDR 6
channel of the die (chapter 01). -/
def chanExists (die q : Nat) : Bool :=
  decide (q < (if die < 4 then 64 else 256)) || (decide (256 ≤ q) && decide (q < 256 + 2 * (if die < 4 then 32 else 16)))

/-- A counter of a pseudo-channel (Table 21-9). -/
def ChanCtr.item (c : ChanCtr) : Nat → Nat
  | 0 => c.reads
  | 1 => c.writes
  | 2 => c.conflicts
  | 3 => c.stalls
  | _ => c.entries

/-- A counter that is read out has run on by `n` since it was read last (log entry 77); the self-refresh entries count as they happen. -/
def ChanCtr.readOut (c : ChanCtr) (i n : Nat) : ChanCtr :=
  match i with
  | 0 => { c with reads := (c.reads + n) % 2 ^ 64 }
  | 1 => { c with writes := (c.writes + n) % 2 ^ 64 }
  | 2 => { c with conflicts := (c.conflicts + n) % 2 ^ 64 }
  | 3 => { c with stalls := (c.stalls + n) % 2 ^ 64 }
  | _ => c

/-- TESTAT (R313). -/
def bodyTestat (o : TestatOps) (s : State) : Res :=
  withLane o.lane (fun die l s =>
    let a := (s.x o.a).toNat
    let item := a % 256
    if item = 4 then
      if !s.me.super then .trap cPRIV 0
      else if a / 2 ^ 23 ≠ 0 ∨ !chanExists die (fld a 8 12) ∨ 4 < fld a 20 3 then .trap cILLFLD 0
      else
        let q := 4096 * die + fld a 8 12
        let c := (s.chanCtr q).readOut (fld a 20 3) (Config.channelRun s.freeCtr)
        .done (({ s with freeCtr := s.freeCtr + 1 }.modChanCtr q fun _ => c).resultX 3 o.d (w64 (c.item (fld a 20 3))))
    else if 4 < item ∨ a / 256 ≠ 0 then .trap cILLFLD 0
    else
      let v := match item with
        | 0 => l.arrived % 2 ^ 32 + s.laneCode l * 2 ^ 32 + l.level * 2 ^ 36
        | 1 => l.lateness
        | 2 => min l.acc (2 ^ 32 - 1) + l.step * 2 ^ 32
        | _ => l.info.toNat
      .done (s.resultX 3 o.d (w64 v))) s

/-- TETHR (R314). -/
def bodyTethr (o : TethrOps) (s : State) : Res :=
  withLane o.lane (fun die l s =>
    let a := (s.x o.a).toNat
    let b := (s.x o.b).toNat
    if 2 ^ 16 ≤ a then .trap cILLFLD 0
    else if b / 2 ^ s.myCore.gangSize ≠ 0 ∨ l.node = none ∨ l.node ≠ s.myCore.node then .trap cPROT (s.x o.b)
    else
      .done (s.modLane die o.lane.toNat fun l =>
        { l with step := a, mask := b, acc := 0, winStart := s.cycle + 1, level := if a = 0 then 0 else l.level })) s

/-- The step of TEGO. -/
def execTego (o : TegoOps) (s : State) : Host.Outcome State Fault Refusal := s.issue (.tego o) (bodyTego o)
/-- The step of TESTAT. -/
def execTestat (o : TestatOps) (s : State) : Host.Outcome State Fault Refusal := s.issue (.testat o) (bodyTestat o)
/-- The step of TETHR. -/
def execTethr (o : TethrOps) (s : State) : Host.Outcome State Fault Refusal := s.issue (.tethr o) (bodyTethr o)

end Sys2Proof.Machine
end

