-- ==== Sys2Proof/Machine/Relay.lean ====
section
/-!
DEFINITION. Relay channels (R319-R334).
-/

namespace Sys2Proof.Machine

/-! ### Channel records (Table 23-1) -/

/-- channel -/
def crChan (r : Nat) : Nat := fld r 0 6
/-- srank -/
def crSrank (r : Nat) : Nat := fld r 64 6
/-- rrank -/
def crRrank (r : Nat) : Nat := fld r 72 6
/-- depth -/
def crDepth (r : Nat) : Nat := fld r 80 4
/-- sbytes -/
def crBytes (r : Nat) : Nat := fld r 96 32
/-- rbase -/
def crBase (r : Nat) : Nat := fld r 128 64
/-- sslot -/
def crSslot (r : Nat) : Nat := fld r 192 9
/-- fslot -/
def crFslot (r : Nat) : Nat := fld r 208 9
/-- aslot -/
def crAslot (r : Nat) : Nat := fld r 224 9
/-- cslot -/
def crCslot (r : Nat) : Nat := fld r 240 9
/-- sen, fen, aen, cen -/
def crEnable (r i : Nat) : Bool := bit r (256 + i)

/-- Whether a reserved bit of a record is set. -/
def crReserved (r : Nat) : Bool :=
  decide (fld r 6 58 ≠ 0) || decide (fld r 70 2 ≠ 0) || decide (fld r 78 2 ≠ 0) || decide (fld r 84 12 ≠ 0) ||
  decide (fld r 201 7 ≠ 0) || decide (fld r 217 7 ≠ 0) || decide (fld r 233 7 ≠ 0) || decide (fld r 249 7 ≠ 0) ||
  decide (fld r 260 60 ≠ 0) || decide (fld r 320 192 ≠ 0)

/-- Bytes of a ring slot (R321). -/
def crStride (r : Nat) : Nat := crBytes r + 64

/-- The slot of a sequence number. -/
def crSlot (r q : Nat) : Nat := crBase r + q % crDepth r * crStride r

/-- The 16 header bytes that are not zero, and the rest, as a number (Table 23-2). -/
def slabHeader (r layer seq : Nat) : Nat :=
  layer % 2 ^ 17 + seq % 2 ^ 32 * 2 ^ 32 + crChan r * 2 ^ 64 + crSrank r * 2 ^ 72 + crBytes r * 2 ^ 96

/-! ### Channels -/

/-- Channel `n` of the package. -/
def State.chan (s : State) (n : Nat) : Chan := SMap.get Chan.reset s.chans n

/-- Replace a channel. -/
def State.setChan (s : State) (n : Nat) (c : Chan) : State := { s with chans := SMap.set Chan.reset s.chans n c }

/-- Change a channel. -/
def State.modChan (s : State) (n : Nat) (f : Chan → Chan) : State := s.setChan n (f (s.chan n))

/-- The package channel with an interface's own number `c`: the assigned channels in ascending order (R319). -/
def State.chanOf (s : State) (vi c : Nat) : Option Nat :=
  ((List.range 64).filter fun i => (SMap.get Vif.reset s.vifs vi).chans.testBit i)[c]?

/-- R319: the channel that a relay instruction of the core under way names, or the trap. -/
def State.relayChan (s : State) (c : Nat) : Except (Nat × Word) Nat :=
  match s.chanOf s.myCore.vifn.toNat c with
  | none => .error (cPROT, w64 c)
  | some n =>
      if (s.chan n).st ≠ .closed ∧ (s.chan n).node ≠ s.myCore.node then .error (cPROT, w64 c) else .ok n

/-- TRAPINFO of RXPHASE (R332). -/
def phaseInfo (kind c v : Nat) : Word := w64 (kind * 2 ^ 56 + c * 2 ^ 48 + v % 2 ^ 17)

/-- The own rank. -/
def State.rank (s : State) : Nat := s.myCore.grank.toNat

/-- An engine fault of a relay port against the gang of a core (R333): the port is that of the core's die. -/
def State.portFault (s : State) (core cause : Nat) (info : Word) : State :=
  let r : FaultRec :=
    { cycle := s.cycle, core := core, unit := 16 * coreDie core + 8, cause := cause, info := info, nested := false, user := false,
      kind := .port, cmd := 0, place := 0, row := 0 }
  { s with faults := s.faults ++ [r] }

/-- A slot add of a channel (R322): a saturated one raises CNTOVF. -/
def State.slotAdd (s : State) (on : Bool) (core k rank : Nat) : State :=
  if on then
    s.queueAdd (.slot core k) 1 (.port core (ctrInfo 1 k rank 0))
  else s

/-- Forget the steps due of a channel. -/
def State.dropChanSteps (s : State) (n : Nat) : State :=
  let mine (d : Due) : Bool :=
    (decide (d.row = .slabStart) || decide (d.row = .slabSourceRead) || decide (d.row = .slabArrival) || decide (d.row = .rxfreeEffect)) &&
      decide (d.args.nat 0 = n) && !(decide (d.row = .slabArrival) && decide (d.args.nat 2 = 2))
  { s with agenda := s.agenda.filter fun d => !mine d }

/-- A channel enters CLOSED and is unbound; its counts stay until it is next OPEN, and the info value of its last fault stays
readable (Table 23-3, Table 23-5). -/
def State.closeChan (s : State) (n : Nat) : State :=
  (s.dropChanSteps n).modChan n fun c =>
    { Chan.reset with info := c.info, sent := c.sent, arrived := c.arrived, received := c.received, freed := c.freed, stAt := s.cycle }

/-! ### Transfers (R323, R333) -/

/-- Bytes at physical pieces. -/
def State.gather (s : State) (ps : List (Nat × Nat)) : List Byte := ps.flatMap fun p => s.bytes p.1 p.2

/-- Store bytes at physical pieces. -/
def State.scatter (s : State) : List (Nat × Nat) → List Byte → State
  | [], _ => s
  | p :: t, bs => (s.setBytes p.1 (bs.take p.2)).scatter t (bs.drop p.2)

/-- The bytes of a slot: header, then payload. -/
def Chan.slotBytes (c : Chan) (x : Slab) (payload : List Byte) : List Byte := leBytes 64 (slabHeader c.record x.layer x.seq) ++ payload

/-- The difference of two 64-bit counts. -/
def countDiff (a b : Nat) : Nat := (a + 2 ^ 64 - b) % 2 ^ 64

/-- `freed` rises by 1 in a cycle (R322). -/
def Chan.countFree (c : Chan) (cycle : Nat) : Chan :=
  { c with freed := (c.freed + 1) % 2 ^ 64, freeing := c.freeing - 1, freedAt := cycle,
           freedOld := if c.freedAt = cycle then c.freedOld else c.freed, closeAt := max c.closeAt (cycle + 1) }

/-- `arrived` rises by 1 in a cycle. -/
def Chan.countArrival (c : Chan) (cycle : Nat) : Chan :=
  { c with arrived := (c.arrived + 1) % 2 ^ 64, arrivedAt := cycle,
           arrivedOld := if c.arrivedAt = cycle then c.arrivedOld else c.arrived }

/-- `freed` as waiting instructions see it in a cycle (R323). -/
def Chan.freedSeen (c : Chan) (cycle : Nat) : Nat := if c.freedAt = cycle then c.freedOld else c.freed

/-- `arrived` as waiting instructions see it in a cycle. -/
def Chan.arrivedSeen (c : Chan) (cycle : Nat) : Nat := if c.arrivedAt = cycle then c.arrivedOld else c.arrived

/-- Change a slab. -/
def Chan.modSlab (c : Chan) (q : Nat) (f : Slab → Slab) : Chan :=
  { c with slabs := c.slabs.map fun x => if x.seq = q then f x else x }

/-- A transfer fails (R333): slabs not yet started are discarded, and so is the failed one; those started go on. -/
def State.chanFault (s : State) (n q cause : Nat) (info : Word) : State :=
  let c := s.chan n
  (s.modChan n fun c =>
    { c with st := .faulted, info := info, stAt := s.cycle, slabs := c.slabs.filter fun x => x.started && decide (x.seq ≠ q) }).portFault
      (if cause = cCHKFAIL then c.receiver else c.sender) cause info

/-- Translate a range for a relay port (R333): its pieces, or the cause and the failing address. -/
def State.portPieces (s : State) (core : Nat) (need : Need) (va n : Nat) : Except (Nat × Word) (State × List (Nat × Nat)) :=
  match s.unitCheck (unitRelay (coreDie core)) (s.core core).asid.toNat need (rangePieces va n) with
  | .error e => .error e
  | .ok (s, ps) =>
      match ps.find? fun p => decide (scratchCore p.1 ≠ some core) with
      | some p => .error (cPROT, w64 (va + (ps.takeWhile fun x => decide (x ≠ p)).foldl (fun a x => a + x.2.1) 0))
      | none => .ok (s, ps.map fun p => (p.1, p.2.1))

/-- The pages under which a relay port accesses a range (R268). -/
def State.portUses (s : State) (core : Nat) (need : Need) (va n : Nat) : List Use :=
  match s.unitCheck (unitRelay (coreDie core)) (s.core core).asid.toNat need (rangePieces va n) with
  | .error _ => []
  | .ok (_, ps) => ((rangePieces va n).zip ps).map fun p => Use.of_ (unitRelay (coreDie core)) p.1.1 p.2.2.2

/-- SLAB_START (R323, R333, R343): the operand is the channel. Its oldest waiting slab starts, after the cycle of its permit and while
the gang is resident and not being stopped. -/
def execSlabStart (s : State) : Host.Outcome State Fault Refusal :=
  let n := s.ev.nat 0
  let c := s.chan n
  match c.slabs.find? fun x => !x.started with
  | none => .next s
  | some x =>
      if !s.resident c.node || decide (s.nodeStop c.node ≠ .none) || decide (c.st = .faulted) || decide (s.cycle ≤ x.permit) then .next s
      else match s.portPieces c.sender .load x.src (crBytes c.record) with
        | .error e => .next (s.chanFault n x.seq e.1 e.2)
        | .ok (s, rs) =>
            match s.portPieces c.receiver .store (crSlot c.record x.seq) (crStride c.record) with
            | .error e => .next (s.chanFault n x.seq e.1 e.2)
            | .ok (s, ws) =>
                let us := s.portUses c.sender .load x.src (crBytes c.record) ++
                  s.portUses c.receiver .store (crSlot c.record x.seq) (crStride c.record)
                let s := s.modChan n fun c => c.modSlab x.seq fun x => { x with started := true, reads := rs, writes := ws, uses := us }
                .next (s.scheduleOpen 1 .slabSourceRead (.nats [n, x.seq, 0]))

/-- info of CHKFAIL of a channel (R333). -/
def slabInfo (c seq : Nat) : Word := w64 (5 * 2 ^ 52 + c * 2 ^ 42 + seq % 2 ^ 32)

/-- SLAB_SOURCE_READ (R323): the operands are the channel, the sequence number, and 1 where a die-to-die beat has failed its
check after three retries. -/
def execSlabSourceRead (s : State) : Host.Outcome State Fault Refusal :=
  let n := s.ev.nat 0
  let q := s.ev.nat 1
  let c := s.chan n
  match c.slabs.find? fun x => x.started && decide (x.seq = q) with
  | none => .next s
  | some x =>
      if s.ev.nat 2 = 1 then .next (s.chanFault n q cCHKFAIL (slabInfo (crChan c.record) q))
      else
        let g := x.reads.foldl (fun g p => match g with | some w => some w | none => s.guardTouch p.1 p.2) (none : Option Word)
        let s := s.modChan n fun c => c.modSlab q fun x => { x with bytes := some (s.gather x.reads), guard := g }
        let s := s.slotAdd (crEnable c.record 3) c.sender (crCslot c.record) (crSrank c.record)
        .next (s.scheduleOpen 1 .slabArrival (.nats [n, q, 0]))

/-- SLAB_ARRIVAL (R322, R323): the operands are those of SLAB_SOURCE_READ. Slabs arrive in sequence order. A touch of a marked granule,
of the source or of the ring, faults the gang once the slab has arrived (R164, R333). With 2 as the third operand, the second names
writes left by a gang that has ended (R334). -/
def execSlabArrival (s : State) : Host.Outcome State Fault Refusal :=
  let n := s.ev.nat 0
  let q := s.ev.nat 1
  let c := s.chan n
  if s.ev.nat 2 = 2 then .next (s.performLate q)
  else match c.slabs.find? fun x => decide (x.seq = q) with
  | none => .next s
  | some x =>
      match x.bytes with
      | none => .next s
      | some bs =>
          if c.slabs.any fun y => decide (y.seq < q) then .next (s.schedule (s.cycle + 1) .slabArrival s.ev)
          else if s.ev.nat 2 = 1 then .next (s.chanFault n q cCHKFAIL (slabInfo (crChan c.record) q))
          else
            let g := x.writes.foldl (fun g p => match g with | some w => some w | none => s.guardTouch p.1 p.2) (none : Option Word)
            let s := s.scatter x.writes (c.slotBytes x bs)
            let s := s.modChan n fun c => { c.countArrival s.cycle with slabs := c.slabs.filter fun y => decide (y.seq ≠ q) }
            let s := s.modCore c.sender fun k => { k with progress := s.cycle, lastStep := s.cycle }
            let s := s.slotAdd (crEnable c.record 2) c.receiver (crAslot c.record) (crRrank c.record)
            let s := match x.guard with | some w => s.portFault c.sender cGUARD w | none => s
            .next (match g with | some w => s.portFault c.receiver cGUARD w | none => s)

/-- A free of channel `n` takes effect (R323). -/
def State.freeSlab (s : State) (n : Nat) : State :=
  let c := s.chan n
  if c.freeing = 0 then s
  else (s.modChan n fun c => c.countFree s.cycle).slotAdd (crEnable c.record 1) c.sender (crFslot c.record) (crSrank c.record)

/-- RXFREE_EFFECT (R323): the operand is the channel. -/
def execRxfreeEffect (s : State) : Host.Outcome State Fault Refusal := .next (s.freeSlab (s.ev.nat 0))

/-- The frees of the channels of node `x` that have not taken effect do so now. -/
def State.freeSlabs (s : State) (x : Nat) : State :=
  s.chans.foldl (fun (s : State) e =>
    if e.2.node = some x then (List.range e.2.freeing).foldl (fun (s : State) _ => s.freeSlab e.1) s else s) s

/-- Slabs that wait for the gang of node `n` may start again (R334). -/
def State.restartSlabs (s : State) (n : Nat) : State :=
  s.chans.foldl (fun (s : State) e =>
    if e.2.node = some n then
      (e.2.slabs.filter fun x => !x.started).foldl (fun (s : State) _ => s.schedule (s.cycle + 1) .slabStart (.nats [e.1])) s
    else s) s

/-- Whether a draining channel closes in this cycle (Table 23-3). -/
def Chan.drains (c : Chan) (cycle : Nat) : Bool :=
  decide (c.st = .draining) && decide (c.freed = c.sent) && decide (c.closeAt ≤ cycle)

/-- CHANNEL_DRAIN_CLOSE (Table 23-3): the operand is the channel. -/
def execChannelDrainClose (s : State) : Host.Outcome State Fault Refusal :=
  if (s.chan (s.ev.nat 0)).drains s.cycle then .next (s.closeChan (s.ev.nat 0)) else .next s

/-- The pieces of a slot with their bytes. -/
def spread : List (Nat × Nat) → List Byte → List (Nat × List Byte)
  | [], _ => []
  | p :: t, bs => (p.1, bs.take p.2) :: spread t (bs.drop p.2)

/-- The gang of a channel has ended, its interface is reset, or the channel is closed after a fault: slabs already started finish writing the ring later without counts
or adds, and the receiver's core is not free until then; the channel enters CLOSED (R334). -/
def State.releaseChan (s : State) (n : Nat) : State :=
  let c := s.chan n
  c.slabs.foldl (fun (s : State) x =>
    if x.started then
      s.finishLater [c.receiver] (spread x.writes (c.slotBytes x (x.bytes.getD (s.gather x.reads)))) x.uses .slabArrival [n]
    else s) (s.closeChan n)

/-! ### RXOPEN (R326) -/

/-- RXOPEN at issue: the record's read is checked and then blocks. -/
def bodyRxopen (o : X2) (s : State) : Res :=
  let ea := s.x o.a
  match s.access .load 64 ea with
  | .error e => Res.denied e
  | .ok (s, t, pa) =>
      let s := s.reach pa 64 .read
      .hold (s.completeOpen 1)
        { s.blocking (.rxopen o) ea [pa, t.ent, o.d.toNat] with kind := .relay (s.readN pa 64 % 64) 0 }

/-- Whether a record is invalid (R326, status 4). -/
def State.recordBad (s : State) (r : Nat) : Bool :=
  crReserved r || decide (crDepth r < 2) || decide (8 < crDepth r) || decide (crBytes r % 64 ≠ 0) || decide (crBytes r < 64) ||
  decide (262144 < crBytes r) || decide (s.myCore.gangSize ≤ crSrank r) || decide (s.myCore.gangSize ≤ crRrank r) ||
  decide (crBase r % 64 ≠ 0) ||
  (match s.rankCore (crRrank r) with
   | none => true
   | some c =>
       let ok (need : Need) : Bool :=
         (match s.unitCheck (unitRelay (coreDie c)) s.myCore.asid.toNat need (rangePieces (crBase r) (crDepth r * crStride r)) with
          | .error _ => false
          | .ok (_, ps) => ps.all fun p => decide (scratchCore p.1 = some c))
       !(ok .load && ok .store))

/-- The status of an RXOPEN, in the order 4, 3, 1, 2. -/
def State.openStatus (s : State) (c : Chan) (r : Nat) : Nat :=
  if s.recordBad r then 4
  else if s.rank ≠ crSrank r ∧ s.rank ≠ crRrank r then 3
  else if (c.st ≠ .closed ∧ c.st ≠ .opening) ∨ (c.st = .opening ∧ c.opener = s.rank) then 1
  else if c.st = .opening ∧ c.record ≠ r then 2
  else 0

/-- Whether the record of a held RXOPEN has been read, so that its event comes in its turn in gang order (R324). -/
def Hold.openReady (h : Hold) : Bool := decide (h.vals.length = 4)

/-- The record of an RXOPEN that the cluster under way holds has been read. -/
def markOpen (h : Hold) (s : State) : State :=
  s.modMe fun c => { c with act := .waiting { h with vals := h.vals ++ [1] } }

/-- Completion of an RXOPEN that the cluster under way holds: its record has been read, and its event reaches the channel. -/
def rxopenStep (h : Hold) (s : State) : State :=
  let pa := h.vals.getD 0 0
  match s.dest (leafOf (h.vals.getD 1 0)) pa true with
  | .error c => s.trapHeld h c h.ea
  | .ok as =>
      let r := leNat (s.view (as.headD pa) 64)
      match s.relayChan (crChan r) with
      | .error e => s.trapHeld h e.1 e.2
      | .ok n =>
          let c := s.chan n
          let v := s.openStatus c r
          let s :=
            if v ≠ 0 then s
            else if c.st = .closed ∧ crSrank r ≠ crRrank r then
              s.setChan n { c with st := .opening, record := r, node := s.myCore.node, opener := s.rank, stAt := s.cycle }
            else
              s.setChan n { Chan.reset with
                st := .opened, record := r, node := s.myCore.node, opener := s.rank, stAt := s.cycle, info := c.info,
                sender := (s.rankCore (crSrank r)).getD 0, receiver := (s.rankCore (crRrank r)).getD 0 }
          (s.resultX 1 (BitVec.ofNat 5 (h.vals.getD 2 0)) (w64 v)).release h

/-! ### RXSEND (R327) -/

/-- What the wait of an RXSEND or RXRECV comes to in this cycle. -/
inductive Ready where
  | wait
  | go
  | phase (kind : Nat)
  | mismatch (v : Nat)
  deriving DecidableEq, Repr

/-- The wait of an RXSEND. -/
def Chan.sendReady (c : Chan) (cycle : Nat) : Ready :=
  match c.st with
  | .draining => .phase 2
  | .closed | .faulted => .phase 4
  | .opening => .wait
  | .opened | .flowing =>
      if c.stAt < cycle ∧ countDiff c.sent (c.freedSeen cycle) < crDepth c.record then .go else .wait

/-- Take a permit: sequence number, count, slot add and the slab's transfer. -/
def State.send (s : State) (n layer src : Nat) : State × Nat :=
  let c := s.chan n
  let q := c.sent
  let x : Slab := { seq := q, layer := layer, src := src, permit := s.cycle, started := false, reads := [], writes := [], bytes := none,
                    guard := none }
  let s := s.modChan n fun c => { c with sent := (q + 1) % 2 ^ 64, st := .flowing, slabs := c.slabs ++ [x] }
  let s := s.slotAdd (crEnable c.record 0) s.curCore (crSslot c.record) (crSrank c.record)
  (s.scheduleOpen 1 .slabStart (.nats [n]), q)

/-- The source check of an RXSEND (R125): every byte readable and in the own scratchpad. -/
def State.sendSource (s : State) (va n : Nat) : Except (Nat × Word) State :=
  (rangePieces va n).foldl (fun r p =>
    match r with
    | .error e => .error e
    | .ok s =>
        (match s.check (unitCore s.curCore) s.myCore.asid.toNat s.me.super .load p.1 with
         | .error c => .error (c, w64 p.1)
         | .ok t =>
             if s.own (t.pa p.1) then .ok ((s.fill (unitCore s.curCore) t).touch (t.pa p.1) p.2) else .error (cPROT, w64 p.1))) (.ok s)

/-- RXSEND at issue. -/
def bodyRxsend (o : Rx3) (s : State) : Res :=
  let ch := o.ch.toNat
  let src := s.x o.a
  let hd := s.x o.b
  match s.relayChan ch with
  | .error e => .trap e.1 e.2
  | .ok n =>
      let c := s.chan n
      if 2 ^ 17 ≤ hd.toNat then .trap cILLFLD hd
      else if src.toNat % 64 ≠ 0 then .trap cALIGN src
      else if c.st = .closed then .trap cRXPHASE (phaseInfo 4 ch 0)
      else match s.sendSource src.toNat (crBytes c.record) with
        | .error e => .trap e.1 e.2
        | .ok s =>
            if s.rank ≠ crSrank c.record then .trap cRXPHASE (phaseInfo 2 ch 0)
            else match c.sendReady s.cycle with
              | .phase k => .trap cRXPHASE (phaseInfo k ch 0)
              | .go =>
                  let r := s.landMine.send n hd.toNat src.toNat
                  .done (r.1.resultX 1 o.d (w64 r.2))
              | _ => .hold s.landMine { s.blocking (.rxsend o) src [n, hd.toNat, src.toNat, o.d.toNat] with kind := .relay ch 1 }

/-- RELAY_PERMIT_GRANT (R327): the operands are the core and the cluster, which waits in RXSEND. -/
def execRelayPermitGrant (s : State) : Host.Outcome State Fault Refusal :=
  let s := { s with curCore := s.ev.nat 0, curCl := s.ev.nat 1 }
  match s.me.hold? with
  | none => .next s
  | some h =>
      match h.kind with
      | .relay ch 1 =>
          (match (s.chan (h.vals.getD 0 0)).sendReady s.cycle with
           | .phase k =>
               .next (if (s.chan (h.vals.getD 0 0)).stAt < s.cycle then s.trapHeld h cRXPHASE (phaseInfo k ch 0) else s)
           | .go =>
               let r := s.send (h.vals.getD 0 0) (h.vals.getD 1 0) (h.vals.getD 2 0)
               .next ((r.1.resultX 1 (BitVec.ofNat 5 (h.vals.getD 3 0)) (w64 r.2)).release h)
           | _ => .next s)
      | _ => .next s

/-! ### RXRECV (R328) -/

/-- The header of the oldest slab not yet received. -/
def State.headHeader (s : State) (c : Chan) : Nat :=
  match s.unitCheck (unitRelay (coreDie c.receiver)) (s.core c.receiver).asid.toNat .load (rangePieces (crSlot c.record c.received) 4) with
  | .error _ => 0
  | .ok (_, ps) => leNat (s.gather (ps.map fun p => (p.1, p.2.1)))

/-- The wait of an RXRECV that expects layer and parity `want`. A CLOSED channel holds no record. -/
def State.recvReady (s : State) (c : Chan) (want : Nat) : Ready :=
  if c.st = .closed then .phase 4
  else if c.received ≠ c.arrivedSeen s.cycle then
    let h := s.headHeader c % 2 ^ 17
    if h ≠ want % 2 ^ 17 then .mismatch h else .go
  else if c.received ≠ c.arrived then .wait
  else match c.st with
    | .faulted => .phase 4
    | .draining => if c.received = c.sent then .phase 3 else .wait
    | _ => .wait

/-- Take the oldest slab: its payload address. -/
def State.receive (s : State) (n : Nat) : State × Word :=
  let c := s.chan n
  (s.modChan n fun c => { c with received := (c.received + 1) % 2 ^ 64 }, w64 (crSlot c.record c.received + 64))

/-- RXRECV at issue. -/
def bodyRxrecv (o : Rx2) (s : State) : Res :=
  let ch := o.ch.toNat
  let want := s.x o.a
  match s.relayChan ch with
  | .error e => .trap e.1 e.2
  | .ok n =>
      let c := s.chan n
      if 2 ^ 17 ≤ want.toNat then .trap cILLFLD want
      else if c.st = .closed then .trap cRXPHASE (phaseInfo 4 ch 0)
      else if s.rank ≠ crRrank c.record then .trap cRXPHASE (phaseInfo 2 ch 0)
      else match s.recvReady c want.toNat with
        | .phase k => .trap cRXPHASE (phaseInfo k ch 0)
        | .mismatch v => .trap cRXPHASE (phaseInfo 0 ch v)
        | .go =>
            let r := s.receive n
            .done (r.1.resultX 1 o.d r.2)
        | .wait => .hold s { s.blocking (.rxrecv o) 0 [n, want.toNat, o.d.toNat] with kind := .relay ch 2 }

/-- RXRECV_DELIVER (R328): the operands are the core and the cluster, which waits in RXRECV. -/
def execRxrecvDeliver (s : State) : Host.Outcome State Fault Refusal :=
  let s := { s with curCore := s.ev.nat 0, curCl := s.ev.nat 1 }
  match s.me.hold? with
  | none => .next s
  | some h =>
      match h.kind with
      | .relay ch 2 =>
          let n := h.vals.getD 0 0
          (match s.recvReady (s.chan n) (h.vals.getD 1 0) with
           | .phase k => .next (if (s.chan n).stAt < s.cycle then s.trapHeld h cRXPHASE (phaseInfo k ch 0) else s)
           | .mismatch v => .next (s.trapHeld h cRXPHASE (phaseInfo 0 ch v))
           | .go =>
               let r := s.receive n
               .next ((r.1.resultX 1 (BitVec.ofNat 5 (h.vals.getD 2 0)) r.2).release h)
           | .wait => .next s)
      | _ => .next s

/-! ### RXFREE, RXCLOSE, RXSTAT (R329-R331) -/

/-- RXFREE. -/
def bodyRxfree (o : Rx0) (s : State) : Res :=
  let ch := o.ch.toNat
  match s.relayChan ch with
  | .error e => .trap e.1 e.2
  | .ok n =>
      let c := s.chan n
      if c.st = .closed then .trap cRXPHASE (phaseInfo 4 ch 0)
      else if s.rank ≠ crRrank c.record then .trap cRXPHASE (phaseInfo 2 ch 0)
      else if c.st = .faulted then .trap cRXPHASE (phaseInfo 4 ch 0)
      else if countDiff c.received c.freed ≤ c.freeing then .trap cRXPHASE (phaseInfo 1 ch 0)
      else .done ((s.landMine.modChan n fun c => { c with freeing := c.freeing + 1 }).scheduleOpen 1 .rxfreeEffect (.nats [n]))

/-- The status and the channel's change of an RXCLOSE by a rank. -/
def State.closeBy (s : State) (n rank : Nat) : State × Nat :=
  let c := s.chan n
  let tx := decide (rank = crSrank c.record)
  let rx := decide (rank = crRrank c.record)
  match c.st with
  | .closed => (s, 1)
  | .opening => if tx || rx then (s.closeChan n, 0) else (s, 3)
  | .opened | .flowing =>
      if tx then (s.modChan n fun c => { c with st := .draining, stAt := s.cycle, closeAt := s.cycle + 2 }, 0) else (s, if rx then 2 else 3)
  | .draining => (s, if tx then 1 else if rx then 2 else 3)
  | .faulted => if tx || rx then (s.releaseChan n, 0) else (s, 3)

/-- RXCLOSE. -/
def bodyRxclose (o : Rx1) (s : State) : Res :=
  match s.relayChan o.ch.toNat with
  | .error e => .trap e.1 e.2
  | .ok n =>
      let r := s.closeBy n s.rank
      .done (r.1.resultX 3 o.d (w64 r.2))

/-- State codes of RXSTAT. -/
def ChanState.code : ChanState → Nat
  | .closed => 0 | .opening => 1 | .opened => 2 | .flowing => 3 | .draining => 4 | .faulted => 5

/-- An item of RXSTAT (Table 23-5). -/
def Chan.item (c : Chan) : Nat → Option Word
  | 0 => some (w64 (c.st.code + crDepth c.record * 16 + crSrank c.record * 256 + crRrank c.record * 65536))
  | 1 => some (w64 c.sent)
  | 2 => some (w64 c.arrived)
  | 3 => some (w64 c.received)
  | 4 => some (w64 c.freed)
  | 5 => some c.info
  | _ => none

/-- RXSTAT. -/
def bodyRxstat (o : Rx2) (s : State) : Res :=
  match s.relayChan o.ch.toNat with
  | .error e => .trap e.1 e.2
  | .ok n =>
      match (s.chan n).item (s.x o.a).toNat with
      | none => .trap cILLFLD 0
      | some v => .done (s.resultX 3 o.d v)

/-- The step of RXOPEN. -/
def execRxopen (o : X2) (s : State) : Host.Outcome State Fault Refusal := s.issue (.rxopen o) (bodyRxopen o)
/-- The step of RXSEND. -/
def execRxsend (o : Rx3) (s : State) : Host.Outcome State Fault Refusal := s.issue (.rxsend o) (bodyRxsend o)
/-- The step of RXRECV. -/
def execRxrecv (o : Rx2) (s : State) : Host.Outcome State Fault Refusal := s.issue (.rxrecv o) (bodyRxrecv o)
/-- The step of RXFREE. -/
def execRxfree (o : Rx0) (s : State) : Host.Outcome State Fault Refusal := s.issue (.rxfree o) (bodyRxfree o)
/-- The step of RXCLOSE. -/
def execRxclose (o : Rx1) (s : State) : Host.Outcome State Fault Refusal := s.issue (.rxclose o) (bodyRxclose o)
/-- The step of RXSTAT. -/
def execRxstat (o : Rx2) (s : State) : Host.Outcome State Fault Refusal := s.issue (.rxstat o) (bodyRxstat o)

end Sys2Proof.Machine
end

