-- ==== Sys2Proof/Machine/Nodes.lean ====
section
/-!
DEFINITION. The life of a node (R35, R36, R40, R41, R50-R52, R369): release of cores, final states and their events, completion,
hangs and the dealing with faults.
-/

namespace Sys2Proof.Machine

/-! ### Reports -/

/-- The report of a recorded fault. -/
def State.faultReport (s : State) (r : FaultRec) : Report :=
  { cause := r.cause, core := some r.core, unit := some (r.kind, r.unit), info := r.info, cmd := r.cmd, place := r.place, row := r.row,
    malformed := decide (r.cause = cXLATE) && s.malformedAt (s.core r.core).asid.toNat r.info.toNat }

/-- Post an event about a node (Table 25-6). The report that goes with it also names the unit and tells a malformed entry from an invalid
one (R239, R248), for which Table 25-6 has no field. -/
def State.nodeEvent (s : State) (x : Node) (kind : Nat) (r : Report) : State :=
  match s.graph x.graph with
  | none => s
  | some g =>
      let core := match r.core with | some c => s.coreNumber g.vi c | none => 0xFFFF
      let e : HostReport := { vi := g.vi, handle := g.handle, index := x.index, kind := kind, report := r }
      State.postEvent { s with reports := s.reports ++ [e] } g.vi
        (eventWord kind r.cause g.ctx g.handle x.index core 0 r.info.toNat r.cmd r.place r.row)

/-- Context `c` of interface `v`. -/
def State.ctx (s : State) (v c : Nat) : Option Ctx := SMap.get none s.ctxs (65536 * v + c)

/-- Resolve a counter of a graph's context. -/
def State.graphCounter (s : State) (g : Graph) (va : Nat) : Except Nat CtrName :=
  match s.ctx g.vi g.ctx with
  | some c => s.resolveCounter c.asid va
  | none => .error cXLATE

/-! ### Counter adds of a cycle (R146) -/

/-- Apply one add: where it saturates, its engine raises CNTOVF (R214). -/
def State.applyAdd (s : State) (a : AddReq) : State :=
  let r := s.ctrAdd a.ctr a.amount
  if r.2 then
    match a.src with
    | .engine core unit info cmd place row => r.1.engFault core unit cCNTOVF info cmd place row
    | .lane die lane info => r.1.laneFault die lane cCNTOVF info
    | .port core info => r.1.portFault core cCNTOVF info
    | .silent _ => r.1
  else r.1

/-- Apply the queued adds of a kind. -/
def State.applyAdds (s : State) (f : AddReq → Bool) : State :=
  { (s.adds.filter f).foldl State.applyAdd s with adds := s.adds.filter fun a => !f a }

/-- Whether an add is one of the engines of core `n`. -/
def AddReq.ofEngine (n : Nat) (a : AddReq) : Bool :=
  match a.src with
  | .engine core .. => decide (core = n)
  | _ => false

/-! ### Leaving the cores (R35, R300, R334) -/

/-- Whether a step due is of core `n` and ends with its task. -/
def Due.ofCore (d : Due) (n : Nat) : Bool :=
  [Instr.ldqFill, .postedStoreAck, .blockingCompletion, .copyRow, .fetchBlockArrival, .atomicMessageArrival].contains d.row &&
    decide (d.args.nat 0 = n)

/-- Release core `n`: it is idle; its scratchpad keeps its contents (R54). Atomic messages that are still on their way arrive. -/
def State.freeCore (s : State) (n : Nat) : State :=
  { s with agenda := s.agenda.filter fun d => !d.ofCore n || decide (d.row = Instr.atomicMessageArrival) }.setCore n
    Core.reset

/-- Whether an atomic message to the scratchpad of core `n` is still on its way, or a write left by a gang that has ended (R300,
R334). -/
def State.lateFor (s : State) (n : Nat) : Bool :=
  (s.lates.any fun l => l.cores.contains n) ||
    s.agenda.any fun d => decide (d.row = .atomicMessageArrival) && decide (scratchCore (d.args.nat 3) = some n)

/-- The channels bound to node `n` enter CLOSED (R334). -/
def State.releaseChans (s : State) (n : Nat) : State :=
  s.chans.foldl (fun (s : State) e => if e.2.node = some n then s.releaseChan e.1 else s) s

/-- The lanes and channels bound to node `n` end with its gang (R300, R334). -/
def State.unbind (s : State) (n : Nat) : State :=
  (s.tierLanes.foldl (fun (s : State) e => if e.2.node = some n then s.releaseLane (e.1 / 8) (e.1 % 8) else s) s).releaseChans n

/-- The gang of node `n` is stopped: its lanes and channels end and its cores are released. -/
def State.stopGang (s : State) (n : Nat) (x : Node) : State :=
  let cores := if x.resident then x.cores else []
  cores.foldl State.freeCore (s.unbind n)

/-! ### Final states (Table 3-3, R40) -/

/-- Node `n` enters a final state. -/
def State.finishNode (s : State) (n : Nat) (st : NodeState) : State :=
  s.modNode n fun x =>
    { x with st := st, cores := [], reqAt := none, stop := .none, faultVa := none, victimOf := none, saved := [], savedMem := [],
             savedRanges := [] }

/-- The states of the predecessors of a node. -/
def State.predStates (s : State) (x : Node) : List NodeState :=
  x.preds.map fun p => match s.node p with | some y => y.st | none => .complete

/-- Whether a node is WAITING for nothing more: a predecessor failed, or all are complete. -/
def State.unsettled (s : State) (n : Nat) : Bool :=
  match s.node n with
  | none => false
  | some x =>
      decide (x.st = .waiting) &&
        let ps := s.predStates x
        ps.any (fun p => decide (p = .faulted ∨ p = .cancelled)) || ps.all fun p => decide (p = .complete)

/-- A WAITING node goes on (Table 3-3): CANCELLED after a failed predecessor; else, with its done counter resolved, READY. -/
def State.settleNode (g : Graph) (s : State) (n : Nat) : State :=
  match s.node n with
  | none => s
  | some x =>
      if !s.unsettled n then s
      else if (s.predStates x).any fun p => decide (p = .faulted ∨ p = .cancelled) then
        (s.nodeEvent x 5 .bare).finishNode n .cancelled
      else
        let ready := s.modNode n fun x => { x with st := .ready, readyAt := s.cycle }
        if nrDone x.record = 0 then ready
        else match s.graphCounter g (nrDone x.record) with
          | .ok _ => ready
          | .error c => (s.nodeEvent x 2 { Report.bare with cause := c, info := w64 (nrDone x.record) }).finishNode n .faulted

/-- Settle the nodes of a graph until none moves. -/
def State.settleRounds (s : State) (g : Graph) : Nat → State
  | 0 => s
  | k + 1 => if g.nodes.any s.unsettled then (g.nodes.foldl (State.settleNode g) s).settleRounds g k else s

/-- The buffer of a batch becomes free (R357); a queue being removed goes with its last batch (R356). -/
def State.freeBuffer (s : State) (v q b : Nat) : State :=
  s.modVif v fun x =>
    match SMap.get none x.corrals q with
    | none => x
    | some c =>
        let busy := c.busy.filter fun y => decide (y ≠ b)
        { x with corrals := SMap.set none x.corrals q (if c.removing && busy.isEmpty && c.pending.isEmpty then none else some { c with busy := busy }) }

/-- The add of a graph's done counter; whether it was missed (R38). -/
def State.graphAdd (s : State) (g : Graph) : State × Bool :=
  if g.doneCtr = 0 then (s, false)
  else match s.graphCounter g g.doneCtr.toNat with
    | .ok c => (s.queueAdd c 1 (.silent true), false)
    | .error _ => (s, true)

/-- A graph whose nodes are all final: the end of its batch, its add and its event; its nodes leave the node table (R40). -/
def State.endGraph (s : State) (i : Nat) (g : Graph) : State :=
  let xs := g.nodes.filterMap s.node
  if xs.all fun x => x.st.final then
    let done := (xs.filter fun x => decide (x.st = .complete)).length
    let s := match g.batch with
      | none => s
      | some (q, b, seq, count) => (s.freeBuffer g.vi q b).postEvent g.vi (eventWord 4 0 g.ctx q count 0xFFFF 0 seq 0 0 0)
    let r := s.graphAdd g
    let s := r.1.postEvent g.vi
      (eventWord 1 0 g.ctx g.handle done 0xFFFF (xs.length - done + (if r.2 then 65536 else 0)) 0 0 0 0)
    { s with nodes := s.nodes.filter fun e => !g.nodes.contains e.1, graphs := SMap.erase s.graphs i }
  else s

/-- Settle graph `i`. -/
def State.settleGraph (s : State) (i : Nat) : State :=
  match s.graph i with
  | none => s
  | some g => (s.settleRounds g (g.nodes.length + 1)).endGraph i g

/-- Node `n` enters a final state, with its report (Table 25-6). -/
def State.endNode (s : State) (n : Nat) (st : NodeState) (r : Report) : State :=
  match s.node n with
  | none => s
  | some x =>
      let s := match st with
        | .complete => s
        | .faulted => s.nodeEvent x 2 r
        | _ => s.nodeEvent x 5 r
      (s.finishNode n st).settleGraph x.graph

/-- A fault of node `n`: the gang is stopped and the cause reported (Table 3-3). -/
def State.faultNode (s : State) (n : Nat) (r : Report) : State :=
  match s.node n with
  | none => s
  | some x => (s.stopGang n x).endNode n .faulted r

/-! ### Completion (R50) -/

/-- Whether every slab a core has sent has arrived (R334). -/
def State.slabsArrived (s : State) (n : Nat) : Bool :=
  !s.chans.any fun e => decide (e.2.node.isSome ∧ e.2.sender = n) && !e.2.slabs.isEmpty

/-- Whether the task of core `n` has finished (R50). -/
def State.coreFinished (s : State) (n : Nat) : Bool :=
  let k := s.core n
  k.exited && k.loadQ.isEmpty && k.matQ.isEmpty && k.storeQ.isEmpty && k.issued.isEmpty && k.inbox.isEmpty && k.stream.isNone &&
    s.slabsArrived n

/-- Whether the gang of a node completes: it is DRAINING, not being destroyed (R41), and the tasks of all its cores have finished. -/
def State.gangDone (s : State) (x : Node) : Bool :=
  decide (x.st = .draining) && decide (x.stop ≠ .kill) && x.cores.all s.coreFinished

/-- In the cycle in which the tasks of all cores of node `n` have finished, what its clusters issued is performed before the gang
completes (R40, R50): their atomic messages arrive, and the frees of its channels take effect. -/
def State.finishPosted (s : State) (n : Nat) : State :=
  match s.node n with
  | none => s
  | some x =>
      if (match x.st with | .running | .preempting | .draining => true | _ => false) && x.cores.all s.coreFinished then
        (s.hasten fun d => decide (d.row = .atomicMessageArrival) && x.cores.contains (d.args.nat 0)).freeSlabs n
      else s

/-- GANG_COMPLETE (R50): the operand is the node. Buffered DT stores are committed, the cores are released, the done counter
is advanced and the successors are updated. -/
def execGangComplete (s : State) : Host.Outcome State Fault Refusal :=
  let n := s.ev.nat 0
  match s.node n with
  | none => .next s
  | some x =>
      if s.gangDone x then
        let s := (s.commitGang (s.gangOf (x.cores.headD 0))).stopGang n x
        let s := match s.graph x.graph with
          | none => s
          | some g =>
              if nrDone x.record = 0 then s
              else match s.graphCounter g (nrDone x.record) with
                | .ok c => s.queueAdd c 1 (.silent true)
                | .error _ => s
        .next (s.endNode n .complete .bare)
      else .next s

/-- Node `n` enters DRAINING when every cluster of its cores has executed EXIT; a pre-emption request is discarded (R41). -/
def State.startDraining (s : State) (n : Nat) : State :=
  match s.node n with
  | none => s
  | some x =>
      let open_ := match x.stop with | .none | .drain | .hard => true | _ => false
      if decide (x.st = .running ∨ x.st = .preempting) && open_ && x.cores.all (fun c => (s.core c).exited) then
        (s.setNode n { x with st := .draining, reqAt := none, stop := .none }).restartSlabs n
      else s

/-! ### Hangs (R51, R52) -/

/-- The watchdog period of a node's interface. -/
def State.period (s : State) (x : Node) : Nat := 2 ^ (s.vif (s.nodeVi x)).watchdog

/-- Whether a node is running: neither suspended by a translation fault nor being destroyed. -/
def Node.runs (x : Node) : Bool :=
  (match x.st with | .running | .preempting | .draining => true | _ => false) && x.faultVa.isNone && decide (x.stop ≠ .kill)

/-- The node of core `n`, if there is one. -/
def State.coreNode (s : State) (n : Nat) : Option Node := (s.core n).node.bind s.node

/-- Whether core `n` raises ENGHANG in this cycle. -/
def State.hangs (s : State) (n : Nat) : Bool :=
  match s.coreNode n with
  | none => false
  | some x =>
      x.runs && (s.core n).exited && !s.coreFinished n && decide ((s.core n).progress + s.period x ≤ s.cycle)

/-- ENGHANG (R51): the operand is the core. The report names the head command of the first queue that holds one, or the
Bridle. -/
def execEnghang (s : State) : Host.Outcome State Fault Refusal :=
  let n := s.ev.nat 0
  let k := s.core n
  if !s.hangs n then .next s
  else
    let head := ([0, 1, 2].filterMap fun q => (k.queue q).head?.map fun c => (q, c)).head?
    match head with
    | some (q, c) =>
        .next (s.engFault n (queueUnit q) cENGHANG 0 (encodeCmd c.cmd) c.origin.toNat (match c.resume with | some r => r.row | none => 0))
    | none => .next (s.engFault n 4 cENGHANG 0 0 (match k.stream with | some st => st.start.toNat | none => 0) 0)

/-- A wait that WATCHDOG ends: every one but a cluster held in the runtime, with no event pending; in a CWAIT it comes before a halt
that is pending (Table 11-8). -/
def Cluster.watched (c : Cluster) : Bool :=
  match c.act with
  | .waiting h =>
      (match h.kind, c.event with
       | .runtime, _ => false
       | _, none => true
       | .cwait _, some e => decide (e.1 ≠ 2)
       | _, _ => false)
  | _ => false

/-- Whether node `n` has gone one period without progress and a cluster waits. -/
def State.watchdogDue (s : State) (n : Nat) : Bool :=
  match s.node n with
  | none => false
  | some x =>
      x.runs && decide (x.st ≠ .draining) &&
        x.cores.all (fun c => decide ((s.core c).lastStep + s.period x ≤ s.cycle)) &&
        x.cores.any fun c => clusters.any fun cl => (s.cluster c cl).watched

/-- WATCHDOG (R52): the operand is the node. Every waiting cluster will take the trap at its next quiet point. -/
def execWatchdog (s : State) : Host.Outcome State Fault Refusal :=
  let n := s.ev.nat 0
  if !s.watchdogDue n then .next s
  else match s.node n with
    | none => .next s
    | some x =>
        .next (x.cores.foldl (fun (s : State) c => clusters.foldl (fun (s : State) cl =>
          if (s.cluster c cl).watched then s.modCluster c cl fun k => { k with event := some (2, s.cycle) } else s) s) s)

/-! ### Faults of a cycle (R71, R239, R240, R368, R369) -/

/-- What becomes of a recorded fault. -/
inductive FaultAct where
  | ignore | fatal | suspend | debug
  deriving DecidableEq, Repr

/-- A trap of user code is dealt with by the device runtime when TVEC names it; a nested one, WATCHDOG and an engine's fault by
the firmware. -/
def State.faultAct (s : State) (x : Node) (r : FaultRec) : FaultAct :=
  match x.st with
  | .running | .preempting | .draining =>
      if x.stop = .kill then .ignore
      else match r.kind with
        | .trap =>
            if r.nested || decide (r.cause = cWATCHDOG) then .fatal
            else if !r.user then .ignore
            else if r.cause = cXLATE then .suspend
            else if decide (r.cause = cBKPT) && s.dbgen then .debug
            else .fatal
        | .engine => if r.cause = cXLATE ∧ x.st ≠ .draining then .suspend else .fatal
        | _ => .fatal
  | _ => .ignore

/-- The order of R369. -/
def FaultRec.key (r : FaultRec) : Nat :=
  match r.kind with
  | .trap | .engine => 16 * r.core + r.unit
  | _ => 2 ^ 16 + r.unit

/-- The faults in the order of R369. -/
def sortFaults (l : List FaultRec) : List FaultRec :=
  l.foldl (fun a r => a.takeWhile (fun y => decide (y.key ≤ r.key)) ++ [r] ++ a.dropWhile (fun y => decide (y.key ≤ r.key))) []

/-- A cluster whose trap suspends its node, or comes while its gang is being destroyed, goes back to the faulting instruction
and halts. -/
def Cluster.undoTrap (c : Cluster) : Cluster := { c.leaveTrap with act := .halted false }

/-- A translation fault suspends node `n` by the path of hard pre-emption (R240). -/
def State.suspendFor (s : State) (n : Nat) (r : FaultRec) : State :=
  let s := if r.kind = .trap then s.modCluster r.core r.unit Cluster.undoTrap else s
  match s.node n with
  | none => s
  | some x =>
      match x.stop with
      | .none | .drain | .hard =>
          (s.setNode n { x with faultVa := some r.info.toNat, faultRep := s.faultReport r }).stopHard n .fault
      | _ => s

/-- A BKPT with a debugger attached (R368): the core halts, and the cluster is held in the runtime after trap entry. -/
def State.breakHalt (s : State) (r : FaultRec) : State :=
  (s.modCluster r.core r.unit fun c =>
    { c with act := .waiting { kind := .runtime, instr := .nop, ea := 0, vals := [], since := s.cycle, sync := false } }).haltCore r.core

/-- The faults of one node in one cycle. -/
def State.resolveNode (s : State) (n : Nat) : State :=
  match s.node n with
  | none => s
  | some x =>
      let rs := sortFaults (s.faults.filter fun r => x.cores.contains r.core)
      if x.stop = .kill then
        rs.foldl (fun (s : State) r => if r.kind = .trap then s.modCluster r.core r.unit Cluster.undoTrap else s) s
      else match rs.find? fun r => decide (s.faultAct x r = .fatal) with
        | some r => s.faultNode n (s.faultReport r)
        | none =>
            rs.foldl (fun (s : State) r =>
              match s.faultAct x r with
              | .suspend => s.suspendFor n r
              | .debug => s.breakHalt r
              | _ => s) s

/-- Deal with the faults of the cycle. -/
def State.resolveFaults (s : State) : State :=
  if s.faults.isEmpty then s
  else { (s.liveNodes.map fun e => e.1).foldl State.resolveNode s with faults := [] }

end Sys2Proof.Machine
end

