-- ==== Sys2Proof/Machine/Paddock.lean ====
section
/-!
DEFINITION. The Paddock: dispatch decisions (R353, R355), the start of a gang (R32, R34, R54), pre-emption (R46-R49, R354) and
resumption.
-/

namespace Sys2Proof.Machine

/-! ### Fit (R353) -/

/-- Whether a core is held for a head other than node `n`: a pre-empted gang left it for a head that is still READY (R354). -/
def State.heldFrom (s : State) (n core : Nat) : Bool :=
  s.liveNodes.any fun e =>
    e.2.cores.contains core &&
      match e.2.victimOf with
      | none => false
      | some h => decide (h ≠ n) && (match s.node h with | some y => decide (y.st = .ready) | none => false)

/-- Whether a core is free for node `n`: idle, with no scratchpad clear and no write of an ended gang pending (R54, R300, R334), and
not held for another. -/
def State.coreFree (s : State) (n core : Nat) : Bool :=
  decide ((s.core core).node = none) && !s.clears.contains core && !s.lateFor core && !s.heldFrom n core

/-- The cores a node would take among those available, in rank order: its own when it resumes, else the lowest-numbered. -/
def State.fits (s : State) (v : Nat) (x : Node) (avail : Nat → Bool) : Option (List Nat) :=
  if !x.saved.isEmpty then (if x.cores.all avail then some x.cores else none)
  else
    let cs := (List.range 176).filter fun c => (s.vif v).cores.testBit c && avail c
    let a := (cs.filter fun c => decide (128 ≤ c)).take (nrA x.record)
    let f := (cs.filter fun c => decide (c < 128)).take (nrF x.record)
    if a.length = nrA x.record ∧ f.length = nrF x.record then some (a ++ f) else none

/-- The head of a queue: interface, priority, node and the cores it would take. -/
structure Head where
  v : Nat
  p : Nat
  n : Nat
  x : Node
  cores : Option (List Nat)

/-- The READY node of interface `v` at priority `p` that comes first: by the cycle, then by acceptance and index, which the node's
number follows. -/
def State.queueHead (s : State) (v p : Nat) : Option (Nat × Node) :=
  (s.liveNodes.filter fun e => decide (e.2.st = .ready ∧ nrPrio e.2.record = p) && decide (s.nodeVi e.2 = v)).foldl
    (fun a e => match a with | none => some e | some b => if e.2.readyAt < b.2.readyAt then some e else some b) none

/-- The heads of all queues, interface by interface, priority by priority. -/
def State.heads (s : State) : List Head :=
  let vs := s.liveNodes.filterMap fun e => if e.2.st = .ready then some (s.nodeVi e.2) else none
  (List.range 64).flatMap fun v =>
    if vs.contains v then
      (List.range 4).filterMap fun p => (s.queueHead v p).map fun e =>
        { v := v, p := p, n := e.1, x := e.2, cores := s.fits v e.2 (s.coreFree e.1) }
    else []

/-- Whether a head is dispatchable: it fits, and no head of its interface at a lower priority number fails to. -/
def Head.ok (hs : List Head) (h : Head) : Bool :=
  h.cores.isSome && !hs.any fun g => decide (g.v = h.v ∧ g.p < h.p) && g.cores.isNone

/-! ### Dispatch -/

/-- The state in which a core starts its task (R32, Table 5-1, Table 5-3). -/
def State.startCore (s : State) (n : Nat) (x : Node) (rank : Nat) : Core :=
  let v := s.nodeVi x
  let asid := match s.graph x.graph with
    | some g => (match s.ctx g.vi g.ctx with | some c => c.asid | none => 0)
    | none => 0
  let start (c : Nat) : Cluster :=
    let pc := w64 (nrCode x.record + 4 * nrEntry x.record c)
    { Cluster.reset with pc := pc, x := SMap.set 0 [] 1 (w64 (nrArg x.record)), act := .running }
  { Core.reset with
    cl := clusters.map fun c => (c, start c),
    asid := BitVec.ofNat 16 asid, vifn := BitVec.ofNat 6 v, grank := BitVec.ofNat 6 rank,
    aCores := BitVec.ofNat 8 (nrA x.record), fCores := BitVec.ofNat 8 (nrF x.record),
    node := some n, progress := s.cycle, lastStep := s.cycle }

/-- Node `n` is DISPATCHED onto cores: they are reserved; its first instructions issue at most 300 cycles later (R355). -/
def State.dispatch (s : State) (n : Nat) (x : Node) (cores : List Nat) : State :=
  let s := s.setNode n { x with st := .dispatched, cores := cores, dispatchNo := s.dispatches, victimOf := none }
  let s := { s with dispatches := s.dispatches + 1 }
  let s := cores.foldl (fun (s : State) c => s.setCore c { Core.reset with node := some n }) s
  (s.schedule (s.cycle + max 1 (min 300 s.time)) .gangFirstIssue (.nats [n])).useTime

/-- Whether an address lies in one of some ranges. -/
def inSpans (rs : List (Nat × Nat)) (a : Nat) : Bool := rs.any fun r => decide (r.1 ≤ a ∧ a < r.1 + r.2)

/-- A saved core as it starts again: its cycles without progress go on counting (R52). -/
def Core.resume (k : Core) (n cycle : Nat) : Core :=
  { k with node := some n, kSnap := k.k, tagSnap := k.tagAlloc, progress := cycle - k.progress, lastStep := cycle - k.lastStep }

/-- The throttle level of a cycle applies to core `n` from its first cycle on (R305, R363). -/
def State.startSlow (s : State) (n : Nat) : State :=
  s.modCore n fun k => { k with slow := max (s.laneLevel k) (SMap.get 0 s.thermal (coreDie n)) }

/-- GANG_FIRST_ISSUE (R32): the operand is the node. Its cores take the start state, or their saved context, and all their
clusters can issue in this cycle; the node is RUNNING. -/
def execGangFirstIssue (s : State) : Host.Outcome State Fault Refusal :=
  let n := s.ev.nat 0
  match s.node n with
  | none => .next s
  | some x =>
      if x.st ≠ .dispatched then .next s
      else
        let s := s.setNode n { x with st := .running, saved := [], savedMem := [], savedRanges := [] }
        if x.saved.isEmpty then
          let s := (List.range x.cores.length).foldl (fun (s : State) i => s.setCore (x.cores.getD i 0) (s.startCore n x i)) s
          .next (x.cores.foldl State.startSlow s)
        else
          let s := x.saved.foldl (fun (s : State) e => s.setCore e.1 (e.2.resume n s.cycle)) s
          let mem := SMap.setAll memDefault (s.mem.filter fun e => !inSpans x.savedRanges e.1) x.savedMem
          .next ((x.cores.foldl State.startSlow { s with mem := mem }).restartSlabs n)

/-! ### Pre-emption (R354) -/

/-- A pre-emption request to node `n` for the head `h`. -/
def State.request (s : State) (h n : Nat) : State :=
  match s.node n with
  | none => s
  | some x =>
      if x.st = .preempting then s.setNode n { x with victimOf := some h }
      else
        (s.setNode n { x with st := .preempting, reqAt := some s.cycle, victimOf := some h }).schedule (s.cycle + 2400000)
          .hardPreemption (.nats [n, s.cycle])

/-- The order of victims: highest priority number first, then the latest dispatch first. -/
def victimBefore (a b : Nat × Node) : Bool :=
  decide (nrPrio b.2.record < nrPrio a.2.record) ||
    (decide (nrPrio b.2.record = nrPrio a.2.record) && decide (b.2.dispatchNo < a.2.dispatchNo))

/-- Victims in order. -/
def sortVictims (l : List (Nat × Node)) : List (Nat × Node) :=
  l.foldl (fun a x => a.takeWhile (fun y => victimBefore y x) ++ [x] ++ a.dropWhile (fun y => victimBefore y x)) []

/-- Send requests to victims, in order, until the head would fit; `taken` are the gangs whose cores count as freed. -/
def State.requestUntil (s : State) (h : Head) (taken : List (Nat × Node)) : List (Nat × Node) → State
  | [] => s
  | v :: t =>
      if (s.fits h.v h.x fun c => s.coreFree h.n c || taken.any fun e => e.2.cores.contains c).isSome then s
      else (s.request h.n v.1).requestUntil h (v :: taken) t

/-- Pre-emption for a head that does not fit (R354). -/
def State.preemptFor (s : State) (h : Head) : State :=
  if h.cores.isSome then s
  else
    let below := s.liveNodes.filter fun e => decide (s.nodeVi e.2 = h.v) && decide (h.p < nrPrio e.2.record)
    let leaving := below.filter fun e =>
      decide (e.2.st = .preempting) &&
        (match e.2.victimOf with
         | none => true
         | some g => decide (g = h.n) || !(match s.node g with | some y => decide (y.st = .ready) | none => false))
    let running := sortVictims (below.filter fun e => decide (e.2.st = .running) && decide (e.2.stop = .none))
    let all := leaving ++ running
    if (s.fits h.v h.x fun c => s.coreFree h.n c || all.any fun e => e.2.cores.contains c).isSome then
      let s := leaving.foldl (fun (s : State) e => s.request h.n e.1) s
      s.requestUntil h leaving running
    else s

/-! ### Decisions (R353) -/

/-- The credit of an interface at a priority. -/
def Vif.credit (x : Vif) (p : Nat) : Nat := SMap.get 1 x.credits p

/-- Give every interface its weight as credit at priority `p`. -/
def State.refill (s : State) (p : Nat) : State :=
  (s.vifs.map fun e => e.1).foldl (fun (s : State) v => s.modVif v fun x => { x with credits := SMap.set 1 x.credits p x.weight }) s

/-- Serve priority `p`: the first interface after the last one served with credit and a dispatchable head. -/
def State.serve (s : State) (p : Nat) (hs : List Head) : State :=
  let s := if hs.any fun h => decide (0 < (s.vif h.v).credit p) then s else s.refill p
  let last := SMap.get 63 s.served p
  let next := (List.range 64).findSome? fun i =>
    hs.find? fun h => decide (h.v = (last + 1 + i) % 64) && decide (0 < (s.vif h.v).credit p)
  match next with
  | none => s
  | some h =>
      match h.cores with
      | none => s
      | some cs =>
          let s := s.modVif h.v fun x => { x with credits := SMap.set 1 x.credits p (x.credit p - 1) }
          { s with served := SMap.set 63 s.served p h.v }.dispatch h.n h.x cs

/-- The dispatch of a decision: the lowest priority number with a dispatchable head. -/
def State.decision (s : State) (hs : List Head) : State :=
  let ok := hs.filter fun h => Head.ok hs h
  match (List.range 4).find? fun p => ok.any fun h => h.p == p with
  | none => s
  | some p => s.serve p (ok.filter fun h => h.p == p)

/-- PADDOCK_DECISION (R353, R354): in a cycle with CYCLE mod 16 = 0, once power-on reset is complete (R359), requests for the heads that do not fit, and one dispatch. -/
def execPaddockDecision (s : State) : Host.Outcome State Fault Refusal :=
  if s.cycle % 16 ≠ 0 ∨ s.resetStep ≠ 5 then .next s
  else
    let hs := s.heads
    .next ((hs.foldl State.preemptFor s).decision hs)

/-! ### Live maps (Table 3-4) -/

/-- Whether an entry faults the save. -/
def lmBad (r : Nat) : Bool :=
  decide (fld r 134 10 ≠ 0) || decide (fld r 224 32 ≠ 0) || decide (512 < fld r 144 16) ||
    decide (16384 < fld r 160 16 + fld r 176 16) || decide (16384 < fld r 192 16 + fld r 208 16)

/-- The live-map entry of a cluster that stopped at a SAFE: none where it exited; or the fault of the save. The
info value of both faults is the address of the entry (DESIGN CHOICE, log entry 51). -/
def State.liveMap (s : State) (asid : Nat) (x : Node) (c : Cluster) : Except (Nat × Word) (Option Nat) :=
  match c.act with
  | .atSafe i =>
      let va := nrLivemap x.record + 32 * i
      (match s.fwRead asid va 32 with
       | none => .error (cXLATE, w64 va)
       | some bs => if lmBad (leNat bs) then .error (cILLFLD, w64 va) else .ok (some (leNat bs)))
  | _ => .ok none

/-- The maps of the clusters of a core: cluster and entry. -/
def State.liveMaps (s : State) (asid : Nat) (x : Node) (k : Core) : List Nat → Except (Nat × Word) (List (Nat × Nat))
  | [] => .ok []
  | c :: t =>
      match s.liveMap asid x (k.cluster c) with
      | .error e => .error e
      | .ok m =>
          match s.liveMaps asid x k t with
          | .error e => .error e
          | .ok l => .ok (match m with | some r => (c, r) :: l | none => l)

/-- The entries of a map whose number a mask selects; `w` entries belong to one register. -/
def keepSel {α : Type} (mask w : Nat) (m : SMap α) : SMap α := m.filter fun e => mask.testBit (e.1 / w)

/-- A cluster as a safe-point save restores it: what its map selects and what is always saved; the rest as at dispatch. -/
def Cluster.liveState (c fresh : Cluster) (m : Option Nat) : Cluster :=
  let base := { fresh with
    flags := c.flags, rnd := c.rnd, lstart := c.lstart, lend := c.lend, lcount := c.lcount, ldepth := c.ldepth, dtBuf := c.dtBuf,
    guardRep := c.guardRep, cntovfRep := c.cntovfRep, mirrRep := c.mirrRep, tlbis := c.tlbis }
  match m with
  | none => { base with pc := c.pc, act := .exited }
  | some r =>
      let n := c.loopStep (c.pc + 4)
      { base with
        pc := n.pc, lcount := n.lcount, ldepth := n.ldepth, p := keepSel (fld r 32 8) 1 c.p,
        x := if bit r 1 then keepSel (fld r 0 32) 1 c.x else SMap.set 0 (keepSel (fld r 0 32) 1 c.x) 1 (fresh.readX 1),
        srstate := if bit r 133 then c.srstate else fresh.srstate }

/-- A core as a safe-point save restores it (R48, R49). -/
def Core.liveState (k fresh : Core) (ms : List (Nat × Nat)) : Core :=
  let all := ms.foldl (fun a m => a ||| m.2) 0
  let kcount := ms.foldl (fun a m => max a (fld m.2 144 16)) 0
  { fresh with
    cl := clusters.map fun c =>
      (c, (k.cluster c).liveState (fresh.cluster c) ((ms.find? fun m => decide (m.1 = c)).map fun m => m.2)),
    tiles := keepSel (fld all 64 32) 1024 k.tiles, locks := k.locks,
    qhead := keepSel (fld all 40 8) 1 k.qhead, qent := keepSel (fld all 40 8) 8 k.qent,
    sregs := keepSel (fld all 48 16) 1 k.sregs, iregs := keepSel (fld all 96 16) 1 k.iregs,
    dval := keepSel (fld all 112 16) 512 k.dval, dwt := keepSel (fld all 112 16) 512 k.dwt,
    dtags := keepSel (fld all 112 16) 1 k.dtags, tagAlloc := k.tagAlloc,
    k := k.k.filter fun e => decide (e.1 < kcount), acc := keepSel (fld all 128 4) 4096 k.acc,
    codebook := if bit all 132 then k.codebook else [], copySr := if bit all 133 then k.copySr else fresh.copySr,
    loadQ := k.loadQ, matQ := k.matQ, storeQ := k.storeQ, nextCmd := k.nextCmd, tokens := k.tokens, inbox := k.inbox,
    stream := k.stream, sections := k.sections, nextStream := k.nextStream, stopped := k.stopped,
    progress := fresh.progress - k.progress, lastStep := fresh.lastStep - k.lastStep }

/-- The scratchpad ranges that maps select, of core `n`. -/
def liveSpans (n : Nat) (ms : List (Nat × Nat)) : List (Nat × Nat) :=
  ms.flatMap fun m =>
    [(scratchBase + n * scratchSize + 256 * fld m.2 160 16, 256 * fld m.2 176 16),
     (scratchBase + n * scratchSize + 256 * fld m.2 192 16, 256 * fld m.2 208 16)]

/-! ### The save (R46, R47) -/

/-- A cluster as a full save restores it: it continues at its PC; a SAFE at which it stopped then has no request pending. -/
def Cluster.fullState (c : Cluster) : Cluster :=
  let act := match c.act with
    | .exited => .exited
    | .halted true => .waiting { kind := .queue 0, instr := .nop, ea := 0, vals := [1], since := 0, sync := true }
    | .waiting h => .waiting h
    | _ => .running
  { c with act := act, event := none, issuedAt := 0, block := none }

/-- A core as a full save in a cycle restores it; in place of the cycles of its last progress stand the cycles since then. Guard marks
are cleared at each dispatch (R163). -/
def Core.fullState (k : Core) (cycle : Nat) : Core :=
  { k with cl := k.cl.map fun e => (e.1, e.2.fullState), halted := false, slow := 0, guards := [],
           progress := cycle - k.progress, lastStep := cycle - k.lastStep }

/-- Whether a cluster has stopped for a save. -/
def Cluster.stopped (c : Cluster) : Bool :=
  match c.act with
  | .halted _ | .atSafe _ | .exited => true
  | .waiting h => decide (h.kind = .runtime)
  | _ => false

/-- Whether nothing of a core is in flight: issued commands have retired, results have landed, accesses are performed. -/
def State.coreQuiet (s : State) (n : Nat) : Bool :=
  let k := s.core n
  k.issued.isEmpty && k.inflight.isEmpty && !(s.agenda.any fun d => d.ofCore n) && clusters.all fun c => (k.cluster c).posted.isEmpty

/-- Whether no scratchpad hop, no slab and no free of node `n` is under way (R300, R329, R334). -/
def State.bindingQuiet (s : State) (n : Nat) : Bool :=
  !(s.tierLanes.any fun e => decide (e.2.node = some n) && e.2.shards.any fun x => decide ((x.hop 2).st = .active)) &&
    !(s.chans.any fun e => decide (e.2.node = some n) && (decide (e.2.freeing ≠ 0) || e.2.slabs.any fun x => x.started))

/-- Whether the gang of node `n` has stopped with nothing in flight. -/
def State.gangQuiet (s : State) (n : Nat) (x : Node) : Bool :=
  x.cores.all (fun c => s.coreQuiet c && clusters.all fun cl => (s.cluster c cl).stopped) && s.bindingQuiet n

/-- Whether a queue is empty or its head is stalled on a section dependence, a token pop or a counter wait (R49). -/
def State.headStalled (s : State) (n q : Nat) : Bool :=
  let k := s.core n
  match k.queue q with
  | [] => true
  | c :: _ =>
      let met : Bool := match c.cmd.op with
        | .cwt r => (match { s with curCore := n, curQueue := q }.engCtr .load r with
            | .ok x => waitOk (x.1.ctrGet x.2) c.cmd.h.waitVal.toNat
            | .error _ => true)
        | _ => !c.cmd.h.waitEn || waitOk (SMap.get 0 k.kSnap c.cmd.h.waitSlot.toNat).toNat c.cmd.h.waitVal.toNat
      !(k.depsOk q c && met && (c.pops q).all fun f => decide (0 < k.tokenCount f))

/-- Every cluster of a PREEMPTING gang has stopped at a SAFE or exited: the engines drain (R46). -/
def State.startDrain (s : State) (n : Nat) : State :=
  match s.node n with
  | none => s
  | some x =>
      if decide (x.st = .preempting) && decide (x.stop = .none) &&
          x.cores.all (fun c => clusters.all fun cl => let k := s.cluster c cl; k.safe || k.exited) then
        s.setNode n { x with stop := .drain }
      else s

/-- Whether the drain of node `n` has ended. -/
def State.drained (s : State) (n : Nat) : Bool :=
  match s.node n with
  | none => false
  | some x =>
      match x.stop with
      | .drain => s.gangQuiet n x && x.cores.all fun c => [0, 1, 2].all fun q => s.headStalled c q
      | .hard | .fault => s.gangQuiet n x
      | _ => false

/-- PREEMPT_DRAIN_END (R49): the operand is the node. The save begins and takes an open time. -/
def execPreemptDrainEnd (s : State) : Host.Outcome State Fault Refusal :=
  let n := s.ev.nat 0
  if s.drained n then
    .next ((s.modNode n fun x => { x with stop := .saving (decide (x.stop ≠ .drain)) }).scheduleOpen 1 .contextSaveComplete (.nats [n]))
  else .next s

/-- The contexts of the cores of a node as their save restores them, with the scratchpad ranges; or the fault of the save. -/
def State.liveCores (s : State) (n : Nat) (x : Node) : List Nat → Except (Nat × Word × Nat) (List (Nat × Core) × List (Nat × Nat))
  | [] => .ok ([], [])
  | c :: t =>
      let k := s.core c
      match s.liveMaps k.asid.toNat x k clusters with
      | .error e => .error (e.1, e.2, c)
      | .ok ms =>
          match s.liveCores n x t with
          | .error e => .error e
          | .ok r => .ok ((c, k.liveState (s.startCore n x k.grank.toNat) ms) :: r.1, liveSpans c ms ++ r.2)

/-- Where the bytes of a save area lie, with their offsets: those that the firmware can write in the context (log entry 57). -/
def State.saveCells (s : State) (asid base n : Nat) : List (Nat × Nat) :=
  (List.range n).filterMap fun i =>
    match s.check unitFirmware asid true .store (base + i) with
    | .error _ => none
    | .ok t => (s.target (t.pa (base + i)) true).map fun a => (i, a)

/-- The addresses of the save area of node `x`. -/
def State.saveArea (s : State) (x : Node) : List (Nat × Nat) :=
  s.saveCells (s.core (x.cores.headD 0)).asid.toNat (nrSave x.record) (Config.saveSize s.freeCtr)

/-- The firmware writes the context of node `x` to its save area (R46, R47): the bytes are free values. -/
def State.writeSave (s : State) (x : Node) : State :=
  { (s.saveArea x).foldl (fun (t : State) e => t.setByte e.2 (Config.saveByte s.freeCtr e.1)) s with freeCtr := s.freeCtr + 1 }

/-- Node `n` is SUSPENDED with its context, which is written to its save area; its cores are released. -/
def State.suspend (s : State) (n : Nat) (x : Node) (saved : List (Nat × Core)) (spans : List (Nat × Nat)) : State :=
  let y := { x with
    st := .suspended, stop := .none, reqAt := none, saved := saved, savedRanges := spans,
    savedMem := s.mem.filter fun e => inSpans spans e.1 }
  let s := s.writeSave x
  let s := match x.faultVa with
    | none => s
    | some _ => s.nodeEvent x 3 x.faultRep
  x.cores.foldl State.freeCore (s.setNode n y)

/-- CONTEXT_SAVE_COMPLETE (R46-R49): the operand is the node. A live map that is invalid or cannot be read faults the node. -/
def execContextSaveComplete (s : State) : Host.Outcome State Fault Refusal :=
  let n := s.ev.nat 0
  match s.node n with
  | none => .next s
  | some x =>
      match x.stop with
      | .saving true =>
          .next (s.suspend n x (x.cores.map fun c => (c, (s.core c).fullState s.cycle))
            (x.cores.map fun c => (scratchBase + c * scratchSize, scratchSize)))
      | .saving false =>
          (match s.liveCores n x x.cores with
           | .error e => .next (s.faultNode n { Report.bare with cause := e.1, core := some e.2.2, info := e.2.1 })
           | .ok r => .next (s.suspend n x r.1 r.2))
      | _ => .next s

/-- HARD_PREEMPTION (R47): the operands are the node and the cycle of its request. It applies unless the save has begun. -/
def execHardPreemption (s : State) : Host.Outcome State Fault Refusal :=
  let n := s.ev.nat 0
  match s.node n with
  | none => .next s
  | some x =>
      if decide (x.st = .preempting) && decide (x.reqAt = some (s.ev.nat 1)) &&
          (match x.stop with | .none | .drain => true | _ => false) then .next (s.stopHard n .hard)
      else .next s

/-- Pre-empted nodes whose cores are all free again become READY (Table 3-3). -/
def State.readyVictims (s : State) : State :=
  s.liveNodes.foldl (fun (s : State) e =>
    if decide (e.2.st = .suspended) && e.2.faultVa.isNone && e.2.cores.all (s.coreFree e.1) then
      s.setNode e.1 { e.2 with st := .ready, readyAt := s.cycle, victimOf := none }
    else s) s

/-- SCRATCHPAD_CLEAR (R54): the operand is the core. Its scratchpad is cleared to zero. -/
def execScratchpadClear (s : State) : Host.Outcome State Fault Refusal :=
  let n := s.ev.nat 0
  if s.clears.contains n then
    .next ({ s with clears := s.clears.filter fun c => decide (c ≠ n),
                    mem := s.mem.filter fun e => !inSpans [(scratchBase + n * scratchSize, scratchSize)] e.1,
                    owners := SMap.set 0 s.owners n 0 })
  else .next s

end Sys2Proof.Machine
end

