-- ==== Sys2Proof/Machine/Sweep.lean ====
section
/-!
DEFINITION. Tensor sweeps: SWP (R194-R200).
-/

namespace Sys2Proof.Machine

/-! ### Iterator records (Table 13-14) -/

/-- base -/
def itBase (r : Nat) : Nat := fld r 0 64
/-- rank -/
def itRank (r : Nat) : Nat := fld r 64 3
/-- ext k -/
def itExt (r k : Nat) : Nat := fld r (8 * (0x10 + 16 * k)) 32
/-- idx k -/
def itIdx (r k : Nat) : Nat := fld r (8 * (0x14 + 16 * k)) 32
/-- stride k, signed -/
def itStride (r k : Nat) : Int := intVal true 64 (fld r (8 * (0x18 + 16 * k)) 64)

/-- The extent used for a dimension: 1 at and above the rank (Table 13-16, row 4). -/
def itExtOr1 (r k : Nat) : Nat := if k < itRank r then itExt r k else 1

/-- Row 1 of Table 13-16: the rank, the reserved fields and the fields at and above the rank; `dst` also checks the index
fields, which a source does not use (R194). -/
def itBad (dst : Bool) (r : Nat) : Bool :=
  decide (itRank r = 0) || decide (itRank r = 7) || decide (fld r 67 61 ≠ 0) || decide (fld r 896 128 ≠ 0) ||
  (List.range 6).any fun k => decide (itRank r ≤ k) &&
    (decide (itExt r k ≠ 0) || decide (itStride r k ≠ 0) || (dst && decide (itIdx r k ≠ 0)))

/-- The dimensions whose extent exceeds 1. -/
def itDims (r : Nat) : List Nat := (List.range (itRank r)).filter fun k => decide (1 < itExt r k)

/-- The bounding range of a record (R196). -/
def itRange (esize r : Nat) : Int × Int :=
  let b : Int := itBase r
  let span (k : Nat) : Int := itStride r k * ((itExt r k : Int) - 1)
  let lo := (itDims r).foldl (fun a k => a + min 0 (span k)) b
  let hi := (itDims r).foldl (fun a k => a + max 0 (span k)) b
  (lo, hi + esize)

/-- Insert a dimension by ascending magnitude of stride, after equal ones. -/
def insertDim (r k : Nat) : List Nat → List Nat
  | [] => [k]
  | j :: t => if (itStride r j).natAbs ≤ (itStride r k).natAbs then j :: insertDim r k t else k :: j :: t

/-- The self-overlap test of R196 over sorted dimensions. -/
def spanOk (r : Nat) : List Nat → Nat → Bool
  | [], _ => true
  | k :: t, span =>
      let a := (itStride r k).natAbs
      decide (span ≤ a) && spanOk r t (span + a * (itExt r k - 1))

/-- Whether a destination self-overlaps. -/
def selfOverlap (esize r : Nat) : Bool := !spanOk r ((itDims r).foldl (fun l k => insertDim r k l) []) esize

/-- The same base, rank, extents and strides (row 8). -/
def itSame (x y : Nat) : Bool :=
  decide (itBase x = itBase y) && decide (itRank x = itRank y) &&
  (List.range 6).all fun k => decide (itExt x k = itExt y k) && decide (itStride x k = itStride y k)

/-! ### The issue checks (Table 13-16) -/

/-- Element size in memory (R195). -/
def swpSize (t : ETy) : Nat := match t with | .f16 | .bf16 => 2 | .f64 => 8 | _ => 4

/-- The source records an operation uses, with their registers. -/
def swpSources (o : SwpOps) : List Nat :=
  match o.op.toNat with
  | 6 => [o.a.toNat]
  | 3 => [o.a.toNat, o.b.toNat, o.c.toNat]
  | _ => [o.a.toNat, o.b.toNat]

/-- TRAPINFO of SHAPE. -/
def shapeInfo (reg reason : Nat) : Word := w64 (reg + 256 * reason)

/-- Row 5: a misaligned base or stride of one record. -/
def swpAlign (esize reg r : Nat) : Option Word :=
  if itBase r % esize ≠ 0 then some (w64 (itBase r))
  else if (itDims r).any fun k => decide (itStride r k % esize ≠ 0) then some (w64 (2 ^ 63 + reg))
  else none

/-- What the checks find: a trap, a sweep with no element, or nothing wrong. -/
inductive SwpCheck where
  | trap (cause : Nat) (info : Word)
  | empty
  | ok
  deriving DecidableEq, Repr

/-- The checks of Table 13-16 over the destination `d` and the sources, as (register, record). -/
def swpCheck (esize : Nat) (d : Nat × Nat) (srcs : List (Nat × Nat)) : SwpCheck :=
  let all := d :: srcs
  let shape (p : Nat × Nat → Bool) (l : List (Nat × Nat)) : Option Nat := (l.find? p).map fun x => x.1
  if itBad true d.2 then .trap cSHAPE (shapeInfo d.1 1)
  else match shape (fun x => itBad false x.2) srcs with
  | some r => .trap cSHAPE (shapeInfo r 1)
  | none =>
    let rk := itRank d.2
    if (List.range rk).any fun k => decide (itExt d.2 k = 0) then .empty
    else if (List.range rk).any fun k => decide (itExt d.2 k ≤ itIdx d.2 k) then .trap cSHAPE (shapeInfo d.1 2)
    else match shape (fun x => (List.range 6).any fun k =>
        decide (itExtOr1 x.2 k ≠ 1) && decide (itExtOr1 x.2 k ≠ itExtOr1 d.2 k)) srcs with
    | some r => .trap cSHAPE (shapeInfo r 3)
    | none =>
      match (all.filterMap fun x => swpAlign esize x.1 x.2) with
      | w :: _ => .trap cALIGN w
      | [] =>
        if selfOverlap esize d.2 then .trap cSHAPE (shapeInfo d.1 4)
        else match shape (fun x =>
            let q := itRange esize x.2
            decide (q.1 < 0) || decide ((2 ^ 48 : Int) < q.2)) all with
        | some r => .trap cSHAPE (shapeInfo r 5)
        | none =>
          let dr := itRange esize d.2
          match shape (fun x =>
              let q := itRange esize x.2
              decide (q.1 < dr.2) && decide (dr.1 < q.2) && !itSame x.2 d.2) srcs with
          | some r => .trap cOVERLAP (w64 r)
          | none => .ok

/-! ### Elements (R197) -/

/-- The modifiers of a sweep as those of a tile instruction: no source modifier. -/
def swpMods (o : SwpOps) : Mods :=
  { negA := false, absA := false, negB := false, absB := false, negC := false, absC := false, clamp := o.clamp,
    scale := o.scale, rnd := o.rnd, reuse := false, ety := o.ety, pred := 0 }

/-- The result of one element from its source patterns, with flags. -/
def swpResult (o : SwpOps) (mode : Rnd) (xs : List Nat) : Nat × FFlags :=
  let m := swpMods o
  let r : RMode := { mode := mode, rbits := 0, nb := 0 }
  let g := fun i => xs.getD i 0
  if o.ety.isFloat then
    let fmt := etyFmt o.ety
    let v := fun i => fmt.value (g i)
    let rdn := decide (mode = .rdn)
    let y := match o.op.toNat with
      | 0 => fpFn .add rdn (v 0) (v 1) (v 2)
      | 1 => fpFn .sub rdn (v 0) (v 1) (v 2)
      | 2 => fpFn .mul rdn (v 0) (v 1) (v 2)
      | 3 => fpFn .fma rdn (v 0) (v 1) (v 2)
      | 4 => fpFn .min rdn (v 0) (v 1) (v 2)
      | 5 => fpFn .max rdn (v 0) (v 1) (v 2)
      | _ => (false, v 0)
    fpFinish fmt m r y.1 y.2
  else
    let v := fun i => intVal (!o.ety.isUnsigned) 32 (g i)
    let y : Int := match o.op.toNat with
      | 0 => v 0 + v 1
      | 1 => v 0 - v 1
      | 2 => v 0 * v 1
      | 3 => v 0 * v 1 + v 2
      | 4 => min (v 0) (v 1)
      | 5 => max (v 0) (v 1)
      | _ => v 0
    (intFinish o.ety m r y, fNone)

/-- The address of element `e` of a source record: broadcast dimensions add nothing. -/
def srcAddr (r : Nat) (e : List Nat) : Word :=
  BitVec.ofInt 64 ((itDims r).foldl (fun a k => a + (e.getD k 0 : Int) * itStride r k) (itBase r : Int))

/-- The address of element `e` of the destination record. -/
def dstAddr (r : Nat) (e : List Nat) : Word :=
  BitVec.ofInt 64 ((List.range (itRank r)).foldl (fun a k => a + (e.getD k 0 : Int) * itStride r k) (itBase r : Int))

/-- The next element, dimension 0 fastest, over the extents; none after the last. -/
def nextElem : List Nat → List Nat → Option (List Nat)
  | [], _ => none
  | _, [] => none
  | x :: xs, n :: ns =>
      if x + 1 < n then some ((x + 1) :: xs)
      else match nextElem xs ns with
        | none => none
        | some t => some (0 :: t)

/-- The values of the sources at element `e`, or the first failure (R198). -/
def swpLoads (esize : Nat) (e : List Nat) : List Nat → State → Except (Nat × Word) (State × List Nat)
  | [], s => .ok (s, [])
  | r :: t, s =>
      let ax := srcAddr r e
      match s.access .load esize ax with
      | .error f => .error f
      | .ok (s, l, pa) =>
          match s.dest l pa true with
          | .error c => .error (c, ax)
          | .ok as =>
              let v := leNat (s.view (as.headD pa) esize)
              match swpLoads esize e t ((s.reach pa esize .read).sendAll l.ent as (.load esize)) with
              | .error f => .error f
              | .ok (s, vs) => .ok (s, v :: vs)

/-- One element: the state with it written and its flags, or its fault. A store that fails at every copy is kept for the
report of R132. -/
def swpElem (o : SwpOps) (mode : Rnd) (d : Nat) (srcs : List Nat) (e : List Nat) (s : State) :
    Except (Nat × Word) (State × FFlags) :=
  let n := swpSize o.ety
  match swpLoads n e srcs s with
  | .error f => .error f
  | .ok (s, xs) =>
      let ad := dstAddr d e
      match s.access .store n ad with
      | .error f => .error f
      | .ok (s, l, pa) =>
          if pteC l.ent then .error (cCNTSTORE, ad)
          else if pteKind l.ent = 3 then .error (cPROT, ad)
          else
            let y := swpResult o mode xs
            let s := s.reach pa n .write
            match s.dest l pa false with
            | .ok as => .ok ((s.storeAll as (enumBytes (leBytes n y.1))).sendAll l.ent as (.store n y.1), y.2)
            | .error c =>
                .ok (s.modMe fun k => { k with mirrRep := match k.mirrRep with | none => some (c, ad) | r => r }, y.2)

/-! ### The sweep -/

/-- The operands a sweep keeps while it runs: the destination and source records it copied at issue, the element to come
and the flags so far. -/
def swpVals (d : Nat) (srcs : List Nat) (e : List Nat) (f : FFlags) : List Nat :=
  f.toNat :: d :: (srcs ++ List.replicate (3 - srcs.length) 0) ++ e

/-- SWP (R195-R199): the checks at issue; elements follow one by one, behind the cluster's own atomic messages (R256). -/
def bodySwp (o : SwpOps) (s : State) : Res :=
  let itReg (n : Nat) : Nat := (SMap.get 0 s.myCore.iregs n).toNat
  let d := itReg o.d.toNat
  let srcs := (swpSources o).map fun n => (n, itReg n)
  match swpCheck (swpSize o.ety) (o.d.toNat, d) srcs with
  | .trap c w => .trap c w
  | .empty => .done (s.result 1 (.iidx o.d.toNat [0, 0, 0, 0, 0, 0]))
  | .ok =>
      .hold (s.landMine.completeOpen 1) (s.blocking (.swp o) 0
        (swpVals d (srcs.map fun x => x.2) ((List.range 6).map fun k => if k < itRank d then itIdx d k else 0) 0))

/-- The element a sweep has reached. -/
def swpAt (h : Hold) : List Nat := h.vals.drop 5

/-- The index fields and flags of a sweep that traps or stops at its element (R198, R200). -/
def sweepSave (o : SwpOps) (h : Hold) (s : State) : State :=
  let d := h.vals.getD 1 0
  let f : FFlags := BitVec.ofNat 5 (h.vals.getD 0 0)
  let s := s.resultOf h.since (.iidx o.d.toNat ((swpAt h).take (itRank d)))
  if f = 0 then s else s.result 1 (.flags f)

/-- The rounding mode of a sweep: SR acts as RNE (R195). -/
def swpMode (s : State) (o : SwpOps) : Rnd := match s.mode o.rnd with | .sr => .rne | m => m

/-- The next element of a sweep that the cluster under way holds: the sweep goes on, completes or faults. -/
def sweepStep (o : SwpOps) (h : Hold) (s : State) : State :=
  let d := h.vals.getD 1 0
  let srcs := (h.vals.drop 2).take (swpSources o).length
  match swpElem o (swpMode s o) d srcs (swpAt h) s with
  | .error f =>
      if f.1 = cOrder then s.schedule (s.cycle + 1) .blockingCompletion (.nats [s.curCore, s.curCl, h.since])
      else (sweepSave o h s).trapHeld h f.1 f.2
  | .ok (s, f) =>
      let fl := f ||| BitVec.ofNat 5 (h.vals.getD 0 0)
      let s := s.modMyCore fun k => { k with lastStep := s.cycle }
      match nextElem ((swpAt h).take (itRank d)) ((List.range (itRank d)).map fun k => itExt d k) with
      | some e =>
          let e := e ++ List.replicate (6 - e.length) 0
          let h' := { h with vals := swpVals d srcs e fl }
          (s.modMe fun c => { c with act := .waiting h' }).scheduleOpen 1 .blockingCompletion
            (.nats [s.curCore, s.curCl, h.since])
      | none =>
          let s := s.resultOf h.since (.iidx o.d.toNat [0, 0, 0, 0, 0, 0])
          (if fl = 0 then s else s.result 1 (.flags fl)).release h

/-- The step of SWP. -/
def execSwp (o : SwpOps) (s : State) : Host.Outcome State Fault Refusal := s.issue (.swp o) (bodySwp o)

end Sys2Proof.Machine
end

