-- ==== Sys2Proof/Machine/System.lean ====
section
/-!
DEFINITION. QSYNC, FENCE, EXIT, SAFE, SRD, SWR, TRAP, BKPT, TRET, HALT, NOP and SPGUARD (R147, R148, R154-R159, R163).
-/

namespace Sys2Proof.Machine

/-! ### System registers (Table 5-3) -/

/-- TLOCK: bit n is the lock bit of Tn (R63). -/
def Core.tlock (k : Core) : Nat :=
  (List.range 32).foldl (fun a t => a + (if SMap.get 0 k.locks t = 0 then 0 else 2 ^ t)) 0

/-- Who may read and write a register. -/
inductive SysAccess where
  | unlisted
  /-- Readable in both modes, writable in supervisor mode or in both. -/
  | reg (userRead userWrite superWrite : Bool)
  deriving DecidableEq, Repr

/-- The access column of Table 5-3. -/
def sysAccess (n : Nat) : SysAccess :=
  if n = 0 then .reg true true true
  else if n ≤ 9 then .reg false false true
  else if 0x10 ≤ n ∧ n ≤ 0x12 then .reg true false false
  else if n = 0x13 ∨ n = 0x15 then .reg false false false
  else if n = 0x14 then .reg false false true
  else if n = 0x16 ∨ n = 0x17 then .reg true false false
  else if 0x20 ≤ n ∧ n ≤ 0x26 then .reg false false true
  else if n = 0x30 ∨ n = 0x31 then .reg true false true
  else .unlisted

/-- The value of system register `n` of the cluster under way. -/
def State.sysRead (s : State) (n : Nat) : Word :=
  let c := s.me
  let k := s.myCore
  match n with
  | 0x000 => c.status
  | 0x001 => c.trapPc
  | 0x002 => c.trapCause
  | 0x003 => c.trapInfo
  | 0x004 => c.trapStat
  | 0x005 => c.tvec
  | 0x006 | 0x007 | 0x008 | 0x009 => SMap.get 0 c.sscr (n - 6)
  | 0x010 => w64 s.curCl
  | 0x011 => k.grank.zeroExtend 64
  | 0x012 => w64 (k.aCores.toNat + 256 * k.fCores.toNat)
  | 0x013 => w64 s.curCore
  | 0x014 => k.asid.zeroExtend 64
  | 0x015 => k.vifn.zeroExtend 64
  | 0x016 => w64 s.cycle + SMap.get 0 s.cycleSkew s.curCore
  | 0x017 => w64 k.tlock
  | 0x020 => SMap.get 0 c.lstart 0
  | 0x021 => SMap.get 0 c.lend 0
  | 0x022 => SMap.get 0 c.lcount 0
  | 0x023 => SMap.get 0 c.lstart 1
  | 0x024 => SMap.get 0 c.lend 1
  | 0x025 => SMap.get 0 c.lcount 1
  | 0x026 => c.ldepth.zeroExtend 64
  | 0x030 => c.srstate.zeroExtend 64
  | 0x031 => k.tagSnap.zeroExtend 64
  | _ => 0

/-- The bits of a register that are reserved or hold a value it refuses (R72, Table 5-3): STATUS[8] is read-only and its
written value is ignored (R156). -/
def sysRefuses (n : Nat) (v : Nat) : Bool :=
  match n with
  | 0x000 => decide (2 ^ 9 ≤ v)
  | 0x002 => decide (2 ^ 8 ≤ v)
  | 0x004 => decide (2 ^ 6 ≤ v)
  | 0x005 => decide (v % 4 ≠ 0)
  | 0x014 => decide (2 ^ 16 ≤ v)
  | 0x026 => decide (3 ≤ v)
  | 0x030 => decide (2 ^ 32 ≤ v)
  | 0x031 => decide (2 ^ 16 ≤ v)
  | _ => false

/-- Write system register `n` of the cluster under way; a core's registers are written at the end of the cycle, so that
R60 orders the writes of its clusters. -/
def State.sysWrite (s : State) (n : Nat) (v : Word) : State :=
  match n with
  | 0x000 => s.modMe fun c => { c with flags := v.truncate 5, rnd := (v >>> 5).truncate 3 }
  | 0x001 => s.modMe fun c => { c with trapPc := v }
  | 0x002 => s.modMe fun c => { c with trapCause := v }
  | 0x003 => s.modMe fun c => { c with trapInfo := v }
  | 0x004 => s.modMe fun c => { c with trapStat := v }
  | 0x005 => s.modMe fun c => { c with tvec := v }
  | 0x006 | 0x007 | 0x008 | 0x009 => s.modMe fun c => { c with sscr := SMap.set 0 c.sscr (n - 6) v }
  | 0x014 => s.result 1 (.asid (v.truncate 16))
  | 0x020 => s.modMe fun c => { c with lstart := SMap.set 0 c.lstart 0 v }
  | 0x021 => s.modMe fun c => { c with lend := SMap.set 0 c.lend 0 v }
  | 0x022 => s.modMe fun c => { c with lcount := SMap.set 0 c.lcount 0 v }
  | 0x023 => s.modMe fun c => { c with lstart := SMap.set 0 c.lstart 1 v }
  | 0x024 => s.modMe fun c => { c with lend := SMap.set 0 c.lend 1 v }
  | 0x025 => s.modMe fun c => { c with lcount := SMap.set 0 c.lcount 1 v }
  | 0x026 => s.modMe fun c => { c with ldepth := v.truncate 2 }
  | 0x030 => s.modMe fun c => { c with srstate := srStore (v.truncate 32) }
  | 0x031 => s.result 1 (.tagAlloc (v.truncate 16))
  | _ => s

/-- SRD (R156), latency 3. -/
def bodySrd (o : SysOps) (s : State) : Res :=
  match sysAccess o.num.toNat with
  | .unlisted => .trap cILLFLD 0
  | .reg ur _ _ =>
      if !s.me.super && !ur then .trap cPRIV 0 else .done (s.resultX 3 o.rd (s.sysRead o.num.toNat))

/-- SWR (R156): the loop-end step of this instruction uses the loop registers as they stood before it. -/
def bodySwr (o : SysOps) (s : State) : Res :=
  let n := o.num.toNat
  let v := s.x o.rd
  match sysAccess n with
  | .unlisted => .trap cILLFLD 0
  | .reg ur uw sw =>
      if !s.me.super && !ur then .trap cPRIV 0
      else if !(if s.me.super then sw else uw) then .trap cILLFLD 0
      else if sysRefuses n v.toNat then .trap cILLFLD 0
      else .ends (s.markIssued.advance.sysWrite n v)

/-! ### Boundaries and fences -/

/-- The QSYNC wait. -/
def State.qsyncHold (s : State) : Hold := { s.blocking .qsync 0 [] with kind := .qsync }

/-- QSYNC (R147). -/
def bodyQsync (s : State) : Res :=
  withReports (fun s =>
    let s := s.modMe fun c => { c with arrived := true }
    if s.atBoundary s.curCore then .done (s.crossBoundary s.curCore) else .hold s s.qsyncHold) s

/-- Whether the accesses that a FENCE orders have been performed (R148): loads and those of atomics for acquire, stores and
atomics for release, every access for full. -/
def State.fenceMet (s : State) (o : FenceOps) : Bool :=
  match o.flavour.toNat with
  | 1 => !s.fillsPending s.curCore s.curCl && !s.agenda.any s.mineMessage
  | 2 => s.me.posted.isEmpty
  | _ => s.accessesDone s.curCore s.curCl

/-- The pending report of a failed store, which a FENCE of system scope takes (R132): cause, TRAPINFO and the cluster
without it. -/
def Cluster.storeReport (c : Cluster) : Option (Nat × Word × Cluster) :=
  c.mirrRep.map fun r => (r.1, r.2, { c with mirrRep := none })

/-- FENCE (R148). -/
def bodyFence (o : FenceOps) (s : State) : Res :=
  match (if o.scope = 4 then s.me.storeReport else none) with
  | some r => .trapWith (s.modMe fun _ => r.2.2) r.1 r.2.1
  | none =>
      if s.fenceMet o && decide (o.scope ≠ 4 ∨ s.me.posted = []) then .done s
      else .hold s { s.blocking (.fence o) 0 [] with kind := .fence }

/-- The end of a FENCE wait of the cluster under way; a store failure that has become pending is taken first. -/
def fenceStep (o : FenceOps) (h : Hold) (s : State) : State :=
  match (if o.scope = 4 then s.me.storeReport else none) with
  | some r => (s.modMe fun _ => r.2.2).trapHeld h r.1 r.2.1
  | none => if s.fenceMet o && decide (o.scope ≠ 4 ∨ s.me.posted = []) then s.release h else s

/-! ### Leaving -/

/-- EXIT (R154). -/
def bodyExit (s : State) : Res :=
  withReports (fun s =>
    .ends ((s.markIssued.modMe fun c => { c with act := .exited }).modMyCore fun k => { k with progress := s.cycle })) s

/-- The node of the core under way, while a pre-emption request is pending. -/
def State.preempting (s : State) : Option (Nat × Node) :=
  match s.myCore.node with
  | none => none
  | some n => match s.node n with
    | some x => if x.st = .preempting then some (n, x) else none
    | none => none

/-- livemap_table of a node record (Table 3-2). -/
def Node.livemap (x : Node) : Nat := fld x.record 256 64

/-- SAFE (R46, R48): with a request pending the cluster stops before it and records the index; with no live-map table, hard
pre-emption applies at once. -/
def bodySafe (s : State) : Res :=
  match s.preempting with
  | none => .done s
  | some (n, x) =>
      if x.livemap = 0 then
        .ends ((if x.stop = .none then s.stopHard n .hard else s).modMe fun c => { c with act := .running, issuedAt := s.cycle + 1 })
      else .ends (s.modMe fun c => { c with act := .atSafe (s.ir % 65536), issuedAt := s.cycle + 1 })

/-! ### Traps -/

/-- TRAP (R157). -/
def bodyTrap (s : State) : Res := .trapAfter s cSWTRAP (w64 (s.ir % 65536))

/-- BKPT (R157). -/
def bodyBkpt (s : State) : Res := .trap cBKPT (w64 (s.ir % 65536))

/-- TRET (R158). -/
def bodyTret (s : State) : Res :=
  if s.me.trapPc.toNat % 4 ≠ 0 then .trap cALIGN s.me.trapPc else .ends (s.markIssued.modMe Cluster.leaveTrap)

/-- HALT (R159): with a debugger attached it halts the core, and this cluster once it has completed. -/
def bodyHalt (s : State) : Res :=
  if s.dbgen then .ends ((s.markIssued.advance.modMe fun c => { c with act := .halted false }).haltCore s.curCore) else .done s

/-- NOP (R159). -/
def bodyNop (s : State) : Res := .done s

/-! ### Guards -/

/-- SPGUARD (R163). -/
def bodySpguard (o : GuardOps) (s : State) : Res :=
  let ea := s.x o.ra
  let n := (s.x o.rb).toNat
  match s.access .load 256 ea with
  | .error e => Res.denied e
  | .ok (s, _, pa) =>
      if !s.own pa then .trap cPROT ea
      else
        let g := (pa - scratchBase) % scratchSize / 256
        if 16384 < g + n then .trap cPROT ea
        else if n = 0 then .done s
        else .done (s.result 1 (.guard g n o.mark))

/-! ### Steps -/

/-- The step of SRD. -/
def execSrd (o : SysOps) (s : State) : Host.Outcome State Fault Refusal := s.issue (.srd o) (bodySrd o)
/-- The step of SWR. -/
def execSwr (o : SysOps) (s : State) : Host.Outcome State Fault Refusal := s.issue (.swr o) (bodySwr o)
/-- The step of QSYNC. -/
def execQsync (s : State) : Host.Outcome State Fault Refusal := s.issue .qsync bodyQsync
/-- The step of FENCE. -/
def execFence (o : FenceOps) (s : State) : Host.Outcome State Fault Refusal := s.issue (.fence o) (bodyFence o)
/-- The step of EXIT. -/
def execExit (s : State) : Host.Outcome State Fault Refusal := s.issue .exit bodyExit
/-- The step of SAFE. -/
def execSafe (s : State) : Host.Outcome State Fault Refusal := s.issue .safe bodySafe
/-- The step of TRAP. -/
def execTrap (s : State) : Host.Outcome State Fault Refusal := s.issue .trap bodyTrap
/-- The step of BKPT. -/
def execBkpt (s : State) : Host.Outcome State Fault Refusal := s.issue .bkpt bodyBkpt
/-- The step of TRET. -/
def execTret (s : State) : Host.Outcome State Fault Refusal := s.issue .tret bodyTret
/-- The step of HALT. -/
def execHalt (s : State) : Host.Outcome State Fault Refusal := s.issue .halt bodyHalt
/-- The step of NOP. -/
def execNop (s : State) : Host.Outcome State Fault Refusal := s.issue .nop bodyNop
/-- The step of SPGUARD. -/
def execSpguard (o : GuardOps) (s : State) : Host.Outcome State Fault Refusal := s.issue (.spguard o) (bodySpguard o)

end Sys2Proof.Machine
end

