-- ==== Sys2Proof/Machine/Complete.lean ====
section
/-!
DEFINITION. The ends of waits: DLAUNCH (R153), completion of blocking instructions (R59), acknowledgement of posted stores (R132),
asynchronous events (R67, R68), fetch waits (R371) and decoding faults (R87).
-/

namespace Sys2Proof.Machine

/-! ### DLAUNCH -/

/-- DLAUNCH (R153): it completes no later than 2^19 cycles after issue. -/
def bodyDlaunch (o : Reg2) (s : State) : Res :=
  match s.access .load 32 (s.x o.ra) with
  | .error e => Res.denied e
  | .ok (s, _, _) =>
      let t := min (max 1 s.time) (2 ^ 19)
      .hold (s.landMine.schedule (s.cycle + t) .blockingCompletion (.nats [s.curCore, s.curCl, s.cycle])).useTime
        (s.blocking (.dlaunch o) (s.x o.ra) [o.rd.toNat])

/-- The context under which a core launches: that of its node's graph. -/
def State.launchCtx (s : State) : Nat :=
  match s.coreNode s.curCore with
  | none => 0
  | some x => match s.graph x.graph with | some g => g.ctx | none => 0

/-- Completion of DLAUNCH: the checks, the status and, on acceptance, the graph. -/
def launchDone (h : Hold) (s : State) : State :=
  let v := s.myCore.vifn.toNat
  let rd := BitVec.ofNat 5 (h.vals.getD 0 0)
  match s.checkGraph v s.myCore.asid.toNat h.ea.toNat with
  | .error e => (s.resultX 1 rd (w64 (e.1 + e.2 * 65536))).release h
  | .ok p =>
      let r := s.enterGraph v s.launchCtx p none
      ((r.1.settleGraph r.2.1).resultX 1 rd 0).release h

/-! ### Blocking instructions -/

/-- The completion of a wait that gives a state or a cause, with the effective address as TRAPINFO. -/
def State.closeWait (s : State) (h : Hold) : Except Nat State → State
  | .ok t => t.release h
  | .error c => s.trapHeld h c h.ea

/-- The completion of a wait that gives a state or a trap. -/
def State.closeTrap (s : State) (h : Hold) : Except (Nat × Word) State → State
  | .ok t => t.release h
  | .error e => s.trapHeld h e.1 e.2

/-- The other clusters that wait in the same wide word (R62, R274). -/
def State.mates (s : State) (h : Hold) : List Nat :=
  if h.sync then clusters.filter fun c =>
    decide (c ≠ s.curCl) && (match (s.cluster s.curCore c).hold? with
      | some g => decide (g.instr = h.instr ∧ g.since = h.since) && g.sync
      | none => false)
  else []

/-- The completion of a distribution instruction, which all four clusters issued as one. -/
def State.closeAll (s : State) (h : Hold) (r : Except (Nat × Word) State) : State :=
  let t := s.closeTrap h r
  (s.mates h).foldl (fun (t : State) c =>
    let u := { t with curCl := c }
    let v := match r with
      | .ok _ => u.release h
      | .error e => u.trapHeld h e.1 e.2
    { v with curCl := s.curCl }) t

/-- What happens when the access or the wait of the instruction that the cluster under way holds may be complete. -/
def complete (h : Hold) (s : State) : State :=
  match h.instr with
  | .ldB _ | .ldBu _ | .ldH _ | .ldHu _ | .ldW _ | .ldWu _ | .ldD _ | .lda _ => s.closeWait h (loadDone h s)
  | .aadd _ | .amin _ | .amax _ | .aminu _ | .amaxu _ | .aand _ | .aor _ | .axor _ | .aswp _ | .acas _ | .afadd _ =>
      if h.vals = [1] then s else s.closeWait h (atomDone h s)
  | .creadRemote _ | .creadPage _ => (creadDone h s).release h
  | .vld o => s.closeTrap h (vldDone o h s)
  | .vldg o => s.closeTrap h (vldgDone o h s)
  | .ild o => s.closeTrap h (ildDone o h s)
  | .sld o => s.closeTrap h (sldDone o h s)
  | .cbld _ => s.closeTrap h (cbldDone h s)
  | .dld o => s.closeAll h (dldDone o h s)
  | .swp o => sweepStep o h s
  | .fence o => fenceStep o h s
  | .qsync => if s.atBoundary s.curCore then s.crossBoundary s.curCore else s
  | .eflush o =>
      let m := o.mask.toNat
      if s.myCore.flushed (h.vals.drop 1) then (s.modMyCore fun k => k.flushTokens m).release h else s
  | .hptcfg _ => (hptDone h s).release h
  | .ditswpSwap _ | .ditswpSet _ | .ditswpFree _ => ditStep h s
  | .rxopen _ => if h.openReady then rxopenStep h s else markOpen h s
  | .dlaunch _ => launchDone h s
  | _ => s

/-- BLOCKING_COMPLETION (R59): the operands are the core, the cluster and the cycle in which its wait began. -/
def execBlockingCompletion (s : State) : Host.Outcome State Fault Refusal :=
  let s := { s with curCore := s.ev.nat 0, curCl := s.ev.nat 1, hitSeen := [] }
  match s.me.hold? with
  | none => .next s
  | some h => if h.since = s.ev.nat 2 then .next (complete h s) else .next s

/-- POSTED_STORE_ACK (R132, R244): the operands are the core, the cluster and the store's number. The first failure is kept for a
report. -/
def execPostedStoreAck (s : State) : Host.Outcome State Fault Refusal :=
  let id := s.ev.nat 2
  .next (s.modCluster (s.ev.nat 0) (s.ev.nat 1) fun c =>
    match c.posted.find? fun p => decide (p.id = id) with
    | none => c
    | some p =>
        let c := { c with posted := c.posted.filter fun q => decide (q.id ≠ id) }
        if p.fail ≠ 0 ∧ c.mirrRep = none then { c with mirrRep := some (p.fail, p.ea) } else c)

/-! ### Asynchronous events -/

/-- TRAPINFO of WATCHDOG (Table 3-5). -/
def State.waitInfo (s : State) (n : Nat) (h : Hold) : Word :=
  let w (kind v : Nat) : Word := w64 (kind * 2 ^ 60 + v)
  match h.kind with
  | .cwait (.slot _ k) => w 0 k
  | .cwait (.page _ va) => w 1 (va % 2 ^ 48)
  | .unmapped (.slot _ k) _ => w 0 k
  | .unmapped (.page _ va) _ => w 1 (va % 2 ^ 48)
  | .queue q => w 2 q
  | .lock t => w 3 t
  | .rendezvous =>
      w 4 (clusters.foldl (fun a c => match (s.cluster n c).hold? with
        | some g => if g.kind = .rendezvous then a + 2 ^ c else a
        | none => a) 0)
  | .inbox _ r => w 5 r
  | .engQueue q => w 6 q
  | .relay ch k => w 7 (ch + 256 * k)
  | .fetch b => w 8 (64 * b)
  | .order ea => w 8 (ea % 2 ^ 48)
  | _ => w 8 (h.ea.toNat % 2 ^ 48)

/-- Whether an instruction is a DLD, which the four clusters of a core hold together. -/
def isDld : Instr → Bool
  | .dld _ => true
  | _ => false

/-- Whether the instruction that a cluster of core `n` holds has a result with a fixed latency in flight (Table 5-2): an atomic or a
record load of the own scratchpad. -/
def Hold.fixed (h : Hold) (n : Nat) : Bool :=
  let own (l : List Nat) : Bool := (Piece.unpack l).all fun p => decide (scratchCore p.pa = some n)
  match h.instr with
  | .aadd _ | .amin _ | .amax _ | .aminu _ | .amaxu _ | .aand _ | .aor _ | .axor _ | .aswp _ | .acas _ | .afadd _ =>
      decide (h.kind = .blocking) && decide (h.vals.head? = some 0)
  | .ild _ | .sld _ | .cbld _ => decide (h.kind = .blocking) && own h.vals
  | .dld _ => decide (h.kind = .blocking) && own (h.vals.drop 1)
  | _ => false

/-- Whether cluster `c` of core `n` is at a quiet point for an event of a kind (R67): none of its fixed-latency results is in flight. For
the halt of a DLD, which four clusters hold as one, that goes for all of them. -/
def State.quiet (s : State) (n c kind : Nat) : Bool :=
  let k := s.core n
  match (k.cluster c).hold? with
  | none => !k.inflight.any fun l => decide (l.cl = c)
  | some h =>
      !h.fixed n &&
        (if kind ≠ 2 ∧ isDld h.instr then k.inflight.all fun l => decide (4 ≤ l.cl)
         else !(k.inflight.any fun l => decide (l.cl = c)))

/-- A halted cluster: whether its part of a wide word has issued and is to be performed alone (R61). -/
def Cluster.halt (c : Cluster) : Cluster :=
  let wide := c.wideIssued || (match c.hold? with
    | some h => h.sync && !isDld h.instr && (match h.kind with
        | .rendezvous | .lock _ | .order _ | .trapEntry | .fetch _ => false
        | _ => true)
    | none => false)
  { c with act := .halted wide, event := none }

/-- The access that the cluster under way holds and that has not been performed is given up: an atomic message on its way. The
instruction issues again after the event (log entry 22). -/
def State.giveUp (s : State) : State :=
  { s with agenda := s.agenda.filter fun d =>
      !(decide (d.row = .atomicMessageArrival) && decide (d.args.nat 0 = s.curCore ∧ d.args.nat 1 = s.curCl ∧ d.args.nat 8 ≠ 0)) }

/-- The event of the cluster under way is taken: a halt, or the trap WATCHDOG. A sweep keeps its place (R199), and a cluster in QSYNC
has not executed it (R147). -/
def State.takeEvent (s : State) (kind : Nat) (forced : Bool) : State :=
  let s := match s.me.hold? with
    | some h => (match h.instr with | .swp o => sweepSave o h s | _ => s.giveUp)
    | none => s
  let s := s.modMe fun c => { c with arrived := c.arrived && !(match c.hold? with | some h => decide (h.kind = .qsync) | none => false) }
  if kind = 2 then
    let s := s.modMe fun c => { c with event := none }
    match s.me.hold? with
    | some h => s.trapAt s.curCore s.curCl cWATCHDOG (s.waitInfo s.curCore h) s.me.pc h.sync forced
    | none => s.trapAt s.curCore s.curCl cWATCHDOG 0 s.me.pc false forced
  else s.modMe fun c => { c.halt with trapStat := if forced then c.trapStat ||| 8 else c.trapStat }

/-- ASYNC_EVENT_TAKEN (R67): the operands are the core and the cluster. -/
def execAsyncEventTaken (s : State) : Host.Outcome State Fault Refusal :=
  let s := { s with curCore := s.ev.nat 0, curCl := s.ev.nat 1 }
  match s.me.event with
  | none => .next s
  | some e => if s.me.live && s.quiet s.curCore s.curCl e.1 then .next (s.takeEvent e.1 false) else .next s

/-- Whether an event has been pending for 65,536 cycles (R68): the cluster issues nothing. -/
def Cluster.forced (c : Cluster) (cycle : Nat) : Bool :=
  match c.event with
  | some e => decide (e.2 + 65536 ≤ cycle)
  | none => false

/-- FORCED_QUIET_POINT (R68): the operands are the core and the cluster. Once its results have landed it takes the event. -/
def execForcedQuietPoint (s : State) : Host.Outcome State Fault Refusal :=
  let s := { s with curCore := s.ev.nat 0, curCl := s.ev.nat 1 }
  match s.me.event with
  | none => .next s
  | some e =>
      if s.me.forced s.cycle && s.me.live && s.quiet s.curCore s.curCl e.1 then .next (s.takeEvent e.1 true) else .next s

/-! ### Fetch -/

/-- DECODING_FAULT (R87): the operands are the core, the cluster, the cause and TRAPINFO. -/
def execDecodingFault (s : State) : Host.Outcome State Fault Refusal :=
  let s := { s with curCore := s.ev.nat 0, curCl := s.ev.nat 1 }
  .next (s.trap (s.ev.nat 2) (w64 (s.ev.nat 3)))

/-- The burst of the 64-byte block that a fetch brings. -/
def State.fetchTraffic (s : State) (n c va : Nat) : State :=
  match s.check (unitCore n) (s.core n).asid.toNat (s.cluster n c).super .fetch va with
  | .ok t => s.traffic (t.pa (va / 64 * 64)) 64 .read
  | .error _ => s

/-- FETCH_BLOCK_ARRIVAL (R371): the operands are the core and the cluster. -/
def execFetchBlockArrival (s : State) : Host.Outcome State Fault Refusal :=
  let s := { s with curCore := s.ev.nat 0, curCl := s.ev.nat 1 }
  match s.me.hold? with
  | none => .next s
  | some h =>
      match h.kind with
      | .fetch b =>
          let va := max s.me.pc.toNat (64 * b)
          (match s.fetchWord s.curCore s.curCl va with
           | .error e => .next ({ s with ir := 0 }.trap e (w64 va))
           | .ok r => .next ((r.1.fetchTraffic s.curCore s.curCl va).modMe fun c => { c with act := .running, block := some b }))
      | _ => .next s

/-! ### Step -/

/-- The step of DLAUNCH. -/
def execDlaunch (o : Reg2) (s : State) : Host.Outcome State Fault Refusal := s.issue (.dlaunch o) (bodyDlaunch o)

end Sys2Proof.Machine
end

