-- ==== Sys2Proof/Machine/Control.lean ====
section
/-!
DEFINITION. Branches (R136), jumps (R137) and hardware loops (R138).
-/

namespace Sys2Proof.Machine

/-- A branch: taken when `c` holds (R136). -/
def branch (c : Bool) (off : BitVec 12) (s : State) : Res :=
  if c then .goto s (s.branchTarget off) else .done s

/-- A loop instruction with its count (R138). -/
def loopBody (n : Word) (off : BitVec 12) (s : State) : Res :=
  let c := s.me
  let last := c.pc + 4 * off.zeroExtend 64
  if n = 0 then
    match s.fetchWord s.curCore s.curCl last.toNat with
    | .error e => .ends ((s.markIssued.modMe fun k => { k with pc := last }).trap e last)
    | .ok (s, w) =>
        match wordLen w with
        | 0 => .ends ((s.markIssued.modMe fun k => { k with pc := last }).trap cILLEN 0)
        | l => .goto s (last + w64 l)
  else if c.ldepth = 2 then .trap cLOOPOVF c.pc
  else
    let e := c.ldepth.toNat
    .done (s.modMe fun k =>
      { k with lstart := SMap.set 0 k.lstart e (k.pc + 4), lend := SMap.set 0 k.lend e last,
               lcount := SMap.set 0 k.lcount e n, ldepth := k.ldepth + 1 })

/-- BEQ (R136). -/
def bodyBeq (o : Br) (s : State) : Res :=
  branch (decide (s.x o.ra = s.x o.rb)) o.off s

/-- The step of BEQ. -/
def execBeq (o : Br) (s : State) : Host.Outcome State Fault Refusal :=
  s.issue (.beq o) (bodyBeq o)

/-- BNE (R136). -/
def bodyBne (o : Br) (s : State) : Res :=
  branch (decide (s.x o.ra ≠ s.x o.rb)) o.off s

/-- The step of BNE. -/
def execBne (o : Br) (s : State) : Host.Outcome State Fault Refusal :=
  s.issue (.bne o) (bodyBne o)

/-- BLT (R136). -/
def bodyBlt (o : Br) (s : State) : Res :=
  branch ((s.x o.ra).slt (s.x o.rb)) o.off s

/-- The step of BLT. -/
def execBlt (o : Br) (s : State) : Host.Outcome State Fault Refusal :=
  s.issue (.blt o) (bodyBlt o)

/-- BGE (R136). -/
def bodyBge (o : Br) (s : State) : Res :=
  branch (!(s.x o.ra).slt (s.x o.rb)) o.off s

/-- The step of BGE. -/
def execBge (o : Br) (s : State) : Host.Outcome State Fault Refusal :=
  s.issue (.bge o) (bodyBge o)

/-- BLTU (R136). -/
def bodyBltu (o : Br) (s : State) : Res :=
  branch (decide (s.x o.ra < s.x o.rb)) o.off s

/-- The step of BLTU. -/
def execBltu (o : Br) (s : State) : Host.Outcome State Fault Refusal :=
  s.issue (.bltu o) (bodyBltu o)

/-- BGEU (R136). -/
def bodyBgeu (o : Br) (s : State) : Res :=
  branch (!decide (s.x o.ra < s.x o.rb)) o.off s

/-- The step of BGEU. -/
def execBgeu (o : Br) (s : State) : Host.Outcome State Fault Refusal :=
  s.issue (.bgeu o) (bodyBgeu o)

/-- JMP (R137). -/
def bodyJmp (o : JmpOps) (s : State) : Res :=
  .goto s (s.branchTarget o.off)

/-- The step of JMP. -/
def execJmp (o : JmpOps) (s : State) : Host.Outcome State Fault Refusal :=
  s.issue (.jmp o) (bodyJmp o)

/-- JAL (R137). -/
def bodyJal (o : JalOps) (s : State) : Res :=
  .goto (s.resultX 1 o.rd (s.me.pc + 4)) (s.branchTarget o.off)

/-- The step of JAL. -/
def execJal (o : JalOps) (s : State) : Host.Outcome State Fault Refusal :=
  s.issue (.jal o) (bodyJal o)

/-- JR (R89, R137): X[ra] is read before the link is written. -/
def bodyJr (o : Imm) (s : State) : Res :=
  let t := s.x o.ra + immS o.imm
  if t.toNat % 4 ≠ 0 then .trap cALIGN t else .goto (s.resultX 1 o.rd (s.me.pc + 4)) t

/-- The step of JR. -/
def execJr (o : Imm) (s : State) : Host.Outcome State Fault Refusal :=
  s.issue (.jr o) (bodyJr o)

/-- LOOP (R138). -/
def bodyLoop (o : LoopOps) (s : State) : Res :=
  loopBody (s.x o.ra) o.off s

/-- The step of LOOP. -/
def execLoop (o : LoopOps) (s : State) : Host.Outcome State Fault Refusal :=
  s.issue (.loop o) (bodyLoop o)

/-- LOOPI (R138). -/
def bodyLoopi (o : LoopiOps) (s : State) : Res :=
  loopBody (o.count.zeroExtend 64) o.off s

/-- The step of LOOPI. -/
def execLoopi (o : LoopiOps) (s : State) : Host.Outcome State Fault Refusal :=
  s.issue (.loopi o) (bodyLoopi o)

end Sys2Proof.Machine
end

