-- ==== Sys2Proof/Machine/Fabric.lean ====
section
/-!
DEFINITION. The fabric (R244, R335-R342, R347, R367): the packets of peer accesses in the mesh, at the switches and on the links, the
egress and the ingress, lost peers and links, and the event log. Other packages are known only by what their aperture addresses hold
and by the packets that come from them (log entries 5, 69).
-/

namespace Sys2Proof.Machine

/-! ### The event log (R367) -/

/-- Record an event: kind 1 failover, 2 link down, 3 peer lost; the die, the package of the other side and the interface, 0xFF
for link events. -/
def State.logFabric (s : State) (kind die pkg vi : Nat) : State :=
  let e := s.cycle % 2 ^ 64 + kind * 2 ^ 64 + die * 2 ^ 72 + pkg * 2 ^ 80 + vi * 2 ^ 96
  { s with flog := SMap.set 0 s.flog (s.flogCnt % 256) e, flogCnt := (s.flogCnt + 1) % 2 ^ 32 }

/-! ### The torus (R335) -/

/-- The extents of the torus. -/
def State.extent (s : State) (dim : Nat) : Nat := (match dim with | 0 => s.torus.1 | 1 => s.torus.2.1 | _ => s.torus.2.2) + 1

/-- A coordinate of a package number. -/
def pkgCoord (p dim : Nat) : Nat := p / 16 ^ dim % 16

/-- Whether direction `d` (0 +X, 1 −X, 2 +Y, 3 −Y, 4 +Z, 5 −Z) is productive toward package `dst`. -/
def State.productive (s : State) (dst d : Nat) : Bool :=
  let n := s.extent (d / 2)
  let off := (pkgCoord dst (d / 2) + n - pkgCoord s.pkg (d / 2) % n) % n
  decide (off ≠ 0) && (if d % 2 = 0 then decide (2 * off ≤ n) else decide (n ≤ 2 * off))

/-! ### The switches (R23, R338) -/

/-- Whether packet `a` ranks before packet `b`: higher age, then lower source package, source die and sequence number. -/
def Packet.before (a b : Packet) : Bool :=
  let x := a.req
  let y := b.req
  decide (b.age < a.age) || (decide (a.age = b.age) && (decide (x.src < y.src) ||
    (decide (x.src = y.src) && (decide (x.die < y.die) || (decide (x.die = y.die) && decide (x.seq < y.seq))))))

/-- Packets in rank order. -/
def rankPackets (l : List Packet) : List Packet :=
  l.foldl (fun r p => r.takeWhile (fun q => q.before p) ++ [p] ++ r.dropWhile (fun q => q.before p)) []

/-- The ports of the switch of die `d`: its Abzal link, by the direction that Table 1-1 gives the die, unless it is down (R342); and
8 + e the way to die `e` (log entry 5). -/
def State.diePorts (s : State) (d : Nat) : List Nat :=
  (if s.linksDown.contains d then [] else [d]) ++ ((List.range 6).filter fun e => decide (e ≠ d)).map fun e => 8 + e

/-- Whether a port of the switch of die `d` is productive for a packet: its link in a productive direction, or the way to the die that
carries such a link, or to its own die. -/
def State.goodPort (s : State) (p : Packet) (port : Nat) : Bool :=
  if p.req.dst = s.pkg then decide (port = 8 + p.req.dstDie)
  else
    let d := if port < 8 then port else port - 8
    s.productive p.req.dst d && !s.linksDown.contains d

/-- One of some ports: which one the spec leaves open (log entry 9). -/
def State.pickPort (s : State) (ports : List Nat) : Nat × State :=
  (ports.getD ((Config.freeWord s.freeCtr).toNat % ports.length) 0, { s with freeCtr := s.freeCtr + 1 })

/-- Change packet `id`. -/
def State.modPacket (s : State) (id : Nat) (f : Packet → Packet) : State :=
  { s with packets := s.packets.map fun q => if q.id = id then f q else q }

/-- A packet leaves the switch by a port; its age rises, and it leaves the escape channel with the die (R337, R338). -/
def Packet.leave (p : Packet) (port : Nat) : Packet :=
  { p with age := min 4095 (p.age + 1), escape := false, atSwitch := false, port := some port }

/-- Packets at the switch of die `d` leave in rank order: by the ejection port if it is their die and the port is still free; else by
a free productive port if one remains; else by any free port. -/
def State.switchPorts (s : State) (d : Nat) : List Packet → List Nat → Bool → State × List Nat
  | [], free, _ => (s, free)
  | p :: t, free, eject =>
      if p.req.dst = s.pkg ∧ p.req.dstDie = d ∧ eject then
        let s := { s with packets := s.packets.filter fun q => decide (q.id ≠ p.id) }
        ({ s with agenda := insertDue { cycle := s.cycle, row := .peerIngress, args := .peer p.req } s.agenda }).switchPorts d t free false
      else
        let good := free.filter fun x => s.goodPort p x
        let ports := if good.isEmpty then free else good
        if ports.isEmpty then s.switchPorts d t free eject
        else
          let r := s.pickPort ports
          (r.2.modPacket p.id fun q => q.leave r.1).switchPorts d t (free.filter fun x => decide (x ≠ r.1)) eject

/-- The virtual channel of a packet: requests and responses of each traffic class have their own (R336, R347). -/
def Packet.vc (p : Packet) : Nat := 2 * p.req.cls + (match p.req.op with | .answer .. => 1 | _ => 0)

/-- The mesh channels, by 64 × router + 8 × port + virtual channel. -/
def meshKey (router port vc : Nat) : Nat := 64 * router + 8 * port + vc

/-- Whether a packet of die `d` waits at the fabric router of its die with a slot of its channel toward the switch free. -/
def State.waitsPort (s : State) (d : Nat) (p : Packet) : Bool :=
  decide (p.die = d) && !p.atSwitch && p.port.isNone && decide (p.place = p.goal) &&
    decide (0 < SMap.get 0 s.meshFree (meshKey p.place 4 p.vc))

/-- Packets of the die itself enter its switch while ports are left, the virtual channels in round-robin order (R347). -/
def State.enterSwitch (s : State) (d : Nat) : List Nat → Nat → State
  | _, 0 => s
  | free, k + 1 =>
      let turn := SMap.get 0 s.portTurn d
      match (List.range 8).findSome? fun i =>
          (s.packets.find? fun p => s.waitsPort d p && decide (p.vc = (turn + i) % 8)) with
      | none => s
      | some p =>
          let r := { s with portTurn := SMap.set 0 s.portTurn d (p.vc + 1) }.switchPorts d [p] free false
          if r.2.length < free.length then r.1.enterSwitch d r.2 k else s

/-- The packets that were crossing to a switch reach it: the next die of the package; or the next package, which for a dimension of
extent 1 is this one, at the die of the opposite link. -/
def State.crossed (s : State) : State :=
  { s with packets := s.packets.filterMap fun p =>
      match p.port with
      | none => some p
      | some e =>
          if 8 ≤ e then some { p with die := e - 8, atSwitch := true, port := none }
          else if s.extent (e / 2) = 1 then some { p with die := e + 1 - 2 * (e % 2), atSwitch := true, port := none }
          else none }

/-- A cycle of the switch of die `d`: the packets that have come from other switches, then those of the die. -/
def State.switchDie (s : State) (d : Nat) : State :=
  let r := s.switchPorts d (rankPackets (s.packets.filter fun p => p.atSwitch && decide (p.die = d))) (s.diePorts d) true
  r.1.enterSwitch d r.2 6

/-- SWITCH_CYCLE (R338): a cycle of the switches of the package; with a packet as operand, the packet arrives by the link of its die. -/
def execSwitchCycle (s : State) : Host.Outcome State Fault Refusal :=
  match s.ev with
  | .packet p =>
      if s.linksDown.contains p.die ∨ 6 ≤ p.die then .next s
      else
        .next { s with nextId := s.nextId + 1,
                       packets := s.packets ++ [{ p with id := s.nextId, owner := .none, atSwitch := true, port := none }] }
  | _ => .next ((List.range 6).foldl State.switchDie s.crossed)

/-! ### The mesh (R337) -/

/-- The minimal ports from router `a` toward router `b`: 0 +X, 1 −X, 2 +Y, 3 −Y, the X direction first. -/
def minimalPorts (a b : Nat) : List Nat :=
  (if a % 16 < b % 16 then [0] else if b % 16 < a % 16 then [1] else []) ++
  (if a / 16 < b / 16 then [2] else if b / 16 < a / 16 then [3] else [])

/-- The router beyond a port. -/
def beyond (a port : Nat) : Nat := match port with | 0 => a + 1 | 1 => a - 1 | 2 => a + 16 | _ => a - 16

/-- MESH_ROUTE (R337): the operand is the packet. Among the minimal ports whose adaptive channel has room it takes the one with
the most free slots less its queue, X on a tie; with none it enters the escape channel, which goes X first, then Y. -/
def execMeshRoute (s : State) : Host.Outcome State Fault Refusal :=
  match s.packets.find? fun p => decide (p.id = s.ev.nat 0) with
  | none => .next s
  | some p =>
      match minimalPorts p.place p.goal with
      | [] => .next s
      | first :: rest =>
          let key (d : Nat) : Nat := meshKey p.place d p.vc
          let score (d : Nat) : Int := Int.ofNat (SMap.get 0 s.meshFree (key d)) - Int.ofNat (SMap.get 0 s.meshQueue (key d))
          let open_ := (first :: rest).filter fun d => decide (0 < SMap.get 0 s.meshFree (key d))
          let esc := p.escape || open_.isEmpty
          let port := if esc then first else open_.foldl (fun a d => if score a < score d then d else a) (open_.headD first)
          .next (s.modPacket p.id fun q => { q with escape := esc, place := beyond p.place port })

/-- What the routers know of their neighbours in the next cycle: the free slots and the queues of the channels that the packets of the
mesh may take, which other traffic than the fabric's shares (log entry 5). -/
def State.meshCredits (s : State) : State :=
  s.packets.foldl (fun (s : State) p =>
    (List.range 5).foldl (fun (s : State) d =>
      { s with meshFree := SMap.set 0 s.meshFree (meshKey p.place d p.vc) (Config.freeWord s.freeCtr).toNat,
               meshQueue := SMap.set 0 s.meshQueue (meshKey p.place d p.vc) (Config.freeWord (s.freeCtr + 1)).toNat,
               freeCtr := s.freeCtr + 2 }) s) { s with meshFree := [], meshQueue := [] }

/-! ### The egress (R262, R336, R339) -/

/-- The bytes that each access of a blocking load reads. -/
def Instr.loadBytes : Instr → Nat
  | .ild _ => 128
  | .sld _ => 32
  | .vldg _ => 4
  | _ => 64

/-- The accesses of a blocking instruction: device-physical addresses, leaves and operations. -/
def Hold.requests (h : Hold) : List (Nat × Nat × PeerOp) :=
  let g := fun i => h.vals.getD i 0
  let pieces (l : List Nat) : List (Nat × Nat × PeerOp) := (Piece.unpack l).map fun p => (p.pa, p.ent, .load (Instr.loadBytes h.instr))
  match h.instr with
  | .ldB _ | .ldBu _ | .ldH _ | .ldHu _ | .ldW _ | .ldWu _ | .ldD _ | .lda _ => [(g 0, g 4, .load (g 1))]
  | .creadPage _ => if g 0 = 1 then [(g 1, g 4, .load 8)] else []
  | .aadd _ | .amin _ | .amax _ | .aminu _ | .amaxu _ | .aand _ | .aor _ | .axor _ | .aswp _ | .acas _ | .afadd _ =>
      if g 0 = 2 then [(g 4, g 13, .atomic (g 5) (g 6) (g 7) (g 8))] else []
  | .vld _ | .dld _ => pieces (h.vals.drop 1)
  | .vldg _ | .ild _ | .sld _ | .cbld _ => pieces h.vals
  | _ => []

/-- Whether an instruction has acquire semantics (R133, R145). -/
def Instr.acquires : Instr → Bool
  | .lda _ | .creadPage _ => true
  | _ => false

/-- The egress sends an access of cluster `cl` of core `n` to a peer address and awaits its response: the last operands are whose it is,
as PEER_TIMEOUT has it. -/
def State.sendAwait (s : State) (owner : Owner) (n ent a : Nat) (sync : Bool) (op : PeerOp) (who : List Nat) : State :=
  let id := s.nextId
  (s.sendTo owner n (unitCore n) ent a sync op).awaitPeer
    ([who.getD 0 0, fld a 39 12] ++ who.drop 1 ++ [(pteM ent).toNat, s.cycle, id, a])

/-- The foreign addresses among those at which an access is performed. -/
def State.foreign (s : State) (pa ent : Nat) (load : Bool) : List Nat :=
  match s.dest (leafOf ent) pa load with
  | .ok as => as.filter fun a => decide (memKind a = some MemKind.peer)
  | .error _ => []

/-- The egress sends the accesses of a wait of cluster `c` of core `n`. -/
def State.sendHold (s : State) (n c : Nat) (h : Hold) : State :=
  h.requests.foldl (fun (s : State) r =>
    (s.foreign r.1 r.2.1 (match r.2.2 with | .load _ => true | _ => false)).foldl (fun (s : State) a =>
      s.sendAwait (.blocked n c h.since) n r.2.1 a (Instr.acquires h.instr) r.2.2 [0, n, c, h.since]) s) s

/-- The egress sends what the posted accesses of cluster `c` of core `n` have for other packages. -/
def State.sendPosted (s : State) (n c : Nat) : State :=
  let s := (s.cluster n c).posted.foldl (fun (s : State) p =>
    p.out.foldl (fun (s : State) r =>
      s.sendAwait (.posted n c p.id) n (2 ^ 9 * p.so.toNat + 2 ^ 11 * p.mirrored.toNat) r.1 p.sync r.2 [2, n, c, p.id]) s) s
  if (s.cluster n c).posted.any fun p => !p.out.isEmpty then
    s.modCluster n c fun k => { k with posted := k.posted.map fun p => { p with out := [] } }
  else s

/-- The egress sends the read of an LDQ of this cycle. -/
def State.sendFill (s : State) (d : Due) : State :=
  let g := fun i => d.args.nat i
  if d.row = .ldqFill ∧ g 9 = s.cycle then
    ({ s with curCore := g 0, curCl := g 5 }.foreign (g 3) (g 4) true).foldl (fun (s : State) a =>
      s.sendAwait (.ldq (g 0) (g 1) (g 2)) (g 0) (g 4) a false (.load 256) [1, g 0, g 1, g 2]) s
  else s

/-- The egress of each die sends what its clusters have issued in this cycle; in a torus of one package nothing leaves. -/
def State.egress (s : State) : State :=
  let s := s.cores.foldl (fun (s : State) e => e.2.cl.foldl (fun (s : State) x =>
    let s := { s with curCore := e.1, curCl := x.1 }
    (match x.2.hold? with
      | some h => if decide (h.since = s.cycle) && decide (h.kind = WaitKind.blocking) then s.sendHold e.1 x.1 h else s
      | none => s).sendPosted e.1 x.1) s) s
  s.agenda.foldl State.sendFill s

/-! ### Responses -/

/-- Whether a step due awaits the response of an access of an owner. -/
def Due.awaits (d : Due) (o : Owner) : Bool :=
  decide (d.row = .peerTimeout) && (match o with
    | .blocked n c x => decide (d.args.nat 0 = 0 ∧ d.args.nat 2 = n ∧ d.args.nat 3 = c ∧ d.args.nat 4 = x)
    | .ldq n q e => decide (d.args.nat 0 = 1 ∧ d.args.nat 2 = n ∧ d.args.nat 3 = q ∧ d.args.nat 4 = e)
    | .posted n c i => decide (d.args.nat 0 = 2 ∧ d.args.nat 2 = n ∧ d.args.nat 3 = c ∧ d.args.nat 4 = i)
    | .row i => decide (d.args.nat 0 = 3 ∧ d.args.nat 2 = i)
    | .none => false)

/-- Whether a step due completes the access of an owner. -/
def Due.completes (d : Due) (o : Owner) : Bool :=
  match o with
  | .blocked n c x => decide (d.row = .blockingCompletion) && decide (d.args.nat 0 = n ∧ d.args.nat 1 = c ∧ d.args.nat 2 = x)
  | .ldq n q e => decide (d.row = .ldqFill) && decide (d.args.nat 0 = n ∧ d.args.nat 1 = q ∧ d.args.nat 2 = e)
  | .posted n c i => decide (d.row = .postedStoreAck) && decide (d.args.nat 0 = n ∧ d.args.nat 1 = c ∧ d.args.nat 2 = i)
  | .row i => decide (d.row = .multicastForward) && decide (d.args.nat 0 = i)
  | .none => false

/-- The owner of the access that a step due awaits (PEER_TIMEOUT). -/
def Due.owner (d : Due) : Owner :=
  let g := fun i => d.args.nat i
  match g 0 with
  | 0 => .blocked (g 2) (g 3) (g 4)
  | 1 => .ldq (g 2) (g 3) (g 4)
  | 2 => .posted (g 2) (g 3) (g 4)
  | _ => .row (g 2)

/-- The completion of an owner's access does not come: its request or its response is lost. -/
def State.dropCompletion (s : State) (o : Owner) : State :=
  { s with agenda := s.agenda.filter fun d => !d.completes o }

/-- Replace the data that an LDQ fill brings, or mark it failed. -/
def Due.refill (d : Due) (ok data : Nat) : Due :=
  { d with args := match d.args with | .nats l => .nats (l.take 6 ++ [ok, data] ++ l.drop 8) | a => a }

/-- A failed response: a precise PROT of the instruction that waits, a poisoned entry, a report of the posted access, or the failure of
the multicast row (R64, R132, R244, R340). -/
def State.answerFails (s : State) (o : Owner) (cause : Nat) : State :=
  match o with
  | .blocked n c x =>
      (match (s.cluster n c).hold? with
       | some h => if h.since = x ∧ h.kind = WaitKind.blocking then { s with curCore := n, curCl := c }.trapHeld h cause h.ea else s
       | none => s)
  | .ldq .. => { s with agenda := s.agenda.map fun d => if d.completes o then d.refill 0 0 else d }
  | .posted n c i =>
      s.modCluster n c fun k =>
        { k with posted := k.posted.map fun p => if p.id = i then { p with fail := if p.fail = 0 then cause else p.fail } else p }
  | .row i => { s with mcRows := s.mcRows.map fun m => if m.id = i then { m with fail := cause } else m }
  | .none => s

/-- A response arrives (R339): what was read takes its place, and the access completes when it was the last one awaited. -/
def State.answer (s : State) (id fail bytes data : Nat) : State :=
  match s.agenda.find? fun d => decide (d.row = Instr.peerTimeout) && decide (d.args.nat 7 = id) with
  | none => s
  | some d =>
      let o := d.owner
      let s := { s with agenda := s.agenda.erase d }
      let s :=
        if fail ≠ 0 then s.answerFails o fail
        else if bytes = 0 then s
        else match o with
          | .ldq .. => { s with agenda := s.agenda.map fun d => if d.completes o then d.refill 1 data else d }
          | _ => s.writeN (d.args.nat 8) bytes data
      if s.agenda.any fun d => d.awaits o then s else s.hasten fun d => d.completes o

/-! ### The ingress (R244, R262) -/

/-- Perform an access that arrived at a local address: what it reads. -/
def State.performPeer (s : State) (a : Nat) (op : PeerOp) : State × Nat :=
  match op with
  | .load n => ((s.hit a n).traffic a n .read, s.readN a n)
  | .store n d => (((s.hit a n).traffic a n .write).writeN a n d, 0)
  | .atomic f n v ex => ((s.hit a n).traffic a n .update).atomAt (AtomFn.ofCode f) a n v ex
  | .ctrAdd v => (s.queueAdd (.page a 0) v (.silent false), 0)
  | _ => (s, 0)

/-- The bytes that a response carries for an access. -/
def PeerOp.answerBytes : PeerOp → Nat
  | .load n => n
  | .atomic _ n _ _ => n
  | _ => 0

/-- Whether an access of the same source comes before `r` by sequence number, and the ingress keeps the two in order: accesses to one
64-byte block, SO accesses, release and acquire sides, and rows of one multicast group (R256, R258, R340). -/
def PeerReq.mustFollow (r q : PeerReq) : Bool :=
  decide (q.src = r.src ∧ q.die = r.die ∧ q.dst = r.dst) && decide (0 < (r.seq + 65536 - q.seq) % 65536 ∧ (r.seq + 65536 - q.seq) % 65536 < 32768) &&
    (match r.op, q.op with
     | .answer .., _ | _, .answer .. => false
     | .mcast g _ _, .mcast h _ _ => decide (g = h)
     | .mcast .., _ | _, .mcast .. => false
     | _, _ => r.sync || q.sync || decide (r.kind = 1 ∧ q.kind = 1) || decide (r.aperture / 64 = q.aperture / 64))

/-- Whether an access that has arrived waits for an earlier one that is still on its way in this package or waits itself. -/
def State.ingressWaits (s : State) (r : PeerReq) : Bool :=
  (s.packets.any fun p => PeerReq.mustFollow r p.req) ||
    s.agenda.any fun d => decide (d.row = .peerIngress) && (match d.args with | .peer q => PeerReq.mustFollow r q | _ => false)

/-- A multicast row arrives (R340): the root of its group takes it in its order of arrival; a member performs it under the ASID of its
local context; a package that holds no such group, or is no member, discards it. -/
def State.rowArrives (s : State) (r : PeerReq) (key n d : Nat) : State :=
  match SMap.get none s.groups key with
  | none => s.respond r cPROT 0 0
  | some g =>
      if !g.members.testBit s.pkg then s.respond r cPROT 0 0
      else if g.root = s.pkg then
        let m : McRow :=
          { id := s.nextId, vi := key / 4096, group := key % 4096, core := 0, cmd := 0, va := r.aperture, bytes := leBytes n d, from_ := some r }
        { s with nextId := s.nextId + 1, mcRows := s.mcRows ++ [m] }.scheduleOpen 1 .multicastForward (.nats [m.id])
      else match s.performMulticast r.dstDie (key / 4096) r.aperture (leBytes n d) g with
        | .error c => s.respond r c 0 0
        | .ok t => t.1.respond r 0 0 0

/-- PEER_INGRESS (R244, R262): an access that has arrived is performed through its window once the accesses that it must follow have
been, and answered; with the window disabled, an address that addresses no memory or a frame that is not valid it fails as PROT, which
its requester is told. A response goes to the access that awaits it. -/
def execPeerIngress (s : State) : Host.Outcome State Fault Refusal :=
  match s.ev with
  | .peer r =>
      if s.ingressWaits r then
        .next { s with agenda := insertDue { cycle := s.cycle + 1, row := .peerIngress, args := .peer r } s.agenda }
      else
        let s := { s with hitSeen := [] }
        (match r.op with
         | .answer id fail bytes data => .next (s.answer id fail bytes data)
         | .mcast key n d => .next (s.rowArrives r key n d)
         | op =>
             (match s.ingress r.aperture (match op with | .load _ => false | _ => true) with
              | none => .next (s.respond r cPROT 0 0)
              | some a =>
                  let x := s.performPeer a op
                  .next (x.1.respond r 0 (PeerOp.answerBytes op) x.2)))
  | _ => .next s

/-! ### Lost peers (R339, R341) -/

/-- Mark the copies of mirrored pairs in a package lost: the event is a failover where the other copy still serves (R341, R367). -/
def State.loseCopy (s : State) (vi pkg die : Nat) : State :=
  let l := SMap.get [] s.mirrors vi
  let s := { s with mirrors := SMap.set [] s.mirrors vi (l.map fun (p : MirrorPair) =>
    { p with lostP := p.lostP || decide (p.primary = pkg), lostS := p.lostS || decide (p.secondary = pkg) }) }
  s.logFabric (if l.any fun p => decide (p.primary = pkg) && !p.lostS then 1 else 3) die pkg vi

/-- Whether an access to a mirrored page still has a copy. -/
def State.copyLeft (s : State) (vi pkg : Nat) : Bool :=
  (SMap.get [] s.mirrors vi).any fun p => decide (p.primary = pkg ∨ p.secondary = pkg) && !(p.lostP && p.lostS)

/-- Whether the access of an owner is still open. -/
def State.openFor (s : State) (o : Owner) : Bool :=
  match o with
  | .blocked n c x => (match (s.cluster n c).hold? with | some h => decide (h.since = x) && decide (h.kind = WaitKind.blocking) | none => false)
  | .ldq n q e => decide (((s.core n).qEntry q e).st = .reserved)
  | .posted n c i => (s.cluster n c).posted.any fun p => decide (p.id = i)
  | .row i => s.mcRows.any fun m => decide (m.id = i)
  | .none => false

/-- A load from a mirrored page is sent to the copy that is left (R341). -/
def State.resend (s : State) (o : Owner) : State :=
  let t := s.dropCompletion o
  match o with
  | .blocked n c x =>
      (match (s.cluster n c).hold? with
       | some h => ({ t with curCore := n, curCl := c }.sendHold n c h).scheduleOpen 1 .blockingCompletion (.nats [n, c, x])
       | none => s)
  | .ldq n q e =>
      (match s.agenda.find? fun d => d.completes o with
       | some d =>
           let t := t.ldqRead n (d.args.nat 5) q e (d.args.nat 3) (d.args.nat 4)
           (match t.agenda.find? fun d => d.completes o with | some d => t.sendFill d | none => t)
       | none => s)
  | _ => s

/-- An access to a mirrored page goes on with the copy that is left: a load is sent to it, and a store has been. -/
def State.reissue (s : State) (o : Owner) : State :=
  match o with
  | .blocked .. | .ldq .. => { s with agenda := s.agenda.filter fun d => !d.awaits o }.resend o
  | .posted n c i =>
      if s.agenda.any fun d => d.awaits o || d.completes o then s else s.schedule s.cycle .postedStoreAck (.nats [n, c, i])
  | _ => s

/-- An access has lost its peer for good (R339): MIRRFAIL precisely, a poisoned entry, a report, or the engine fault of a multicast
row. -/
def State.losePeer (s : State) (o : Owner) (pkg : Nat) : State :=
  let s := s.dropCompletion o
  match o with
  | .blocked n c _ =>
      (match (s.cluster n c).hold? with
       | some h => { s with curCore := n, curCl := c }.trapHeld h cMIRRFAIL h.ea
       | none => s)
  | .ldq n q e => s.modCore n fun k => k.setQEntry q e { k.qEntry q e with st := .poisoned }
  | .posted n c i =>
      s.modCluster n c fun k =>
        { k with posted := k.posted.filter fun q => decide (q.id ≠ i),
                 mirrRep := match k.posted.find? fun q => decide (q.id = i), k.mirrRep with
                   | some p, none => some (cMIRRFAIL, p.ea)
                   | _, r => r }
  | .row i =>
      let s := { s with lost := if s.lost.contains pkg then s.lost else s.lost ++ [pkg] }
      (match s.mcRows.find? fun m => decide (m.id = i) with
       | some m => s.multicastBack m (some (cMIRRFAIL, w64 m.group))
       | none => s)
  | .none => s

/-- PEER_TIMEOUT (R339): the operands are the kind of the access (0 a blocking one, 1 an LDQ fill, 2 a posted store, 3 a multicast row),
the package, whose it is (core, cluster and cycle of issue; core, queue and entry; core, cluster and number; number and core), whether
its page is mirrored, the cycle in which it left the egress, its number and its address. It has lost its peer when no response has come
within 2^19 cycles or no route is left; one to a mirrored page goes on while a copy is left. -/
def execPeerTimeout (s : State) : Host.Outcome State Fault Refusal :=
  let d : Due := { cycle := s.cycle, row := .peerTimeout, args := s.ev }
  let o := d.owner
  let pkg := s.ev.nat 1
  if !s.openFor o then .next s
  else if s.cycle < s.ev.nat 6 + 2 ^ 19 ∧ s.routed then .next (s.schedule (s.ev.nat 6 + 2 ^ 19) .peerTimeout s.ev)
  else
    let n := if s.ev.nat 0 = 3 then s.ev.nat 3 else s.ev.nat 2
    let vi := match o with
      | .row i => ((s.mcRows.find? fun m => decide (m.id = i)).map fun m => m.vi).getD 0
      | _ => (s.core n).vifn.toNat
    if s.ev.nat 5 = 1 then
      let s := s.loseCopy vi pkg (coreDie n)
      if s.copyLeft vi pkg then .next (s.reissue o) else .next (s.losePeer o pkg)
    else .next ((s.logFabric 3 (coreDie n) pkg vi).losePeer o pkg)

/-! ### Links (R342) -/

/-- LINK_DOWN (R342): the operand is the direction. The link is no port any more; packets that were crossing it are lost, and the accesses
they carry do not complete (R339); with no route left, every access that awaits a response has lost its peer. -/
def execLinkDown (s : State) : Host.Outcome State Fault Refusal :=
  let d := s.ev.nat 0
  if s.linksDown.contains d ∨ 6 ≤ d then .next s
  else
    let n := s.extent (d / 2)
    let at_ := pkgCoord s.pkg (d / 2)
    let other := s.pkg - at_ * 16 ^ (d / 2) + (if d % 2 = 0 then (at_ + 1) % n else (at_ + n - 1) % n) * 16 ^ (d / 2)
    let s := s.logFabric 2 d other 0xFF
    let gone := s.packets.filter fun p => decide (p.port = some d)
    let s := { s with linksDown := s.linksDown ++ [d], packets := s.packets.filter fun p => decide (p.port ≠ some d) }
    let s := gone.foldl (fun (s : State) p => s.dropCompletion p.owner) s
    .next (if s.routed then s else s.hasten fun x => decide (x.row = Instr.peerTimeout))

end Sys2Proof.Machine
end

