-- ==== Sys2Proof/Machine/Ptable.lean ====
section
/-!
DEFINITION. Page tables as the firmware writes them (R245-R248, R267, R373): leaves, splits and the nodes of a context's pool.
-/

namespace Sys2Proof.Machine

/-! ### Reading -/

/-- The entry of a node that covers `va` at a level. -/
def entryAddr (node l va : Nat) : Nat := node + 8 * (va / levelSpan l % 512)

/-- A non-leaf entry that names a node (Table 17-3). -/
def tableEntry (node : Nat) : Nat := 1 + node / 4096 * 2 ^ 24

/-- The leaves of a table at level `l` whose node is `node` and whose first address is `base`, that meet `[lo, hi)`; a leaf is
listed once for each of its entries. -/
def State.leavesAt (s : State) (lo hi : Nat) : Nat → Nat → Nat → List TlbEntry
  | 0, node, base =>
      let first := (max lo base - base) / levelSpan 0
      let last := (min hi (base + 512 * levelSpan 0) - base + levelSpan 0 - 1) / levelSpan 0
      ((List.range (last - first)).map fun i => (first + i, s.readN (node + 8 * (first + i)) 8)).filterMap fun x =>
        if pteV x.2 && pteL x.2 && leafOk 0 x.2 then
          let z := leafSize 0 x.2
          some { asid := 0, vbase := (base + x.1 * levelSpan 0) / z * z, size := z, ent := x.2 }
        else none
  | l + 1, node, base =>
      let g := levelSpan (l + 1)
      let first := (max lo base - base) / g
      let last := (min hi (base + 512 * g) - base + g - 1) / g
      ((List.range (last - first)).map fun i => (first + i, s.readN (node + 8 * (first + i)) 8)).flatMap fun x =>
        if !pteV x.2 then []
        else if pteL x.2 then
          (if leafOk (l + 1) x.2 then
            let z := leafSize (l + 1) x.2
            [{ asid := 0, vbase := (base + x.1 * g) / z * z, size := z, ent := x.2 }]
          else [])
        else s.leavesAt lo hi l (pteAddr x.2) (base + x.1 * g)

/-- The pages of a context that meet `[lo, hi)`, each once. -/
def State.pagesIn (s : State) (root lo hi : Nat) : List TlbEntry :=
  (s.leavesAt lo hi 3 root 0).foldl (fun l t => if l.contains t then l else l ++ [t]) []

/-- Whether every node of a table that `leavesAt` visits can be read: its frame has a valid indirection entry (R291). -/
def State.tablesOk (s : State) (lo hi : Nat) : Nat → Nat → Nat → Bool
  | 0, node, _ => s.frameOk node
  | l + 1, node, base =>
      let g := levelSpan (l + 1)
      let first := (max lo base - base) / g
      let last := (min hi (base + 512 * g) - base + g - 1) / g
      s.frameOk node && (List.range (last - first)).all fun i =>
        let e := s.readN (node + 8 * (first + i)) 8
        !(pteV e && !pteL e) || s.tablesOk lo hi l (pteAddr e) (base + (first + i) * g)

/-- The nodes of the table that an entry names, with those below it. -/
def State.nodesBelow (s : State) : Nat → Nat → List Nat
  | 0, node => [node]
  | l + 1, node =>
      node :: (List.range 512).flatMap fun i =>
        let e := s.readN (node + 8 * i) 8
        if pteV e && !pteL e then s.nodesBelow l (pteAddr e) else []

/-! ### Writing -/

/-- Take the lowest free node of a pool, cleared; status 2 where the pool is used up, 7 where the node's frame cannot be accessed (log
entry 74). -/
def State.takeTable (s : State) (c : Ctx) : Except Nat (State × Ctx × Nat) :=
  match (List.range (min c.size (c.used.length + 1))).find? fun i => !c.used.contains i with
  | none => .error 2
  | some i =>
      let a := c.pool + 4096 * i
      if s.frameOk a then .ok (s.setBytes a (List.replicate 4096 0), { c with used := c.used ++ [i] }, a) else .error 7

/-- The node that holds the entries of `va` at level `l - n`, from a node at level `l`; missing nodes are taken from the pool. -/
def State.tableFor (s : State) (c : Ctx) (va : Nat) : Nat → Nat → Nat → Except Nat (State × Ctx × Nat)
  | 0, _, node => .ok (s, c, node)
  | n + 1, l, node =>
      let a := entryAddr node l va
      let e := s.readN a 8
      if pteV e && !pteL e then s.tableFor c va n (l - 1) (pteAddr e)
      else match s.takeTable c with
        | .error e => .error e
        | .ok (s, c, t) => (s.writeN a 8 (tableEntry t)).tableFor c va n (l - 1) t

/-- Write one entry at a level; a node that it named before, and those below, go back to the pool. -/
def State.putEntry (s : State) (c : Ctx) (a l e : Nat) : State × Ctx :=
  let old := s.readN a 8
  let gone := if pteV old && !pteL old then s.nodesBelow (l - 1) (pteAddr old) else []
  (s.writeN a 8 e, { c with used := c.used.filter fun i => !gone.contains (c.pool + 4096 * i) })

/-- Write a leaf of size code `k` at level `l` into every replica (R247). -/
def State.putLeaf (s : State) (c : Ctx) (root va l k e : Nat) : Except Nat (State × Ctx) :=
  match s.tableFor c va (3 - l) 3 root with
  | .error e => .error e
  | .ok (s, c, node) =>
      let first := va / levelSpan l % 512
      .ok ((List.range (4 ^ k)).foldl (fun (r : State × Ctx) i => r.1.putEntry r.2 (node + 8 * (first + i)) l e) (s, c))

/-- The sizes of Table 17-4, largest first: level and code. -/
def pageSizes : List (Nat × Nat) :=
  [(2, 2), (2, 1), (2, 0), (1, 3), (1, 2), (1, 1), (1, 0), (0, 4), (0, 3), (0, 2), (0, 1), (0, 0)]

/-- Bytes of a page. -/
def pageSize (x : Nat × Nat) : Nat := levelSpan x.1 * 4 ^ x.2

/-- Bits 14 to 5 of a leaf: its attributes. -/
def pteAttr (e : Nat) : Nat := fld e 5 10

/-- A leaf for a device-physical address with attributes; a page below 64 KiB carries no SH (R248). -/
def leafEntry (pa k attr size : Nat) : Nat :=
  let attr := if size < 65536 ∧ attr.testBit 9 then attr - 512 else attr
  3 + 4 * k + 32 * attr + pa / 4096 * 2 ^ 24

/-- Map `[va, va + n)` onto `pa` with the attributes of a page that is split, by the largest sizes its alignment allows. -/
def State.mapRest (s : State) (c : Ctx) (root attr : Nat) : Nat → Nat → Nat → Nat → Except Nat (State × Ctx)
  | 0, _, _, _ => .ok (s, c)
  | fuel + 1, va, pa, n =>
      if n = 0 then .ok (s, c)
      else match pageSizes.find? fun x => decide (va % pageSize x = 0 ∧ pa % pageSize x = 0 ∧ pageSize x ≤ n) with
        | none => .ok (s, c)
        | some x =>
            match s.putLeaf c root va x.1 x.2 (leafEntry pa x.2 attr (pageSize x)) with
            | .error e => .error e
            | .ok (s, c) => s.mapRest c root attr fuel (va + pageSize x) (pa + pageSize x) (n - pageSize x)

/-- Remove a page's entries. -/
def State.dropPage (s : State) (root : Nat) (t : TlbEntry) : State :=
  let l := if t.size < levelSpan 1 then 0 else if t.size < levelSpan 2 then 1 else 2
  match s.tableFor { asid := 0, pool := 0, size := 0, used := [], itin := [] } t.vbase (3 - l) 3 root with
  | .error _ => s
  | .ok (s, _, node) =>
      let first := t.vbase / levelSpan l % 512
      (List.range (4 ^ pteK t.ent)).foldl (fun (s : State) i => s.writeN (node + 8 * (first + i)) 8 0) s

/-- Remove what pages hold inside `[lo, hi)`; the part outside stays mapped to the same bytes (R373). -/
def State.cutPages (s : State) (c : Ctx) (root lo hi : Nat) : List TlbEntry → Except Nat (State × Ctx)
  | [] => .ok (s, c)
  | t :: r =>
      let s := s.dropPage root t
      let pa := pteAddr t.ent
      let left := lo - t.vbase
      let right := t.vbase + t.size - hi
      match s.mapRest c root (pteAttr t.ent) 256 t.vbase pa left with
      | .error e => .error e
      | .ok (s, c) =>
          match s.mapRest c root (pteAttr t.ent) 256 hi (pa + (hi - t.vbase)) right with
          | .error e => .error e
          | .ok (s, c) => s.cutPages c root lo hi r

/-- Map `n` pages of size `x` from `va` onto `pa`. -/
def State.mapPages (s : State) (c : Ctx) (root attr : Nat) (x : Nat × Nat) : Nat → Nat → Nat → Except Nat (State × Ctx)
  | 0, _, _ => .ok (s, c)
  | n + 1, va, pa =>
      match s.putLeaf c root va x.1 x.2 (leafEntry pa x.2 attr (pageSize x)) with
      | .error e => .error e
      | .ok (s, c) => s.mapPages c root attr x n (va + pageSize x) (pa + pageSize x)

end Sys2Proof.Machine
end

