-- ==== Sys2Proof/Machine/Host.lean ====
section
/-!
DEFINITION. The rings of the host (R348, R349, R351) and the Glasel commands (R350, Table 25-4) with the contexts, page tables and
resources they act on (R345, R358, R372-R374).
-/

namespace Sys2Proof.Machine

/-! ### Commands of a ring (R349) -/

/-- op0 ... op5. -/
def cop (c : HostCmd) : Nat → Nat
  | 0 => c.op0.toNat
  | 1 => c.op1.toNat
  | 2 => c.op2.toNat
  | 3 => c.op3.toNat
  | 4 => c.op4.toNat
  | _ => c.op5.toNat

/-- The row of an opcode (Table 25-4); FABCFG has one for a group and one for a mirror. -/
def commandRow (opcode op1 : Nat) : Option Instr :=
  match opcode with
  | 1 => some .ctxcreate
  | 2 => some .ctxdestroy
  | 3 => some .map
  | 4 => some .unmap
  | 5 => some .itinreg
  | 6 => some .submit
  | 7 => some .corral
  | 8 => some .enqueue
  | 9 => some .creadCommand
  | 10 => some .vireset
  | 11 => some .assign
  | 12 => some (if op1 % 2 = 0 then .fabcfgGroup else .fabcfgMirror)
  | _ => none

/-- The completion of the command in progress (Table 25-3): its entry is written, and the ring goes on to the next. A ring that
lies outside host memory takes no entry and is in error (log entry 48). -/
def State.finishCmd (s : State) (c : HostCmd) (status detail index value : Nat) : State :=
  let r := s.ring c.vi
  match r.entry with
  | none => s
  | some n =>
      let e := c.tag.toNat + status * 2 ^ 32 + detail % 256 * 2 ^ 40 + index % 65536 * 2 ^ 48 + value % 2 ^ 48 * 2 ^ 64 +
        stampOf n * 2 ^ 112
      let a := hostAddr (r.cqBase.toNat + 16 * (r.completions % r.size))
      let s := if memKind a = some .host then s.writeN a 16 e else s.modRing c.vi fun r => { r with error := true, reason := 3 }
      let s := s.modRing c.vi fun r => { r with entry := none, result := 0, completions := r.completions + 1, handled := n + 1 }
      s.scheduleOpen 1 .sqNotify (.nats [c.vi])

/-- A command ends with a status and a value. -/
def State.endCmd (s : State) (c : HostCmd) (status value : Nat) : Host.Outcome State Fault Refusal :=
  .next (s.finishCmd c status 0 0 value)

/-- A ring enters its error state with a reason (Table 25-1). -/
def State.ringError (s : State) (v reason : Nat) : State :=
  s.modRing v fun r => { r with error := true, reason := reason, reading := none }

/-- Act on an entry that has been read (Table 25-3): its command starts after an open time. -/
def State.startCmd (s : State) (v n e : Nat) : State :=
  let c : HostCmd :=
    { vi := v, tag := BitVec.ofNat 32 (fld e 32 32), op0 := w64 (fld e 64 64), op1 := w64 (fld e 128 64), op2 := w64 (fld e 192 64),
      op3 := w64 (fld e 256 64), op4 := w64 (fld e 320 64), op5 := w64 (fld e 384 64) }
  let s := s.modRing v fun r => { r with entry := some n, reading := none }
  match commandRow (fld e 0 8) ((cop c 1)), decide (fld e 9 23 = 0 ∧ fld e 448 48 = 0) with
  | some row, true => s.scheduleOpen 1 row (.host c)
  | _, _ => s.finishCmd c 1 0 0 0

/-- Whether an interface is under reset by interface 0: its ring starts no command (R358, R374; log entry 48). -/
def State.underReset (s : State) (v : Nat) : Bool :=
  s.agenda.any fun d => match d.args with
    | .host c => decide (d.row = .vireset ∧ c.vi = 0 ∧ v ≠ 0) && decide (cop c 0 = v)
    | _ => false

/-- Read the entry at the submission head, if one is due: with stamps enabled a stale one is read again after 1,200 cycles, for
at most 12,000,000 cycles. -/
def State.readEntry (s : State) (v : Nat) : State :=
  let r := s.ring v
  if !r.enabled || r.error || r.entry.isSome || decide (r.handled % r.size = r.tail % r.size) || s.underReset v then s
  else
    let a := hostAddr (r.sqBase.toNat + 64 * (r.handled % r.size))
    if memKind a ≠ some .host then s.ringError v 3
    else
      let e := s.readN a 64
      if r.stamps ∧ fld e 496 16 ≠ stampOf r.handled then
        let t := r.reading.getD s.cycle
        let s := s.modRing v fun r => { r with reading := some t }
        if t + 12000000 ≤ s.cycle then s.schedule s.cycle .stampTimeout (.nats [v, r.handled])
        else s.schedule (s.cycle + 1200) .stampRetry (.nats [v, r.handled])
      else s.startCmd v r.handled e

/-- SQ_NOTIFY (R349): the operands are the interface and the value written to SQTAIL; without it the firmware goes on along the
ring. -/
def execSqNotify (s : State) : Host.Outcome State Fault Refusal :=
  let v := s.ev.nat 0
  let s := match s.ev with
    | .nats [_, x] => s.modRing v fun r => { r with tail := x % 4096 }
    | _ => s
  .next (if (s.ring v).reading.isSome then s else s.readEntry v)

/-- STAMP_RETRY (R349): the operands are the interface and the entry's number. -/
def execStampRetry (s : State) : Host.Outcome State Fault Refusal :=
  let r := s.ring (s.ev.nat 0)
  if r.reading.isSome ∧ r.handled = s.ev.nat 1 then .next (s.readEntry (s.ev.nat 0)) else .next s

/-- STAMP_TIMEOUT (R349): the operands are those of STAMP_RETRY. -/
def execStampTimeout (s : State) : Host.Outcome State Fault Refusal :=
  let r := s.ring (s.ev.nat 0)
  match r.reading with
  | none => .next s
  | some t =>
      if r.handled = s.ev.nat 1 ∧ t + 12000000 ≤ s.cycle then .next (s.ringError (s.ev.nat 0) 1) else .next s

/-- Whether a configuration is bad (R348): a size out of range, a reserved bit, or a base not 4 KiB aligned. -/
def Ring.badConfig (r : Ring) (q : Nat) : Bool :=
  let ok (x : Nat) : Bool := decide (4 ≤ x ∧ x ≤ 12)
  !ok (fld q 0 4) || !ok (fld q 16 4) || decide (fld q 4 12 ≠ 0) || decide (fld q 20 12 ≠ 0) || decide (fld q 34 29 ≠ 0) ||
    decide (r.sqBase.toNat % 4096 ≠ 0) || decide (r.cqBase.toNat % 4096 ≠ 0) || decide (r.eqBase.toNat % 4096 ≠ 0)

/-- QCFG_ENABLE (R348): the operands are the interface and the value, whose bit 63 is set. It waits for a command still in
progress. -/
def execQcfgEnable (s : State) : Host.Outcome State Fault Refusal :=
  let v := s.ev.nat 0
  let q := s.ev.nat 1
  let r := s.ring v
  if r.enabled then .next s
  else if r.entry.isSome then .next (s.schedule (s.cycle + 1) .qcfgEnable s.ev)
  else if r.badConfig q then .next (s.ringError v 2)
  else
    let s := s.modRing v fun r =>
      { Ring.reset with sqBase := r.sqBase, cqBase := r.cqBase, eqBase := r.eqBase, qcfg := w64 (q % 2 ^ 63 + 2 ^ 63), held := r.held }
    .next (s.flushEvents v (s.ring v).held)

/-- QCFG_DISABLE (R348): the operands are the interface and the value, whose bit 63 is clear. Of enabled rings it clears that bit and
no other; of disabled ones it writes the other fields, and reserved bits read as zero (R3). A command in progress still completes. -/
def execQcfgDisable (s : State) : Host.Outcome State Fault Refusal :=
  .next (s.modRing (s.ev.nat 0) fun r =>
    { r with qcfg := if r.enabled then w64 (r.qcfg.toNat % 2 ^ 63) else w64 (s.ev.nat 1) &&& 0x3000F000F,
             error := false, reason := 0, reading := none })

/-- EQHEAD_WRITE (R351): the operands are the interface and the value. -/
def execEqheadWrite (s : State) : Host.Outcome State Fault Refusal :=
  let v := s.ev.nat 0
  let s := s.modRing v fun r => { r with eqHead := s.ev.nat 1 % 4096 }
  .next (s.flushEvents v (s.ring v).held)

/-- A command's step: its operands are its submission entry. -/
def State.command (s : State) (f : HostCmd → State → Host.Outcome State Fault Refusal) : Host.Outcome State Fault Refusal :=
  match s.ev with
  | .host c => f c s
  | _ => .next s

/-! ### Contexts (R350, R372) -/

/-- Root node of an ASID; none for a context that is being destroyed. -/
def State.root (s : State) (asid : Nat) : Option Nat := match SMap.get 0 s.roots asid with | 0 => none | r + 1 => some r

/-- The context in op0[15:0]; none where the interface does not hold it. -/
def State.cmdCtx (s : State) (c : HostCmd) : Option (Nat × Ctx × Nat) :=
  match s.ctx c.vi ((cop c 0) % 65536) with
  | none => none
  | some x => (s.root x.asid).map fun r => ((cop c 0) % 65536, x, r)

/-- Replace a context. -/
def State.setCtx (s : State) (v n : Nat) (x : Option Ctx) : State := { s with ctxs := SMap.set none s.ctxs (65536 * v + n) x }

/-- Whether the bits of an operand above those that Table 25-4 lists are 0 (log entry 17). -/
def cclean (c : HostCmd) (i bits : Nat) : Bool := decide (cop c i < 2 ^ bits)

/-- A command on the context in op0: status 1 where op0 sets another bit, 3 where the context is not held. -/
def State.withCtx (s : State) (c : HostCmd) (f : Nat → Ctx → Nat → Host.Outcome State Fault Refusal) : Host.Outcome State Fault Refusal :=
  if !(cclean c 0 16) then s.endCmd c 1 0
  else match s.cmdCtx c with
    | none => s.endCmd c 3 0
    | some (n, x, r) => f n x r

/-- The unit number under which an interface's firmware issues TLBIs. -/
def firmwareUnit (v : Nat) : Nat := 1000 + v

/-- The TLBIs of an interface's command in progress. -/
def State.cmdTickets (s : State) (v : Nat) : List Nat :=
  (s.tickets.filter fun t => decide (t.core = firmwareUnit v)).map fun t => t.id

/-- The firmware's TLBI at system scope over a range of an ASID (R267). -/
def State.firmwareTlbi (s : State) (v asid lo n : Nat) : State := s.invalidate (firmwareUnit v) 0 6 (some asid) lo n 4

/-- A command that has issued TLBIs waits for them (R267 step 3); then `f` goes on. -/
def State.afterTlbis (s : State) (c : HostCmd) (row : Instr) (f : State → Host.Outcome State Fault Refusal) :
    Host.Outcome State Fault Refusal :=
  let ids := s.cmdTickets c.vi
  if s.ticketsDone ids then f (s.syncTickets ids) else .next (s.schedule (s.cycle + 1) row (.host c))

/-- Whether every byte of `[a, a + n)` lies in the interface's device-physical ranges. -/
def State.ownRange (s : State) (v a n : Nat) : Bool := inRanges ((s.vif v).ranges.map fun e => e.2) 17 a n

/-- CTXCREATE. -/
def cmdCtxcreate (c : HostCmd) (s : State) : Host.Outcome State Fault Refusal :=
  let base := (cop c 1)
  let size := (cop c 2)
  let dev := match memKind base with | some .hbm | some .lpddr => true | _ => false
  if (cop c 0) ≠ 0 ∨ base % 4096 ≠ 0 ∨ size = 0 ∨ 2 ^ 20 < size ∨ dev = false then s.endCmd c 1 0
  else if !s.ownRange c.vi base (4096 * size) then s.endCmd c 3 0
  else
    let nums := (s.ctxs.filter fun e => decide (e.1 / 65536 = c.vi)).map fun e => e.1 % 65536
    let asids := s.ctxs.filterMap fun e => e.2.map fun x => x.asid
    let num := (List.range (min 65536 (nums.length + 1))).find? fun i => !nums.contains i
    let asid := ((List.range (min 65535 (asids.length + 1))).map fun i => i + 1).find? fun i => !asids.contains i
    match num, asid with
    | some n, some a =>
        let s := s.setBytes base (List.replicate 4096 0)
        let s := s.setCtx c.vi n (some { asid := a, pool := base, size := size, used := [0], itin := [] })
        { s with roots := SMap.set 0 s.roots a (base + 1) }.endCmd c 0 (n + 65536 * a)
    | _, _ => s.endCmd c 2 0

/-- CTXCREATE (Table 25-4, R372). -/
def execCtxcreate (s : State) : Host.Outcome State Fault Refusal := s.command cmdCtxcreate

/-! ### Destruction (R201, R358) -/

/-- The nodes of some contexts that are not final. -/
def State.nodesOf (s : State) (v : Nat) (sel : Nat → Bool) : List (Nat × Node) :=
  s.liveNodes.filter fun e => match s.graph e.2.graph with
    | some g => decide (g.vi = v) && sel g.ctx
    | none => false

/-- Halt a gang at quiet points, for its context is destroyed: slabs not yet started are discarded, and those in flight finish their
writes with no count change (R334). -/
def State.killNode (s : State) (n : Nat) : State :=
  match s.node n with
  | none => s
  | some x => if x.stop = .kill then s else (s.unbind n).stopHard n .kill

/-- Whether a node can end now: it is not on its cores, or its gang has halted with nothing in flight. -/
def State.canEnd (s : State) (n : Nat) (x : Node) : Bool :=
  match x.st with
  | .running | .preempting | .draining => decide (x.stop = .kill) && s.gangQuiet n x
  | _ => true

/-- End a node whose context is destroyed (Table 3-3, R201). -/
def State.destroyNode (s : State) (n : Nat) : State :=
  match s.node n with
  | none => s
  | some x =>
      match x.st with
      | .waiting | .ready => (s.unbind n).endNode n .cancelled .bare
      | .suspended =>
          (match x.faultVa with
           | some _ => s.faultNode n x.faultRep
           | none => s.faultNode n .bare)
      | _ => s.faultNode n .bare

/-- The first part of a destruction: gangs halt, and every node that can ends; whether none is left. -/
def State.destroyNodes (s : State) (v : Nat) (sel : Nat → Bool) : State × Bool :=
  let s := (s.nodesOf v sel).foldl (fun (s : State) e => match e.2.st with
    | .running | .preempting | .draining => s.killNode e.1
    | _ => s) s
  let s := (s.nodesOf v sel).foldl (fun (s : State) e => if s.canEnd e.1 e.2 then s.destroyNode e.1 else s) s
  (s, (s.nodesOf v sel).isEmpty)

/-- Contexts lose their translations: no walk succeeds any more, and TLBIs go out at system scope. -/
def State.dropRoots (s : State) (cmdVi v : Nat) (sel : Nat → Bool) : State :=
  s.ctxs.foldl (fun (s : State) e => match e.2 with
    | none => s
    | some x =>
        if e.1 / 65536 = v ∧ sel (e.1 % 65536) = true ∧ (s.root x.asid).isSome then
          { s with roots := SMap.set 0 s.roots x.asid 0 }.firmwareTlbi cmdVi x.asid 0 (2 ^ 48)
        else s) s

/-- Contexts are gone, with their gather queues. -/
def State.dropCtxs (s : State) (v : Nat) (sel : Nat → Bool) : State :=
  { s with ctxs := s.ctxs.filter fun e => !(decide (e.1 / 65536 = v) && sel (e.1 % 65536)) }.modVif v fun x =>
    { x with corrals := x.corrals.filter fun e => match e.2 with | some q => !sel q.ctx | none => false }

/-- CTXDESTROY: the gangs halt, the nodes end, the translations go, and the command completes. -/
def cmdCtxdestroy (c : HostCmd) (s : State) : Host.Outcome State Fault Refusal :=
  if !(cclean c 0 16) || !(cclean c 1 1) then s.endCmd c 1 0
  else
    let n := (cop c 0)
    let sel (m : Nat) : Bool := decide (m = n)
    match s.ctx c.vi n with
    | none => s.endCmd c 3 0
    | some x =>
        match s.root x.asid with
        | none => s.afterTlbis c .ctxdestroy fun s => (s.dropCtxs c.vi sel).endCmd c 0 0
        | some _ =>
            if (cop c 1) = 0 ∧ s.nodesOf c.vi sel ≠ [] then s.endCmd c 5 0
            else
              let r := s.destroyNodes c.vi sel
              let s := if r.2 then r.1.dropRoots c.vi c.vi sel else r.1
              .next (s.schedule (s.cycle + 1) .ctxdestroy (.host c))

/-- CTXDESTROY (Table 25-4, R201). -/
def execCtxdestroy (s : State) : Host.Outcome State Fault Refusal := s.command cmdCtxdestroy

/-! ### MAP and UNMAP (R267, R373) -/

/-- Whether a page that MAP would write may be named by the interface (Table 25-4). -/
def State.mayMap (s : State) (v pa n : Nat) : Bool :=
  match memKind pa with
  | some .hbm | some .lpddr | some .pool => s.ownRange v pa n
  | some .rom | none => false
  | some .scratch =>
      (List.range ((pa % scratchSize + n + scratchSize - 1) / scratchSize)).all fun i =>
        (s.vif v).cores.testBit ((pa - scratchBase) / scratchSize + i)
  | some .host | some .peer => true

/-- The node suspended by a translation fault in a range of a context: a map that succeeds makes it READY, one that fails with
status 2 or 7 faults it (R201). -/
def State.mapped (s : State) (v ctx va n : Nat) (ok : Bool) : State :=
  (s.nodesOf v fun m => decide (m = ctx)).foldl (fun (s : State) e =>
    match e.2.st, e.2.faultVa with
    | .suspended, some a =>
        if va ≤ a ∧ a < va + n then
          (if ok then s.setNode e.1 { e.2 with st := .ready, readyAt := s.cycle, faultVa := none, victimOf := none }
           else s.faultNode e.1 e.2.faultRep)
        else s
    | _, _ => s) s

/-- The bits of op4 that Table 25-4 lists for MAP. -/
def mapBits : Nat := 0x1F7FE0

/-- MAP's size in Table 1-4's order, as level and code; none past its end. -/
def mapSize (c : HostCmd) : Option (Nat × Nat) := pageSizes.reverse[fld (cop c 4) 16 4]?

/-- The attributes of a MAP. -/
def mapAttr (c : HostCmd) : Nat := fld (cop c 4) 5 10

/-- Whether an operand of MAP is invalid (Table 25-4): another bit, a size past the list, an address or length out of step with the
size or out of range, or a leaf that R248 calls malformed. -/
def mapBad (c : HostCmd) : Bool :=
  match mapSize c with
  | none => true
  | some z =>
      let size := pageSize z
      !(cclean c 0 16) || decide (cop c 4 &&& mapBits ≠ cop c 4) || decide (cop c 1 % size ≠ 0) || decide (cop c 2 % size ≠ 0) ||
        decide (cop c 3 % size ≠ 0) || decide (2 ^ 48 < cop c 1 + cop c 3) || decide (2 ^ 52 < cop c 2 + cop c 3) ||
        !((List.range (cop c 3 / size)).all fun i => leafOk z.1 (leafEntry (cop c 2 + i * size) z.2 (mapAttr c) 65536))

/-- The device-physical frames of `[pa, pa + n)` that have an indirection entry. -/
def framesOf (pa n : Nat) : List Nat :=
  if viaDit pa ∧ n ≠ 0 then (List.range ((pa + n - 1) / 65536 + 1 - pa / 65536)).map fun i => pa / 65536 + i else []

/-- The firmware sets PIN on every frame that a counter page maps (R291). -/
def State.pinFrames (s : State) (pa n : Nat) : State :=
  (framesOf pa n).foldl (fun (s : State) f => s.setDit f { s.ditEntry f with pin := true }) s

/-- The checks of MAP after those of its operands, and its writes (R373): the state and whether it replaced a page, or the status, 7
where a node of the table or of the pool cannot be accessed (log entry 74). -/
def State.doMap (s : State) (c : HostCmd) (n : Nat) (x : Ctx) (root : Nat) : Except Nat (State × Bool) :=
  let va := (cop c 1)
  let pa := (cop c 2)
  let len := (cop c 3)
  match mapSize c with
  | none => .error 1
  | some z =>
      let size := pageSize z
      let count := len / size
      if !(List.range count).all fun i => s.mayMap c.vi (pa + i * size) size then .error 3
      else if !s.tablesOk va (va + len) 3 root 0 then .error 7
      else
        let old := s.pagesIn root va (va + len)
        let rom := decide (va < 0xFFFFF0100000) && decide (0xFFFFF0000000 < va + len)
        if (old ≠ [] ∨ rom) ∧ bit ((cop c 4)) 20 = false then .error 6
        else match s.cutPages x root va (va + len) old with
          | .error e => .error e
          | .ok (s, x) =>
              match s.mapPages x root (mapAttr c) z count va pa with
              | .error e => .error e
              | .ok (s, x) =>
                  let s := s.setCtx c.vi n (some x)
                  .ok (if (mapAttr c).testBit 7 then s.pinFrames pa len else s, !old.isEmpty || rom)

/-- Whether a frame that a MAP of a counter page would pin is moving; MAP waits for the end of the move (R252, R316; log entry 78). -/
def State.mapWaits (s : State) (c : HostCmd) : Bool :=
  (mapAttr c).testBit 7 && (framesOf (cop c 2) (cop c 3)).any fun f => (s.ditEntry f).mov

/-- MAP: a replaced page's translations are invalidated before it completes. -/
def cmdMap (c : HostCmd) (s : State) : Host.Outcome State Fault Refusal :=
  let z := pageSize ((mapSize c).getD (0, 0))
  let done (n : Nat) (s : State) := (s.mapped c.vi n ((cop c 1)) ((cop c 3)) true).endCmd c 0 ((cop c 3) / z)
  if mapBad c then s.endCmd c 1 0
  else s.withCtx c fun n x root =>
    if s.cmdTickets c.vi ≠ [] then s.afterTlbis c .map (done n)
    else if s.mapWaits c then .next (s.schedule (s.cycle + 1) .map (.host c))
    else match s.doMap c n x root with
      | .error e =>
          let s := if e = 2 ∨ e = 7 then s.mapped c.vi n ((cop c 1)) ((cop c 3)) false else s
          s.endCmd c e 0
      | .ok r =>
          if r.2 then
            let s := r.1.firmwareTlbi c.vi x.asid ((cop c 1)) ((cop c 3))
            .next (s.schedule (s.cycle + 1) .map (.host c))
          else done n r.1

/-- MAP (Table 25-4, R373). -/
def execMap (s : State) : Host.Outcome State Fault Refusal := s.command cmdMap

/-- Whether an operand of UNMAP is invalid (Table 25-4). -/
def unmapBad (c : HostCmd) : Bool :=
  !(cclean c 0 16) || decide (cop c 1 % 4096 ≠ 0) || decide (cop c 2 % 4096 ≠ 0) || decide (2 ^ 48 < cop c 1 + cop c 2)

/-- UNMAP: the pages go, the translations are invalidated, and the change is confirmed. A split that lacks nodes gives status 2, and a
node that cannot be accessed 7 (log entry 74). -/
def cmdUnmap (c : HostCmd) (s : State) : Host.Outcome State Fault Refusal :=
  if unmapBad c then s.endCmd c 1 0
  else s.withCtx c fun n x root =>
    let va := (cop c 1)
    let len := (cop c 2)
    if s.cmdTickets c.vi ≠ [] then s.afterTlbis c .unmap fun s => s.endCmd c 0 (s.ring c.vi).result
    else if !s.tablesOk va (va + len) 3 root 0 then s.endCmd c 7 0
    else
      let old := s.pagesIn root va (va + len)
      match s.cutPages x root va (va + len) old with
      | .error e => s.endCmd c e 0
      | .ok (s, x) =>
          let s := ((s.setCtx c.vi n (some x)).modRing c.vi fun r => { r with result := old.length }).firmwareTlbi c.vi x.asid va len
          .next (s.schedule (s.cycle + 1) .unmap (.host c))

/-- UNMAP (R267, R373). -/
def execUnmap (s : State) : Host.Outcome State Fault Refusal := s.command cmdUnmap

/-! ### ITINREG, SUBMIT, CREAD -/

/-- ITINREG. -/
def cmdItinreg (c : HostCmd) (s : State) : Host.Outcome State Fault Refusal :=
  let r := ((cop c 1), (cop c 2))
  if (cop c 1) % 65536 ≠ 0 ∨ (cop c 2) % 65536 ≠ 0 ∨ (cop c 2) = 0 ∨ (cclean c 3 1) = false then s.endCmd c 1 0
  else s.withCtx c fun n x _ =>
    if (cop c 3) = 1 then
      if x.itin.contains r then
        (s.setCtx c.vi n (some { x with itin := x.itin.erase r })).endCmd c 0 (x.itin.length - 1)
      else s.endCmd c 1 0
    else if !s.ownRange c.vi r.1 r.2 then s.endCmd c 3 0
    else if 16 ≤ x.itin.length then s.endCmd c 2 0
    else (s.setCtx c.vi n (some { x with itin := x.itin ++ [r] })).endCmd c 0 (x.itin.length + 1)

/-- ITINREG (R302, Table 25-4). -/
def execItinreg (s : State) : Host.Outcome State Fault Refusal := s.command cmdItinreg

/-- SUBMIT: the checks of R153; the nodes run after the command has completed. -/
def cmdSubmit (c : HostCmd) (s : State) : Host.Outcome State Fault Refusal :=
  s.withCtx c fun n x _ =>
    match s.checkGraph c.vi x.asid ((cop c 1)) with
    | .error e => .next (s.finishCmd c 4 e.1 e.2 0)
    | .ok p =>
        let r := s.enterGraph c.vi n p none
        .next ((r.1.finishCmd c 0 0 0 r.2.2).settleGraph r.2.1)

/-- SUBMIT (R153, R372). -/
def execSubmit (s : State) : Host.Outcome State Fault Refusal := s.command cmdSubmit

/-- CREAD: a plain load of a counter in a counter page. A counter behind a window of the own package that fails is a device read that
fails, status 7 (log entry 17). -/
def cmdCread (c : HostCmd) (s : State) : Host.Outcome State Fault Refusal :=
  s.withCtx c fun _ x _ =>
    match s.check unitFirmware x.asid true .load ((cop c 1)) with
    | .error _ => s.endCmd c 1 0
    | .ok t =>
        if (cop c 1) % 8 ≠ 0 ∨ pteC t.ent = false then s.endCmd c 1 0
        else match s.target (t.pa (cop c 1)) false with
          | some a => s.endCmd c 0 (s.readN a 8 % 2 ^ 48)
          | none => s.endCmd c 7 0

/-- CREAD_COMMAND (Table 25-4). -/
def execCreadCommand (s : State) : Host.Outcome State Fault Refusal := s.command cmdCread

/-! ### VIRESET (R358) -/

/-- Clear the scratchpads of the cores of an interface. -/
def State.clearScratch (s : State) (cores : Nat) : State :=
  { s with mem := s.mem.filter fun e => !(inSpans [(scratchBase, 176 * scratchSize)] e.1 &&
             cores.testBit ((e.1 - scratchBase) / scratchSize)) }

/-- Step 4 of R358: queues, groups and marks, lanes and channels. -/
def State.resetVif (s : State) (v : Nat) : State :=
  let s := s.modVif v fun x =>
    { x with corrals := [], nextHandle := 1, credits := (List.range 4).foldl (fun m p => SMap.set 1 m p x.weight) [] }
  let marks : List MirrorPair := (SMap.get [] s.mirrors v).map fun p => { p with lostP := false, lostS := false }
  let groups : SMap (Option Group) := s.groups.filter fun e => decide (e.1 / 4096 ≠ v)
  let s : State := { s with groups := groups, mirrors := SMap.set [] s.mirrors v marks }
  let s := s.tierLanes.foldl (fun (s : State) e => if s.laneOf v (e.1 / 8) (e.1 % 8) then s.releaseLane (e.1 / 8) (e.1 % 8) else s) s
  s.chans.foldl (fun (s : State) e => if (s.vif v).chans.testBit e.1 then s.releaseChan e.1 else s) s

/-- Whether every access of an interface has been performed (step 5 of R358): no message of its cores is on its way, and no write that
an ended gang left. -/
def State.vifQuiet (s : State) (v : Nat) : Bool :=
  let mine (n : Nat) : Bool := (s.vif v).cores.testBit n
  !((List.range 176).any fun n => mine n && s.lateFor n) &&
    !s.agenda.any fun d => decide (d.row = .atomicMessageArrival) && mine (d.args.nat 0)

/-- Disable the rings of an interface. -/
def State.disableRings (s : State) (v : Nat) : State :=
  let mine (d : Due) : Bool := match d.args with | .host c => decide (c.vi = v) | _ => false
  { s with agenda := s.agenda.filter fun d => !mine d }.modRing v fun r =>
    { r with qcfg := w64 (r.qcfg.toNat % 2 ^ 63), error := false, reason := 0, reading := none, entry := none }

/-- VIRESET: steps 1 and 2 until every node is final; then the contexts lose their translations and step 4; then the wait of step 5,
step 6 and the end. A command that the interface itself has in progress comes before the reset (log entry 48). -/
def cmdVireset (c : HostCmd) (s : State) : Host.Outcome State Fault Refusal :=
  if (c.vi = 0 ∧ (cclean c 0 6) = false) ∨ (c.vi ≠ 0 ∧ (cop c 0) ≠ 0) then s.endCmd c 1 0
  else
    let v := if c.vi = 0 then (cop c 0) else c.vi
    let again (s : State) : Host.Outcome State Fault Refusal := .next (s.schedule (s.cycle + 1) .vireset (.host c))
    if v ≠ c.vi ∧ (s.ring v).entry.isSome then again s
    else
      let r := s.destroyNodes v fun _ => true
      if !r.2 then again r.1
      else
        let t := (r.1.dropRoots c.vi v fun _ => true).resetVif v
        let ids := t.cmdTickets c.vi
        if t.ticketsDone ids && t.vifQuiet v then
          let t := ((t.syncTickets ids).dropCtxs v fun _ => true).clearScratch (t.vif v).cores
          .next ((t.finishCmd c 0 0 0 0).disableRings v)
        else again t

/-- VIRESET (R358). -/
def execVireset (s : State) : Host.Outcome State Fault Refusal := s.command cmdVireset

/-! ### ASSIGN (R345, R347) -/

/-- Whether an interface has a node on its cores. -/
def State.vifBusy (s : State) (v : Nat) : Bool := s.liveNodes.any fun e => decide (s.nodeVi e.2 = v) && e.2.resident

/-- The nodes of an interface that will resume on saved cores. -/
def State.vifSaved (s : State) (v : Nat) : List (Nat × Node) :=
  s.liveNodes.filter fun e => decide (s.nodeVi e.2 = v) && !e.2.saved.isEmpty

/-- The other interfaces. -/
def State.otherVifs (s : State) (v : Nat) : List Vif := (s.vifs.filter fun e => decide (e.1 ≠ v)).map fun e => e.2

/-- The bits set in `a` and not in `b`. -/
def bitsLost (a b : Nat) : List Nat := (List.range 256).filter fun i => a.testBit i && !b.testBit i

/-- Status of an assignment of item 0 (cores). -/
def State.assignCores (s : State) (v set : Nat) : Nat :=
  let old := (s.vif v).cores
  if 2 ^ 176 ≤ set then 1
  else if (s.otherVifs v).any fun x => decide (x.cores &&& set ≠ 0) then 3
  else if s.vifBusy v && decide (set ≠ old) then 5
  else if (bitsLost old set).any fun c => (s.vifSaved v).any fun e => e.2.cores.contains c then 5
  else 0

/-- Status of an assignment of item 2 (lanes): eight bits for each die. -/
def State.assignLanes (s : State) (v set : Nat) : Nat :=
  let old := (s.vif v).lanes
  let saved := (s.vifSaved v).map fun e => e.1
  if 2 ^ 48 ≤ set then 1
  else if (s.otherVifs v).any fun x => (List.range 6).any fun d => decide (SMap.get 0 x.lanes d &&& fld set (8 * d) 8 ≠ 0) then 3
  else if s.vifBusy v && (List.range 6).any (fun d => decide (SMap.get 0 old d ≠ fld set (8 * d) 8)) then 5
  else if (List.range 6).any fun d => (bitsLost (SMap.get 0 old d) (fld set (8 * d) 8)).any fun n =>
      (match (s.lane d n).node with | some i => saved.contains i | none => false) then 5
  else 0

/-- Status of an assignment of item 3 (relay channels). -/
def State.assignChans (s : State) (v set : Nat) : Nat :=
  let old := (s.vif v).chans
  let saved := (s.vifSaved v).map fun e => e.1
  if (s.otherVifs v).any fun x => decide (x.chans &&& set ≠ 0) then 3
  else if s.vifBusy v && decide (set ≠ old) then 5
  else if (bitsLost old set).any fun c => (match (s.chan c).node with | some i => saved.contains i | none => false) then 5
  else 0

/-- The lanes of item 2 as a table by die. -/
def laneTable (set : Nat) : SMap Nat := (List.range 6).foldl (fun m d => SMap.set 0 m d (fld set (8 * d) 8)) []

/-- The value of an assignment and its status: what the interface becomes. -/
def State.assignItem (s : State) (v item : Nat) (c : HostCmd) : Except Nat (Vif → Vif) :=
  let x := (cop c 2)
  let put (lo hi : Nat) (f : Vif → Vif) : Except Nat (Vif → Vif) := if lo ≤ x ∧ x ≤ hi then .ok f else .error 1
  let checked (st : Nat) (f : Vif → Vif) : Except Nat (Vif → Vif) := if st = 0 then .ok f else .error st
  match item with
  | 0 =>
      let set := x + 2 ^ 64 * (cop c 3) + 2 ^ 128 * (cop c 4)
      checked (s.assignCores v set) fun y => { y with cores := set }
  | 1 => put 1 255 fun y => { y with weight := x, credits := (List.range 4).foldl (fun m p => SMap.set 1 m p x) [] }
  | 2 => checked (s.assignLanes v x) fun y => { y with lanes := laneTable x }
  | 3 => checked (s.assignChans v x) fun y => { y with chans := x }
  | 4 =>
      if 7 < x then .error 1
      else if 56 < ((s.otherVifs v).map fun y => y.slots).foldl (· + ·) x then .error 3
      else .ok fun y => { y with slots := x }
  | 5 => put 0 3 fun y => { y with tclass := x }
  | 6 => put 20 30 fun y => { y with watchdog := x }
  | 7 => put 0 1024 fun y => { y with reserve := x }
  | _ =>
      if item < 24 then
        let lim := (cop c 3)
        if x = 0 ∧ lim = 0 then .ok fun y => { y with ranges := SMap.set (0, 0) y.ranges (item - 8) (0, 0) }
        else if x % 65536 ≠ 0 ∨ lim % 65536 ≠ 0 ∨ lim ≤ x then .error 1
        else .ok fun y => { y with ranges := SMap.set (0, 0) y.ranges (item - 8) (x, lim - x) }
      else .error 1

/-- Remove the mappings of a core's scratchpad from the contexts of an interface (R345), by the steps of R267. -/
def State.unmapCore (s : State) (cmdVi v : Nat) (core : Nat) : State :=
  let lo := scratchBase + core * scratchSize
  s.ctxs.foldl (fun (s : State) e => match e.2 with
    | none => s
    | some x =>
        if e.1 / 65536 ≠ v then s
        else match s.root x.asid with
          | none => s
          | some root =>
              let ps := (s.pagesIn root 0 (2 ^ 48)).filter fun t =>
                decide (pteAddr t.ent < lo + scratchSize ∧ lo < pteAddr t.ent + t.size)
              ps.foldl (fun (s : State) t =>
                let a := max lo (pteAddr t.ent) - pteAddr t.ent + t.vbase
                let b := min (lo + scratchSize) (pteAddr t.ent + t.size) - pteAddr t.ent + t.vbase
                match s.ctx v (e.1 % 65536) with
                | none => s
                | some x =>
                    let r := match s.cutPages x root a b [t] with | .ok r => r | .error _ => (s.dropPage root t, x)
                    (r.1.setCtx v (e.1 % 65536) (some r.2)).firmwareTlbi cmdVi x.asid a (b - a)) s) s

/-- The cores of a set that pass to interface `v` from another one, with that one: it had them last, and their scratchpads have not been
cleared since (R54, R345). -/
def State.passing (s : State) (v set : Nat) : List (Nat × Nat) :=
  s.owners.filterMap fun e => if set.testBit e.1 ∧ e.2 ≠ 0 ∧ e.2 ≠ v + 1 then some (e.1, e.2 - 1) else none

/-- The scratchpads of cores are to be cleared (R54). -/
def State.clearCores (s : State) (l : List Nat) : State :=
  l.foldl (fun (s : State) n =>
    { s with clears := if s.clears.contains n then s.clears else s.clears ++ [n] }.scheduleOpen 1 .scratchpadClear (.nats [n])) s

/-- The cores of a set have interface `v` as their last owner. -/
def State.own_ (s : State) (v set : Nat) : State :=
  { s with owners := ((List.range 176).filter fun n => set.testBit n).foldl (fun m n => SMap.set 0 m n (v + 1)) s.owners }

/-- ASSIGN. Before cores take effect that pass from another interface, their mappings go, by the steps of R267, and then their
scratchpads are cleared (R345); the checks of the assignment hold again at its effect. -/
def cmdAssign (c : HostCmd) (s : State) : Host.Outcome State Fault Refusal :=
  let v := (cop c 0)
  let item := (cop c 1)
  if c.vi ≠ 0 then s.endCmd c 3 0
  else if !(cclean c 0 6) then s.endCmd c 1 0
  else match s.assignItem v item c with
    | .error e => (s.syncTickets (s.cmdTickets c.vi)).endCmd c e 0
    | .ok f =>
        let set := if item = 0 then cop c 2 + 2 ^ 64 * cop c 3 + 2 ^ 128 * cop c 4 else 0
        let ps := s.passing v set
        let again (s : State) : Host.Outcome State Fault Refusal := .next (s.schedule (s.cycle + 1) .assign (.host c))
        let ids := s.cmdTickets c.vi
        if !s.ticketsDone ids then again s
        else
          let s := s.syncTickets ids
          if ps = [] then ((s.modVif v f).own_ v set).endCmd c 0 0
          else if ps.any fun p => s.clears.contains p.1 then again s
          else
            let t := ps.foldl (fun (s : State) p => s.unmapCore c.vi p.2 p.1) s
            if t.cmdTickets c.vi ≠ [] ∨ ps.any (fun p => t.lateFor p.1) = true then again t
            else again (t.clearCores (ps.map fun p => p.1))

/-- ASSIGN (R345). -/
def execAssign (s : State) : Host.Outcome State Fault Refusal := s.command cmdAssign

/-! ### FABCFG (R340, R341) -/

/-- FABCFG of a group. -/
def cmdGroup (c : HostCmd) (s : State) : Host.Outcome State Fault Refusal :=
  if (cop c 0) ≠ 0 ∨ !(cclean c 1 1) ∨ !(cclean c 2 12) ∨ !(cclean c 3 12) ∨ (cop c 4) % 8 ≠ 0 ∨ !(cclean c 5 16) then s.endCmd c 1 0
  else match s.ctx c.vi ((cop c 5)) with
    | none => s.endCmd c 3 0
    | some _ =>
        if memKind (hostAddr ((cop c 4))) ≠ some .host ∨ memKind (hostAddr ((cop c 4) + 511)) ≠ some .host then s.endCmd c 7 0
        else
          let m := s.readN (hostAddr ((cop c 4))) 512
          let g : Group := { root := (cop c 3), members := m, ctx := (cop c 5) }
          { s with groups := SMap.set none s.groups (4096 * c.vi + (cop c 2)) (if m = 0 then none else some g) }.endCmd c 0 0

/-- FABCFG_GROUP (R340). -/
def execFabcfgGroup (s : State) : Host.Outcome State Fault Refusal := s.command cmdGroup

/-- FABCFG of a mirror pair: it is added, its failed mark cleared, or it is removed. -/
def cmdMirror (c : HostCmd) (s : State) : Host.Outcome State Fault Refusal :=
  let ps := SMap.get [] s.mirrors c.vi
  let p := (cop c 2)
  let q := (cop c 3)
  let put (l : List MirrorPair) : Host.Outcome State Fault Refusal := { s with mirrors := SMap.set [] s.mirrors c.vi l }.endCmd c 0 0
  let is (x : MirrorPair) : Bool := decide (x.primary = p ∧ x.secondary = q)
  if (cop c 0) ≠ 0 ∨ !(cclean c 1 1) ∨ !(cclean c 2 12) ∨ !(cclean c 3 12) ∨ !(cclean c 4 2) then s.endCmd c 1 0
  else if (cop c 4) ≠ 0 then
    if !ps.any is then s.endCmd c 1 0
    else if bit ((cop c 4)) 1 then put (ps.filter fun x => !is x)
    else put (ps.map fun x => if is x then { x with lostP := false, lostS := false } else x)
  else if p = q ∨ ps.any (fun x => decide (x.primary = p)) = true then s.endCmd c 1 0
  else if 16 ≤ ps.length then s.endCmd c 2 0
  else put (ps ++ [{ primary := p, secondary := q, lostP := false, lostS := false }])

/-- FABCFG_MIRROR (R341). -/
def execFabcfgMirror (s : State) : Host.Outcome State Fault Refusal := s.command cmdMirror

/-! ### The Corral (R356, R357) -/

/-- Bytes of one batch buffer. -/
def Corral.stride (q : Corral) : Nat := (64 + 64 * q.n + 4095) / 4096 * 4096

/-- The checks of CORRAL's operands. -/
def corralBad (c : HostCmd) : Bool :=
  !(cclean c 1 5) || decide ((cop c 3) % 4096 ≠ 0) || decide (fld ((cop c 4)) 0 16 = 0) || decide (4096 < fld ((cop c 4)) 0 16) ||
    decide (fld ((cop c 4)) 20 12 ≠ 0) || decide (fld ((cop c 4)) 32 32 = 0) || decide (1000000 < fld ((cop c 4)) 32 32)

/-- Set up a gather queue: its node record is read and checked (R36, R356). -/
def State.setUp (s : State) (c : HostCmd) (n : Nat) (x : Ctx) (put : Option Corral → Host.Outcome State Fault Refusal) :
    Host.Outcome State Fault Refusal :=
  match s.fwRead x.asid ((cop c 2)) 64 with
  | none => s.endCmd c 7 0
  | some bs =>
      let r := leNat bs
      if (cop c 2) % 64 ≠ 0 ∨ nrBad r = true then .next (s.finishCmd c 4 2 0 0)
      else
        let b := fld ((cop c 4)) 16 4
        put (some { ctx := n, record := r, base := (cop c 3), n := fld ((cop c 4)) 0 16, buffers := if b = 0 then 16 else b,
                    deadline := fld ((cop c 4)) 32 32, pending := [], seq := 0, nextBuf := 0, busy := [], removing := false })

/-- CORRAL: set up or remove a gather queue. -/
def cmdCorral (c : HostCmd) (s : State) : Host.Outcome State Fault Refusal :=
  s.withCtx c fun n x _ =>
    let q := (cop c 1) % 16
    let old := SMap.get none (s.vif c.vi).corrals q
    let put (y : Option Corral) : Host.Outcome State Fault Refusal :=
      (s.modVif c.vi fun v => { v with corrals := SMap.set none v.corrals q y }).endCmd c 0 0
    if bit ((cop c 1)) 4 then
      match old with
      | none => s.endCmd c 1 0
      | some y => put (if y.pending.isEmpty && y.busy.isEmpty then none else some { y with removing := true })
    else if corralBad c then s.endCmd c 1 0
    else match old with
      | some y => if y.pending.isEmpty && y.busy.isEmpty then s.setUp c n x put else s.endCmd c 5 0
      | none => s.setUp c n x put

/-- CORRAL (R356). -/
def execCorral (s : State) : Host.Outcome State Fault Refusal := s.command cmdCorral

/-- ENQUEUE: append a request. -/
def cmdEnqueue (c : HostCmd) (s : State) : Host.Outcome State Fault Refusal :=
  let q := fld ((cop c 0)) 16 4
  match s.cmdCtx c with
  | none => s.endCmd c 3 0
  | some (n, _, _) =>
      match SMap.get none (s.vif c.vi).corrals q with
      | none => s.endCmd c 1 0
      | some y =>
          if y.ctx ≠ n ∨ y.removing = true then s.endCmd c 1 0
          else if 65536 ≤ y.pending.length then s.endCmd c 2 0
          else
            let r : Request := { ops := [c.op0, c.op1, c.op2, c.op3, c.op4, c.op5], tag := c.tag.toNat, placed := s.cycle }
            (s.modVif c.vi fun v => { v with corrals := SMap.set none v.corrals q (some { y with pending := y.pending ++ [r] }) }).endCmd
              c 0 (y.pending.length + 1)

/-- ENQUEUE (R357). -/
def execEnqueue (s : State) : Host.Outcome State Fault Refusal := s.command cmdEnqueue

/-- The requests of earlier cycles. -/
def Corral.ripe (q : Corral) (cycle : Nat) : List Request := q.pending.filter fun r => decide (r.placed < cycle)

/-- The next free buffer, in buffer order. -/
def Corral.freeBuf (q : Corral) : Option Nat :=
  ((List.range q.buffers).map fun i => (q.nextBuf + i) % q.buffers).find? fun b => !q.busy.contains b

/-- Whether a batch is formed by size. -/
def Corral.bySize (q : Corral) (cycle : Nat) : Bool := decide (q.n ≤ (q.ripe cycle).length)

/-- Whether a batch is formed in this cycle. -/
def Corral.forms (q : Corral) (cycle : Nat) : Bool :=
  q.freeBuf.isSome && (q.bySize cycle || (match q.ripe cycle with
    | [] => false
    | r :: _ => decide (r.placed + 1200 * q.deadline ≤ cycle)))

/-- The batch record (Table 25-7). -/
def batchBytes (q : Corral) (n cycle : Nat) (rs : List Request) : List Byte :=
  leBytes 8 (rs.length + n * 65536 + (if q.bySize cycle then 0 else 1048576)) ++ leBytes 8 q.seq ++
    leBytes 8 (match rs with | r :: _ => r.placed | [] => 0) ++ leBytes 8 cycle ++ leBytes 32 0 ++
    rs.flatMap fun r =>
      ((r.ops.drop 1 ++ r.ops.take 1).flatMap fun w => leBytes 8 w.toNat) ++ leBytes 8 r.placed ++ leBytes 8 (r.tag % 2 ^ 32)

/-- What the firmware writes in other packages travels in traffic class 0 (R347), by the egress of die 0. -/
def State.fwSend (s : State) : List (Nat × Nat × Nat) → List Byte → State
  | [], _ => s
  | p :: t, bs =>
      let s := if memKind p.1 = some MemKind.peer then
          s.inject .none (Config.meshSpot unitFirmware)
            { id := 0, src := 0, dst := fld p.1 39 12, aperture := p.1 % 2 ^ 39, op := .store p.2.1 (leNat (bs.take p.2.1)), die := 0,
              party := unitFirmware, dstDie := p.1 / 2 ^ 36 % 8 % 6, kind := pteKind p.2.2, cls := 0 }
        else s
      s.fwSend t (bs.drop p.2.1)

/-- Write bytes at a virtual address of a context, as the firmware does; none where a byte cannot be written. -/
def State.fwWrite (s : State) (asid va : Nat) (bs : List Byte) : Option State :=
  match s.unitCheck unitFirmware asid .store (rangePieces va bs.length) with
  | .error _ => none
  | .ok (_, ps) =>
      match s.targets true (ps.map fun p => p.1) with
      | none => none
      | some as => some ((s.scatter (as.zip (ps.map fun p => p.2.1)) bs).fwSend ((as.zip ps).map fun p => (p.1, p.2.2)) bs)

/-- The node record of a batch: its arg_base is the buffer's address. -/
def batchRecord (r buf : Nat) : Nat := r - fld r 128 64 * 2 ^ 128 + buf % 2 ^ 64 * 2 ^ 128

/-- BATCH_FORM (R357): the operands are the interface and the queue. -/
def execBatchForm (s : State) : Host.Outcome State Fault Refusal :=
  let v := s.ev.nat 0
  let n := s.ev.nat 1
  match SMap.get none (s.vif v).corrals n with
  | none => .next s
  | some q =>
      match q.freeBuf with
      | none => .next s
      | some b =>
          if !q.forms s.cycle then .next s
          else
            let rs := (q.ripe s.cycle).take q.n
            let buf := q.base + b * q.stride
            let q' := { q with pending := q.pending.drop rs.length, seq := q.seq + 1, nextBuf := (b + 1) % q.buffers, busy := q.busy ++ [b] }
            let s := s.modVif v fun x => { x with corrals := SMap.set none x.corrals n (some q') }
            let refuse (s : State) : State := (s.freeBuffer v n b).postEvent v (eventWord 5 0 q.ctx 0 0 0xFFFF 0 0 0 0 0)
            match s.ctx v q.ctx with
            | none => .next (refuse s)
            | some x =>
                match s.fwWrite x.asid buf (batchBytes q n s.cycle rs) with
                | none => .next (refuse s)
                | some s =>
                    match s.checkNodes v x.asid { recs := [batchRecord q.record buf], edges := [], doneCtr := 0 } (some []) with
                    | .error _ => .next (refuse s)
                    | .ok p =>
                        let r := s.enterGraph v q.ctx p (some (n, b, q.seq, rs.length))
                        .next (r.1.settleGraph r.2.1)

end Sys2Proof.Machine
end

