-- ==== Sys2Proof/Machine/Manage.lean ====
section
/-!
DEFINITION. Reset, power and management (R359-R367), the registers of a function's BAR (Table 25-1, Table 27-1) and the debugger's
halt of a core (R73, R366).
-/

namespace Sys2Proof.Machine

/-! ### Power-on reset (R359) -/

/-- Whether a media address lies in a scratchpad. -/
def inScratch (a : Nat) : Bool := decide (memKind a = some .scratch)

/-- Step 1: clocks start at CYCLE 0 and nothing is under way any more. Memory outside the scratchpads keeps what it holds. -/
def State.resetClocks (s : State) : State :=
  { State.reset with
    mem := s.mem, dit := s.dit, pools := s.pools, nodes := s.nodes, chans := s.chans, vifs := s.vifs, rings := s.rings,
    groups := s.groups, mirrors := s.mirrors, torus := s.torus, linksDown := s.linksDown, pkg := s.pkg, tripRec := s.tripRec,
    times := s.times, nextId := s.nextId, freeCtr := s.freeCtr, cfgReply := s.cfgReply, resetStep := 1 }

/-- A later step of R359. -/
def State.resetStage (s : State) (k : Nat) : State :=
  let s := { s with resetStep := k }
  match k with
  | 2 => { s with dit := [], pools := [] }
  | 3 => { s with cores := [], mem := s.mem.filter fun e => !inScratch e.1, nodes := [], graphs := [], chans := [] }
  | 4 => { s with vifs := [], rings := [], ctxs := [], groups := [], mirrors := [] }
  | 5 => { s with torus := (0, 0, 0), pkg := 0, linksDown := [], windows := [] }
  | _ => s

/-- Begin power-on reset. -/
def State.powerOn (s : State) : State := s.resetClocks.scheduleOpen 1 .powerOnReset (.nats [2])

/-- The firmware sets the extents nx, ny, nz of the torus, 1 to 16 each, and the package's coordinates in it (R335). -/
def State.setTorus (s : State) (n c : Nat × Nat × Nat) : State :=
  let ok (n c : Nat) : Bool := decide (1 ≤ n ∧ n ≤ 16 ∧ c < n)
  if ok n.1 c.1 && ok n.2.1 c.2.1 && ok n.2.2 c.2.2 then
    { s with torus := (n.1 - 1, n.2.1 - 1, n.2.2 - 1), pkg := c.1 + 16 * c.2.1 + 256 * c.2.2 }
  else s

/-- The firmware sets the base of aperture window `w`, 64 GiB-aligned, or disables it: `b` is the base plus one, or 0 (R244). -/
def State.setWindow (s : State) (w b : Nat) : State :=
  if w < 8 ∧ (b = 0 ∨ (b - 1) % 2 ^ 36 = 0) then { s with windows := SMap.set 0 s.windows w b } else s

/-- POWER_ON_RESET (R359): the operand is the step, 0 when the supplies come up. Steps follow one another after open times. What the
firmware sets once reset is complete comes with 6, the extents and the coordinates of the torus, and with 7, a window and its base plus
one (log entry 82). -/
def execPowerOnReset (s : State) : Host.Outcome State Fault Refusal :=
  let k := s.ev.nat 0
  let g := fun i => s.ev.nat i
  if k = 6 ∧ s.resetStep = 5 then .next (s.setTorus (g 1, g 2, g 3) (g 4, g 5, g 6))
  else if k = 7 ∧ s.resetStep = 5 then .next (s.setWindow (g 1) (g 2))
  else if k = 0 then .next s.powerOn
  else if k = s.resetStep + 1 ∧ k ≤ 5 then
    let s := s.resetStage k
    .next (if k < 5 then s.scheduleOpen 1 .powerOnReset (.nats [k + 1]) else s)
  else .next s

/-- RSTCTL_RESET (R365). -/
def execRstctlReset (s : State) : Host.Outcome State Fault Refusal := .next s.powerOn

/-- RSTCTL_CLEAR_TRIP (R364). -/
def execRstctlClearTrip (s : State) : Host.Outcome State Fault Refusal := .next { s with tripRec := 0 }

/-- CONFIGURATION_REQUEST (R359): answered after step 4 of reset, completed with Retry Status before. -/
def execConfigurationRequest (s : State) : Host.Outcome State Fault Refusal :=
  .next { s with cfgReply := some (decide (4 ≤ s.resetStep)) }

/-! ### Heat (R362, R364) -/

/-- The next thermal level of a die. -/
def nextThermal (lt temp now cap : Nat) : Nat :=
  if 95 ≤ temp ∨ cap < now then min 7 (lt + 1)
  else if temp ≤ 90 ∧ now + 100 ≤ cap then lt - 1
  else lt

/-- THERMAL_UPDATE (R362): the operand is the die, whose level is updated from the last readings. With two more operands it is
such a reading: the die's hottest sensor and the module power. -/
def execThermalUpdate (s : State) : Host.Outcome State Fault Refusal :=
  let d := s.ev.nat 0
  match s.ev with
  | .nats [_, temp, now] => .next { s with temps := SMap.set 0 s.temps d temp, pwrNow := now }
  | _ =>
      if s.cycle % 1200000 = 0 ∧ d < 6 then
        .next { s with thermal := SMap.set 0 s.thermal d
                         (nextThermal (SMap.get 0 s.thermal d) (SMap.get 0 s.temps d) s.pwrNow s.pwrCap) }
      else .next s

/-- THERMAL_TRIP (R364): the operands are the die and the reading of its sensor. At 110 °C or more power is removed. -/
def execThermalTrip (s : State) : Host.Outcome State Fault Refusal :=
  let d := s.ev.nat 0
  if 110 ≤ s.ev.nat 1 then .next { s with tripRec := 1 + 2 * (d % 8), power := false } else .next s

/-! ### Debugger (R73, R366) -/

/-- DEBUG_HALT_REQUEST (R73): the operand is the core. -/
def execDebugHaltRequest (s : State) : Host.Outcome State Fault Refusal :=
  if s.dbgen then .next (s.haltCore (s.ev.nat 0)) else .next s

/-- A cluster goes on from a halt. -/
def Cluster.unhalt (c : Cluster) : Cluster :=
  match c.act with
  | .halted true =>
      { c with act := .waiting { kind := .queue 0, instr := .nop, ea := 0, vals := [1], since := 0, sync := true } }
  | .halted false => { c with act := .running }
  | .waiting h => if h.kind = .runtime ∧ h.vals = [] then c.leaveTrap else c
  | _ => c

/-- A core goes on from a debugger halt; a halt not yet taken is withdrawn. While its gang is being stopped its clusters stay
halted. -/
def State.resumeCore (s : State) (n : Nat) : State :=
  let stay := decide (s.coreStop n ≠ .none)
  s.modCore n fun k =>
    let k := clusters.foldl (fun (k : Core) c =>
      let x := k.cluster c
      let x := if x.event.map (fun e => e.1) = some 1 then { x with event := none } else x
      k.setCluster c (if stay then x else x.unhalt)) k
    { k with halted := false }

/-- DEBUG_RESUME (R73): the operand is the core. -/
def execDebugResume (s : State) : Host.Outcome State Fault Refusal := .next (s.resumeCore (s.ev.nat 0))

/-- DBGEN_WRITE (R365, R366): the operand is the value; clearing DBGEN resumes every halted core. -/
def execDbgenWrite (s : State) : Host.Outcome State Fault Refusal :=
  match s.ev.nat 0 with
  | 0 =>
      let halted := (s.cores.filter fun e => e.2.halted).map fun e => e.1
      .next (halted.foldl State.resumeCore { s with dbgen := false })
  | 1 => .next { s with dbgen := true }
  | _ => .next s

/-- Whether a core is halted with every cluster stopped. -/
def Core.debugged (k : Core) : Bool := k.halted && clusters.all fun c => !(k.cluster c).live

/-- The number of a queue entry's state (Table 5-4). -/
def QState.number : QState → Nat
  | .free => 0
  | .reserved => 1
  | .filled => 2
  | .poisoned => 3

/-- What a debugger reads of core `n`, which is halted (R73): all of Table 5-1 but the weight planes, the queue entries, the lock counts
and the system registers. -/
def State.debugRead (s : State) (n : Nat) : DebugTarget → Nat
  | .x c r => ((s.cluster n c).readX r).toNat
  | .p c r => ((s.cluster n c).readP r).toNat
  | .pc c => (s.cluster n c).pc.toNat
  | .sys c r => ({ s with curCore := n, curCl := c }.sysRead r).toNat
  | .tile t r c => ((s.core n).tile t r c).toNat
  | .queueState q e => ((s.core n).qEntry q e).st.number
  | .queueData q e b => ((s.core n).qEntry q e).data / 256 ^ b % 256
  | .sreg i => (SMap.get 0 (s.core n).sregs i).toNat
  | .ireg i => (SMap.get 0 (s.core n).iregs i).toNat
  | .dval d e p => (SMap.get 0 (s.core n).dval (512 * d + 8 * e + p)).toNat
  | .dweight d e p => (SMap.get 0 (s.core n).dwt (512 * d + 8 * e + p)).toNat
  | .dtag d => (SMap.get 0 (s.core n).dtags d).toNat
  | .kslot i => (SMap.get 0 (s.core n).k i).toNat
  | .acc a r c => (SMap.get 0 (s.core n).acc (4096 * a + 64 * r + c)).toNat
  | .lockCount t => SMap.get 0 (s.core n).locks t
  | .tcb => (s.core n).tcb.toNat
  | .codebook i => (SMap.get 0 (s.core n).codebook i).toNat
  | .copySr => (s.core n).copySr.toNat
  | .scratch off => (s.byte (scratchBase + n * scratchSize + off % scratchSize)).toNat

/-- A queue entry's state by number (Table 5-4). -/
def queueState : Nat → QState
  | 0 => .free
  | 1 => .reserved
  | 2 => .filled
  | _ => .poisoned

/-- A debugger write to the state of a core. -/
def Core.debugWrite (k : Core) (t : DebugTarget) (v : Nat) : Core :=
  match t with
  | .x c r => k.setCluster c ((k.cluster c).writeX r (w64 v))
  | .p c r => k.setCluster c ((k.cluster c).writeP r (BitVec.ofNat 16 v))
  | .pc c => k.setCluster c { k.cluster c with pc := w64 (v - v % 4) }
  | .sys _ _ | .scratch _ => k
  | .tile t r c => { k with tiles := SMap.set 0 k.tiles (tileKey t r c) (BitVec.ofNat 32 v) }.dropLatch [t]
  | .queueState q e => k.setQEntry q e { k.qEntry q e with st := queueState v }
  | .queueData q e b =>
      let x := k.qEntry q e
      k.setQEntry q e { x with data := x.data - x.data / 256 ^ b % 256 * 256 ^ b + v % 256 * 256 ^ b }
  | .sreg n => { k with sregs := SMap.set 0 k.sregs n (BitVec.ofNat 256 v) }
  | .ireg n => { k with iregs := SMap.set 0 k.iregs n (BitVec.ofNat 1024 v) }
  | .dval d e p => { k with dval := SMap.set 0 k.dval (512 * d + 8 * e + p) (BitVec.ofNat 32 v) }
  | .dweight d e p => { k with dwt := SMap.set 0 k.dwt (512 * d + 8 * e + p) (BitVec.ofNat 32 v) }
  | .dtag d => { k with dtags := SMap.set 0 k.dtags d (BitVec.ofNat 16 v) }
  | .kslot n => { k with k := SMap.set 0 k.k n (w64 v) }
  | .acc a r c => { k with acc := SMap.set 0 k.acc (4096 * a + 64 * r + c) (BitVec.ofNat 128 v) }
  | .lockCount t => { k with locks := SMap.set 0 k.locks t v }
  | .tcb => { k with tcb := w64 v }
  | .codebook i => { k with codebook := SMap.set 0 k.codebook i (BitVec.ofNat 8 v) }
  | .copySr => { k with copySr := BitVec.ofNat 32 v }

/-- A debugger write to a system register of cluster `c` of core `n` (R73, Table 5-3): every field is written, the mode among them, and
reserved bits are dropped. The numbers of the cluster and of the core are fixed; of TLOCK a clear bit clears the lock count and a set
bit leaves a count at 1 at least; LDEPTH does not take 3 (log entry 61). -/
def State.debugSys (s : State) (n c r v : Nat) : State :=
  let t := { s with curCore := n, curCl := c }
  match r with
  | 0x000 => s.modCluster n c fun k =>
      { k with flags := BitVec.ofNat 5 v, rnd := BitVec.ofNat 3 (v / 32), super := v.testBit 8 }
  | 0x002 => t.sysWrite r (w64 (v % 2 ^ 8))
  | 0x004 => t.sysWrite r (w64 (v % 2 ^ 6))
  | 0x005 => t.sysWrite r (w64 (v - v % 4))
  | 0x010 | 0x013 => s
  | 0x011 => s.modCore n fun k => { k with grank := BitVec.ofNat 6 v }
  | 0x012 => s.modCore n fun k => { k with aCores := BitVec.ofNat 8 v, fCores := BitVec.ofNat 8 (v / 256) }
  | 0x014 => s.modCore n fun k => { k with asid := BitVec.ofNat 16 v }
  | 0x015 => s.modCore n fun k => { k with vifn := BitVec.ofNat 6 v }
  | 0x016 => { s with cycleSkew := SMap.set 0 s.cycleSkew n (w64 v - w64 s.cycle) }
  | 0x017 => s.modCore n fun k =>
      { k with locks := (List.range 32).foldl (fun m i =>
          SMap.set 0 m i (if v.testBit i then max 1 (SMap.get 0 m i) else 0)) k.locks }
  | 0x026 => if v % 4 = 3 then s else t.sysWrite r (w64 (v % 4))
  | 0x031 => s.modCore n fun k => { k with tagAlloc := BitVec.ofNat 16 v, tagSnap := BitVec.ofNat 16 v }
  | _ => t.sysWrite r (w64 v)

/-- DEBUG_STATE_WRITE (R73): the operands are the core, what is written and the value. The core is halted. -/
def execDebugStateWrite (s : State) : Host.Outcome State Fault Refusal :=
  match s.ev with
  | .debug n t v =>
      if !(s.core n).debugged then .next s
      else match t with
        | .sys c r => .next (s.debugSys n c r v)
        | .scratch off => .next (s.setByte (scratchBase + n * scratchSize + off % scratchSize) (BitVec.ofNat 8 v))
        | t => .next (s.modCore n fun k => k.debugWrite t v)
  | _ => .next s

/-! ### Registers (Table 25-1, Table 27-1) -/

/-- QSTAT. -/
def Ring.qstat (r : Ring) : Nat :=
  r.enabled.toNat + 2 * r.error.toNat + 4 * (r.reason % 4) + 65536 * (if r.enabled then r.handled % r.size else 0)

/-- What the host reads at an offset of a function's BAR. -/
def State.barRead (s : State) (v off : Nat) : Nat :=
  let r := s.ring v
  match off with
  | 0x00 => r.sqBase.toNat
  | 0x08 => r.cqBase.toNat
  | 0x10 => r.eqBase.toNat
  | 0x18 => r.qcfg.toNat
  | 0x58 => r.qstat
  | _ =>
      if v ≠ 0 then 0
      else match off with
        | 0x8000 => 0x176A + Config.stepping.toNat % 256 * 65536
        | 0x8010 => s.dbgen.toNat
        | 0x8018 => s.pwrCap
        | 0x8020 => s.pwrNow
        | 0x8028 => (List.range 7).foldl (fun a k => a + SMap.get 0 s.temps k % 256 * 2 ^ (8 * k)) 0
        | 0x8030 => (List.range 6).foldl (fun a k => a + SMap.get 0 s.thermal k % 8 * 2 ^ (3 * k)) 0
        | 0x8038 => s.tripRec
        | 0x8040 => s.flogCnt
        | _ =>
            if 0x9000 ≤ off ∧ off < 0xA000 then SMap.get 0 s.flog ((off - 0x9000) / 16) / 2 ^ (8 * (off % 16)) % 2 ^ 64 else 0

/-- REGISTER_WRITE (R348, R365): the operands are the interface, the offset and the value. The base addresses are ignored while the
rings are enabled; every write to a read-only register, out of range, or of another interface to a management register is
ignored. -/
def execRegisterWrite (s : State) : Host.Outcome State Fault Refusal :=
  let v := s.ev.nat 0
  let x := s.ev.nat 2
  let base (f : Ring → Ring) : State := if (s.ring v).enabled then s else s.modRing v f
  match s.ev.nat 1 with
  | 0x00 => .next (base fun r => { r with sqBase := w64 x })
  | 0x08 => .next (base fun r => { r with cqBase := w64 x })
  | 0x10 => .next (base fun r => { r with eqBase := w64 x })
  | 0x48 => .next (s.modRing v fun r => { r with cqHead := x % 4096 })
  | 0x8018 => if v = 0 ∧ 1500 ≤ x ∧ x ≤ 3400 then .next { s with pwrCap := x } else .next s
  | _ => .next s

end Sys2Proof.Machine
end

