-- ==== Sys2Proof/Machine/Issue.lean ====
section
/-!
DEFINITION. The checks and the effect of every cluster instruction as one table, and the issue of a wide word (R61, R62, R184, R274).
-/

namespace Sys2Proof.Machine

/-- The issue of an instruction of the cluster under way, without the S bit; the rows that are not cluster instructions do
nothing here. -/
def issueBody (i : Instr) : State → Res :=
  match i with
  | .add o => bodyAdd o
  | .sub o => bodySub o
  | .and o => bodyAnd o
  | .or o => bodyOr o
  | .xor o => bodyXor o
  | .shl o => bodyShl o
  | .shr o => bodyShr o
  | .sar o => bodySar o
  | .min o => bodyMin o
  | .max o => bodyMax o
  | .minu o => bodyMinu o
  | .maxu o => bodyMaxu o
  | .seq o => bodySeq o
  | .sne o => bodySne o
  | .slt o => bodySlt o
  | .sltu o => bodySltu o
  | .sge o => bodySge o
  | .sgeu o => bodySgeu o
  | .clz o => bodyClz o
  | .popc o => bodyPopc o
  | .mul o => bodyMul o
  | .mulh o => bodyMulh o
  | .mulhu o => bodyMulhu o
  | .div o => bodyDiv o
  | .divu o => bodyDivu o
  | .rem o => bodyRem o
  | .remu o => bodyRemu o
  | .sel o => bodySel o
  | .leaX1 o => bodyLeaX1 o
  | .leaX2 o => bodyLeaX2 o
  | .leaX4 o => bodyLeaX4 o
  | .leaX8 o => bodyLeaX8 o
  | .addi o => bodyAddi o
  | .subi o => bodySubi o
  | .muli o => bodyMuli o
  | .divi o => bodyDivi o
  | .remi o => bodyRemi o
  | .andi o => bodyAndi o
  | .ori o => bodyOri o
  | .xori o => bodyXori o
  | .shli o => bodyShli o
  | .shri o => bodyShri o
  | .sari o => bodySari o
  | .slti o => bodySlti o
  | .sltiu o => bodySltiu o
  | .seqi o => bodySeqi o
  | .mini o => bodyMini o
  | .maxi o => bodyMaxi o
  | .lit o => bodyLit o
  | .addLit o => bodyAddLit o
  | .subLit o => bodySubLit o
  | .andLit o => bodyAndLit o
  | .orLit o => bodyOrLit o
  | .xorLit o => bodyXorLit o
  | .shlLit o => bodyShlLit o
  | .shrLit o => bodyShrLit o
  | .sarLit o => bodySarLit o
  | .minLit o => bodyMinLit o
  | .maxLit o => bodyMaxLit o
  | .minuLit o => bodyMinuLit o
  | .maxuLit o => bodyMaxuLit o
  | .seqLit o => bodySeqLit o
  | .sneLit o => bodySneLit o
  | .sltLit o => bodySltLit o
  | .sltuLit o => bodySltuLit o
  | .sgeLit o => bodySgeLit o
  | .sgeuLit o => bodySgeuLit o
  | .mulLit o => bodyMulLit o
  | .mulhLit o => bodyMulhLit o
  | .mulhuLit o => bodyMulhuLit o
  | .divLit o => bodyDivLit o
  | .divuLit o => bodyDivuLit o
  | .remLit o => bodyRemLit o
  | .remuLit o => bodyRemuLit o
  | .ldB o => bodyLdB o
  | .ldBu o => bodyLdBu o
  | .ldH o => bodyLdH o
  | .ldHu o => bodyLdHu o
  | .ldW o => bodyLdW o
  | .ldWu o => bodyLdWu o
  | .ldD o => bodyLdD o
  | .stB o => bodyStB o
  | .stH o => bodyStH o
  | .stW o => bodyStW o
  | .stD o => bodyStD o
  | .lda o => bodyLda o
  | .stl o => bodyStl o
  | .ldq o => bodyLdq o
  | .qpop o => bodyQpop o
  | .qpeek o => bodyQpeek o
  | .qpush o => bodyQpush o
  | .qlen o => bodyQlen o
  | .beq o => bodyBeq o
  | .bne o => bodyBne o
  | .blt o => bodyBlt o
  | .bge o => bodyBge o
  | .bltu o => bodyBltu o
  | .bgeu o => bodyBgeu o
  | .jmp o => bodyJmp o
  | .jal o => bodyJal o
  | .jr o => bodyJr o
  | .loop o => bodyLoop o
  | .loopi o => bodyLoopi o
  | .cadd o => bodyCadd o
  | .caddRemote o => bodyCaddRemote o
  | .caddPage o => bodyCaddPage o
  | .cwait o => bodyCwait o
  | .cwaitPage o => bodyCwaitPage o
  | .cread o => bodyCread o
  | .creadRemote o => bodyCreadRemote o
  | .creadPage o => bodyCreadPage o
  | .crst o => bodyCrst o
  | .crstPage o => bodyCrstPage o
  | .fence o => bodyFence o
  | .aadd o => bodyAadd o
  | .amin o => bodyAmin o
  | .amax o => bodyAmax o
  | .aminu o => bodyAminu o
  | .amaxu o => bodyAmaxu o
  | .aand o => bodyAand o
  | .aor o => bodyAor o
  | .axor o => bodyAxor o
  | .aswp o => bodyAswp o
  | .acas o => bodyAcas o
  | .afadd o => bodyAfadd o
  | .pand o => bodyPand o
  | .por o => bodyPor o
  | .pnot o => bodyPnot o
  | .pset o => bodyPset o
  | .vmov o => bodyVmov o
  | .vsplat o => bodyVsplat o
  | .vins o => bodyVins o
  | .vext o => bodyVext o
  | .renq o => bodyRenq o
  | .dlaunch o => bodyDlaunch o
  | .srd o => bodySrd o
  | .swr o => bodySwr o
  | .spguard o => bodySpguard o
  | .tlbi o => bodyTlbi o
  | .vadd o => bodyVadd o
  | .vsub o => bodyVsub o
  | .vmul o => bodyVmul o
  | .vfma o => bodyVfma o
  | .vmin o => bodyVmin o
  | .vmax o => bodyVmax o
  | .vaddLit o => bodyVaddLit o
  | .vsubLit o => bodyVsubLit o
  | .vmulLit o => bodyVmulLit o
  | .vfmaLit o => bodyVfmaLit o
  | .vminLit o => bodyVminLit o
  | .vmaxLit o => bodyVmaxLit o
  | .viadd o => bodyViadd o
  | .visub o => bodyVisub o
  | .vimul o => bodyVimul o
  | .vand o => bodyVand o
  | .vor o => bodyVor o
  | .vxor o => bodyVxor o
  | .vshl o => bodyVshl o
  | .vshr o => bodyVshr o
  | .vsar o => bodyVsar o
  | .vsel o => bodyVsel o
  | .vcmp o => bodyVcmp o
  | .viaddLit o => bodyViaddLit o
  | .visubLit o => bodyVisubLit o
  | .vimulLit o => bodyVimulLit o
  | .vandLit o => bodyVandLit o
  | .vorLit o => bodyVorLit o
  | .vxorLit o => bodyVxorLit o
  | .vshlLit o => bodyVshlLit o
  | .vshrLit o => bodyVshrLit o
  | .vsarLit o => bodyVsarLit o
  | .vselLit o => bodyVselLit o
  | .vcmpLit o => bodyVcmpLit o
  | .vrotc o => bodyVrotc o
  | .vbcc o => bodyVbcc o
  | .vredc o => bodyVredc o
  | .vrotw o => bodyVrotw o
  | .vbcw o => bodyVbcw o
  | .vbcwCol o => bodyVbcwCol o
  | .vredw o => bodyVredw o
  | .vtrn o => bodyVtrn o
  | .vrcp o => bodyVrcp o
  | .vrsq o => bodyVrsq o
  | .vsqrt o => bodyVsqrt o
  | .vexp2 o => bodyVexp2 o
  | .vlog2 o => bodyVlog2 o
  | .vsin o => bodyVsin o
  | .vcos o => bodyVcos o
  | .vtanh o => bodyVtanh o
  | .vsigm o => bodyVsigm o
  | .verf o => bodyVerf o
  | .vcvt o => bodyVcvt o
  | .vpack o => bodyVpack o
  | .vunpk o => bodyVunpk o
  | .vld o => bodyVld o
  | .vst o => bodyVst o
  | .vldg o => bodyVldg o
  | .vsts o => bodyVsts o
  | .vqpop o => bodyVqpop o
  | .vqpush o => bodyVqpush o
  | .ild o => bodyIld o
  | .ist o => bodyIst o
  | .sld o => bodySld o
  | .swp o => bodySwp o
  | .cbld o => bodyCbld o
  | .seed o => bodySeed o
  | .seedCe o => bodySeedCe o
  | .epush o => bodyEpush o
  | .estart o => bodyEstart o
  | .eflush o => bodyEflush o
  | .tcfg o => bodyTcfg o
  | .tego o => bodyTego o
  | .testat o => bodyTestat o
  | .tethr o => bodyTethr o
  | .hptcfg o => bodyHptcfg o
  | .ditswpSwap o => bodyDitswpSwap o
  | .ditswpSet o => bodyDitswpSet o
  | .ditswpFree o => bodyDitswpFree o
  | .rxopen o => bodyRxopen o
  | .rxsend o => bodyRxsend o
  | .rxrecv o => bodyRxrecv o
  | .rxfree o => bodyRxfree o
  | .rxclose o => bodyRxclose o
  | .rxstat o => bodyRxstat o
  | .dadd o => bodyDadd o
  | .dsub o => bodyDsub o
  | .dmul o => bodyDmul o
  | .dmax o => bodyDmax o
  | .dmix o => bodyDmix o
  | .dcond o => bodyDcond o
  | .dscl o => bodyDscl o
  | .dshf o => bodyDshf o
  | .drelu o => bodyDrelu o
  | .dapp o => bodyDapp o
  | .dtag o => bodyDtag o
  | .dtagPm o => bodyDtagPm o
  | .tagnext o => bodyTagnext o
  | .dld o => bodyDld o
  | .dst o => bodyDst o
  | .dmkp o => bodyDmkp o
  | .dmku o => bodyDmku o
  | .dmkq o => bodyDmkq o
  | .dmom o => bodyDmom o
  | .dqnt o => bodyDqnt o
  | .counterWaitSatisfied => .done
  | .cwaitTimeout => .done
  | .qsync => bodyQsync
  | .exit => bodyExit
  | .safe => bodySafe
  | .trap => bodyTrap
  | .tret => bodyTret
  | .bkpt => bodyBkpt
  | .halt => bodyHalt
  | .nop => bodyNop
  | .tlbsync => bodyTlbsync
  | .tlbEntryDrop => .done
  | .tlbiAcknowledge => .done
  | .tlbsyncComplete => .done
  | .wideWordIssue => .done
  | .tcfgComplete => .done
  | .mxlds => .done
  | .mxrun => .done
  | .mxout => .done
  | .mxzero => .done
  | .mxrdaSt => .done
  | .mxrdaLd => .done
  | .cpy => .done
  | .cpyg => .done
  | .cpys => .done
  | .cpym => .done
  | .pub => .done
  | .cwt => .done
  | .cad => .done
  | .copyRow => .done
  | .engineRetire => .done
  | .bridleStreamBegin => .done
  | .bridleFetch => .done
  | .ldqFill => .done
  | .blockingCompletion => .done
  | .postedStoreAck => .done
  | .gangFirstIssue => .done
  | .gangComplete => .done
  | .paddockDecision => .done
  | .preemptDrainEnd => .done
  | .contextSaveComplete => .done
  | .hardPreemption => .done
  | .asyncEventTaken => .done
  | .forcedQuietPoint => .done
  | .watchdog => .done
  | .enghang => .done
  | .scratchpadClear => .done
  | .debugHaltRequest => .done
  | .debugStateWrite => .done
  | .debugResume => .done
  | .shardRecordRead => .done
  | .hopStart => .done
  | .hopGranule => .done
  | .hopDone => .done
  | .throttleWindowEnd => .done
  | .trackingPeriodEnd => .done
  | .moveFinalSwap => .done
  | .frameReturn => .done
  | .selfRefreshEntry => .done
  | .slabStart => .done
  | .slabSourceRead => .done
  | .slabArrival => .done
  | .rxfreeEffect => .done
  | .relayPermitGrant => .done
  | .rxrecvDeliver => .done
  | .channelDrainClose => .done
  | .meshRoute => .done
  | .switchCycle => .done
  | .peerIngress => .done
  | .multicastForward => .done
  | .peerTimeout => .done
  | .linkDown => .done
  | .ctxcreate => .done
  | .ctxdestroy => .done
  | .map => .done
  | .unmap => .done
  | .itinreg => .done
  | .submit => .done
  | .corral => .done
  | .enqueue => .done
  | .creadCommand => .done
  | .vireset => .done
  | .assign => .done
  | .fabcfgGroup => .done
  | .fabcfgMirror => .done
  | .batchForm => .done
  | .sqNotify => .done
  | .stampRetry => .done
  | .stampTimeout => .done
  | .qcfgEnable => .done
  | .qcfgDisable => .done
  | .eqheadWrite => .done
  | .dbgenWrite => .done
  | .rstctlReset => .done
  | .rstctlClearTrip => .done
  | .registerWrite => .done
  | .powerOnReset => .done
  | .thermalUpdate => .done
  | .thermalTrip => .done
  | .decodingFault => .done
  | .fetchBlockArrival => .done
  | .configurationRequest => .done
  | .atomicMessageArrival => .done

/-- The distribution instructions (R274). -/
def Instr.isDist : Instr → Bool
  | .dadd _ | .dsub _ | .dmul _ | .dmax _ | .dmix _ | .dcond _ | .dscl _ | .dshf _ | .drelu _ | .dapp _ | .dtag _ | .dtagPm _ | .tagnext _ | .dld _ | .dst _ | .dmkp _ | .dmku _ | .dmkq _ | .dmom _ | .dqnt _ => true
  | _ => false

/-- What each cluster of a core presents to the rendezvous: cluster, word and instruction (R61). -/
def State.presented (s : State) (n : Nat) : List (Nat × Nat × Instr) :=
  clusters.filterMap fun c =>
    match (s.cluster n c).hold? with
    | none => none
    | some h =>
        if h.kind = .rendezvous then
          (match h.vals with
           | [w] => (match decode w with | .ok i => some (c, w, i) | .error _ => none)
           | _ => none)
        else none

/-- Cluster `c` of the core under way, with the word it presents. -/
def State.at (s : State) (c w : Nat) : State := { s with curCl := c, ir := w, hitSeen := [] }

/-- Whether an issue comes to a precise trap. -/
def Res.traps : Res → Bool
  | .trap .. | .trapWith .. => true
  | _ => false

/-- Whether an issue waits for the lock of a tile register (R63) or for order (R253). -/
def Res.locked : Res → Bool
  | .stall (.lock _) | .stall (.order _) => true
  | _ => false

/-- The issue of each word in ascending cluster order, every one seeing the effects of those before it. -/
def wideResults (s : State) : List (Nat × Nat × Instr) → List (Nat × Nat × Res)
  | [] => []
  | x :: t =>
      let r := issueBody x.2.2 (s.at x.1 x.2.1)
      (x.1, x.2.1, r) :: wideResults ((s.at x.1 x.2.1).settle r) t

/-- The trap that the issue of a word comes to, with what it takes away first (a pending report, a poisoned entry). -/
def State.wideTrap (s : State) (i : Instr) (cause : Nat) (info : Word) : State :=
  match issueBody i s with
  | .trapWith t c v => t.trap c v
  | _ => s.trap cause info

/-- The traps of a wide word of which a word traps: none issues (R62). -/
def State.wideTraps (s : State) (ps : List (Nat × Nat × Instr)) (rs : List (Nat × Nat × Res)) : State :=
  (ps.zip rs).foldl (fun (s : State) r =>
    match r.2.2.2 with
    | .trap cause info | .trapWith _ cause info => (s.at r.1.1 r.1.2.1).wideTrap r.1.2.2 cause info
    | _ => s) s

/-- A wide word of one distribution instruction: it executes once, for cluster 0, and every cluster goes the same way. -/
def State.wideDist (s : State) (w : Nat) (i : Instr) : State :=
  match issueBody i (s.at 0 w) with
  | .done t => clusters.foldl (fun (t : State) c => (t.at c w).markIssued.advance) t
  | .hold t h => clusters.foldl (fun (t : State) c => (t.at c w).settle (.hold (t.at c w) h)) t
  | .trap cause info => clusters.foldl (fun (t : State) c => (t.at c w).trap cause info) s
  | _ => s

/-- WIDE_WORD_ISSUE (R61, R62): the operand is the core. -/
def execWideWordIssue (s : State) : Host.Outcome State Fault Refusal :=
  let s := { s with curCore := s.ev.nat 0 }
  let ps := s.presented s.curCore
  if ps.length < 4 then .next s
  else
    let special (i : Instr) : Bool := Instr.rowAxis i || Instr.isDist i
    let w := (ps.headD (0, 0, .nop)).2.1
    let same := ps.all fun p => decide (p.2.1 = w)
    if !same && ps.any (fun p => special p.2.2) then
      .next (ps.foldl (fun (s : State) p => if special p.2.2 then (s.at p.1 p.2.1).trap cILLFLD 0 else s) s)
    else match ps with
      | (_, w, i) :: _ =>
          if Instr.isDist i then .next (s.wideDist w i)
          else
            let rs := wideResults s ps
            if rs.any fun r => r.2.2.traps then .next (s.wideTraps ps rs)
            else if rs.any fun r => r.2.2.locked then .next s
            else .next (ps.foldl (fun (s : State) p => (s.at p.1 p.2.1).settle (issueBody p.2.2 (s.at p.1 p.2.1))) s)
      | [] => .next s

end Sys2Proof.Machine
end

