-- ==== Sys2Proof/Machine/Dispatch.lean ====
section
/-!
DEFINITION. One arm per constructor of Instr: the direct call of its meaning.
-/

namespace Sys2Proof.Machine

def exec (i : Instr) (s : State) : Host.Outcome State Fault Refusal :=
  match i with
  | .add o => Sys2Proof.Machine.execAdd o s
  | .sub o => Sys2Proof.Machine.execSub o s
  | .and o => Sys2Proof.Machine.execAnd o s
  | .or o => Sys2Proof.Machine.execOr o s
  | .xor o => Sys2Proof.Machine.execXor o s
  | .shl o => Sys2Proof.Machine.execShl o s
  | .shr o => Sys2Proof.Machine.execShr o s
  | .sar o => Sys2Proof.Machine.execSar o s
  | .min o => Sys2Proof.Machine.execMin o s
  | .max o => Sys2Proof.Machine.execMax o s
  | .minu o => Sys2Proof.Machine.execMinu o s
  | .maxu o => Sys2Proof.Machine.execMaxu o s
  | .seq o => Sys2Proof.Machine.execSeq o s
  | .sne o => Sys2Proof.Machine.execSne o s
  | .slt o => Sys2Proof.Machine.execSlt o s
  | .sltu o => Sys2Proof.Machine.execSltu o s
  | .sge o => Sys2Proof.Machine.execSge o s
  | .sgeu o => Sys2Proof.Machine.execSgeu o s
  | .clz o => Sys2Proof.Machine.execClz o s
  | .popc o => Sys2Proof.Machine.execPopc o s
  | .mul o => Sys2Proof.Machine.execMul o s
  | .mulh o => Sys2Proof.Machine.execMulh o s
  | .mulhu o => Sys2Proof.Machine.execMulhu o s
  | .div o => Sys2Proof.Machine.execDiv o s
  | .divu o => Sys2Proof.Machine.execDivu o s
  | .rem o => Sys2Proof.Machine.execRem o s
  | .remu o => Sys2Proof.Machine.execRemu o s
  | .sel o => Sys2Proof.Machine.execSel o s
  | .leaX1 o => Sys2Proof.Machine.execLeaX1 o s
  | .leaX2 o => Sys2Proof.Machine.execLeaX2 o s
  | .leaX4 o => Sys2Proof.Machine.execLeaX4 o s
  | .leaX8 o => Sys2Proof.Machine.execLeaX8 o s
  | .addi o => Sys2Proof.Machine.execAddi o s
  | .subi o => Sys2Proof.Machine.execSubi o s
  | .muli o => Sys2Proof.Machine.execMuli o s
  | .divi o => Sys2Proof.Machine.execDivi o s
  | .remi o => Sys2Proof.Machine.execRemi o s
  | .andi o => Sys2Proof.Machine.execAndi o s
  | .ori o => Sys2Proof.Machine.execOri o s
  | .xori o => Sys2Proof.Machine.execXori o s
  | .shli o => Sys2Proof.Machine.execShli o s
  | .shri o => Sys2Proof.Machine.execShri o s
  | .sari o => Sys2Proof.Machine.execSari o s
  | .slti o => Sys2Proof.Machine.execSlti o s
  | .sltiu o => Sys2Proof.Machine.execSltiu o s
  | .seqi o => Sys2Proof.Machine.execSeqi o s
  | .mini o => Sys2Proof.Machine.execMini o s
  | .maxi o => Sys2Proof.Machine.execMaxi o s
  | .lit o => Sys2Proof.Machine.execLit o s
  | .addLit o => Sys2Proof.Machine.execAddLit o s
  | .subLit o => Sys2Proof.Machine.execSubLit o s
  | .andLit o => Sys2Proof.Machine.execAndLit o s
  | .orLit o => Sys2Proof.Machine.execOrLit o s
  | .xorLit o => Sys2Proof.Machine.execXorLit o s
  | .shlLit o => Sys2Proof.Machine.execShlLit o s
  | .shrLit o => Sys2Proof.Machine.execShrLit o s
  | .sarLit o => Sys2Proof.Machine.execSarLit o s
  | .minLit o => Sys2Proof.Machine.execMinLit o s
  | .maxLit o => Sys2Proof.Machine.execMaxLit o s
  | .minuLit o => Sys2Proof.Machine.execMinuLit o s
  | .maxuLit o => Sys2Proof.Machine.execMaxuLit o s
  | .seqLit o => Sys2Proof.Machine.execSeqLit o s
  | .sneLit o => Sys2Proof.Machine.execSneLit o s
  | .sltLit o => Sys2Proof.Machine.execSltLit o s
  | .sltuLit o => Sys2Proof.Machine.execSltuLit o s
  | .sgeLit o => Sys2Proof.Machine.execSgeLit o s
  | .sgeuLit o => Sys2Proof.Machine.execSgeuLit o s
  | .mulLit o => Sys2Proof.Machine.execMulLit o s
  | .mulhLit o => Sys2Proof.Machine.execMulhLit o s
  | .mulhuLit o => Sys2Proof.Machine.execMulhuLit o s
  | .divLit o => Sys2Proof.Machine.execDivLit o s
  | .divuLit o => Sys2Proof.Machine.execDivuLit o s
  | .remLit o => Sys2Proof.Machine.execRemLit o s
  | .remuLit o => Sys2Proof.Machine.execRemuLit o s
  | .ldB o => Sys2Proof.Machine.execLdB o s
  | .ldBu o => Sys2Proof.Machine.execLdBu o s
  | .ldH o => Sys2Proof.Machine.execLdH o s
  | .ldHu o => Sys2Proof.Machine.execLdHu o s
  | .ldW o => Sys2Proof.Machine.execLdW o s
  | .ldWu o => Sys2Proof.Machine.execLdWu o s
  | .ldD o => Sys2Proof.Machine.execLdD o s
  | .stB o => Sys2Proof.Machine.execStB o s
  | .stH o => Sys2Proof.Machine.execStH o s
  | .stW o => Sys2Proof.Machine.execStW o s
  | .stD o => Sys2Proof.Machine.execStD o s
  | .lda o => Sys2Proof.Machine.execLda o s
  | .stl o => Sys2Proof.Machine.execStl o s
  | .ldq o => Sys2Proof.Machine.execLdq o s
  | .qpop o => Sys2Proof.Machine.execQpop o s
  | .qpeek o => Sys2Proof.Machine.execQpeek o s
  | .qpush o => Sys2Proof.Machine.execQpush o s
  | .qlen o => Sys2Proof.Machine.execQlen o s
  | .beq o => Sys2Proof.Machine.execBeq o s
  | .bne o => Sys2Proof.Machine.execBne o s
  | .blt o => Sys2Proof.Machine.execBlt o s
  | .bge o => Sys2Proof.Machine.execBge o s
  | .bltu o => Sys2Proof.Machine.execBltu o s
  | .bgeu o => Sys2Proof.Machine.execBgeu o s
  | .jmp o => Sys2Proof.Machine.execJmp o s
  | .jal o => Sys2Proof.Machine.execJal o s
  | .jr o => Sys2Proof.Machine.execJr o s
  | .loop o => Sys2Proof.Machine.execLoop o s
  | .loopi o => Sys2Proof.Machine.execLoopi o s
  | .cadd o => Sys2Proof.Machine.execCadd o s
  | .caddRemote o => Sys2Proof.Machine.execCaddRemote o s
  | .caddPage o => Sys2Proof.Machine.execCaddPage o s
  | .cwait o => Sys2Proof.Machine.execCwait o s
  | .cwaitPage o => Sys2Proof.Machine.execCwaitPage o s
  | .cread o => Sys2Proof.Machine.execCread o s
  | .creadRemote o => Sys2Proof.Machine.execCreadRemote o s
  | .creadPage o => Sys2Proof.Machine.execCreadPage o s
  | .crst o => Sys2Proof.Machine.execCrst o s
  | .crstPage o => Sys2Proof.Machine.execCrstPage o s
  | .fence o => Sys2Proof.Machine.execFence o s
  | .aadd o => Sys2Proof.Machine.execAadd o s
  | .amin o => Sys2Proof.Machine.execAmin o s
  | .amax o => Sys2Proof.Machine.execAmax o s
  | .aminu o => Sys2Proof.Machine.execAminu o s
  | .amaxu o => Sys2Proof.Machine.execAmaxu o s
  | .aand o => Sys2Proof.Machine.execAand o s
  | .aor o => Sys2Proof.Machine.execAor o s
  | .axor o => Sys2Proof.Machine.execAxor o s
  | .aswp o => Sys2Proof.Machine.execAswp o s
  | .acas o => Sys2Proof.Machine.execAcas o s
  | .afadd o => Sys2Proof.Machine.execAfadd o s
  | .pand o => Sys2Proof.Machine.execPand o s
  | .por o => Sys2Proof.Machine.execPor o s
  | .pnot o => Sys2Proof.Machine.execPnot o s
  | .pset o => Sys2Proof.Machine.execPset o s
  | .vmov o => Sys2Proof.Machine.execVmov o s
  | .vsplat o => Sys2Proof.Machine.execVsplat o s
  | .vins o => Sys2Proof.Machine.execVins o s
  | .vext o => Sys2Proof.Machine.execVext o s
  | .renq o => Sys2Proof.Machine.execRenq o s
  | .dlaunch o => Sys2Proof.Machine.execDlaunch o s
  | .srd o => Sys2Proof.Machine.execSrd o s
  | .swr o => Sys2Proof.Machine.execSwr o s
  | .spguard o => Sys2Proof.Machine.execSpguard o s
  | .tlbi o => Sys2Proof.Machine.execTlbi o s
  | .vadd o => Sys2Proof.Machine.execVadd o s
  | .vsub o => Sys2Proof.Machine.execVsub o s
  | .vmul o => Sys2Proof.Machine.execVmul o s
  | .vfma o => Sys2Proof.Machine.execVfma o s
  | .vmin o => Sys2Proof.Machine.execVmin o s
  | .vmax o => Sys2Proof.Machine.execVmax o s
  | .vaddLit o => Sys2Proof.Machine.execVaddLit o s
  | .vsubLit o => Sys2Proof.Machine.execVsubLit o s
  | .vmulLit o => Sys2Proof.Machine.execVmulLit o s
  | .vfmaLit o => Sys2Proof.Machine.execVfmaLit o s
  | .vminLit o => Sys2Proof.Machine.execVminLit o s
  | .vmaxLit o => Sys2Proof.Machine.execVmaxLit o s
  | .viadd o => Sys2Proof.Machine.execViadd o s
  | .visub o => Sys2Proof.Machine.execVisub o s
  | .vimul o => Sys2Proof.Machine.execVimul o s
  | .vand o => Sys2Proof.Machine.execVand o s
  | .vor o => Sys2Proof.Machine.execVor o s
  | .vxor o => Sys2Proof.Machine.execVxor o s
  | .vshl o => Sys2Proof.Machine.execVshl o s
  | .vshr o => Sys2Proof.Machine.execVshr o s
  | .vsar o => Sys2Proof.Machine.execVsar o s
  | .vsel o => Sys2Proof.Machine.execVsel o s
  | .vcmp o => Sys2Proof.Machine.execVcmp o s
  | .viaddLit o => Sys2Proof.Machine.execViaddLit o s
  | .visubLit o => Sys2Proof.Machine.execVisubLit o s
  | .vimulLit o => Sys2Proof.Machine.execVimulLit o s
  | .vandLit o => Sys2Proof.Machine.execVandLit o s
  | .vorLit o => Sys2Proof.Machine.execVorLit o s
  | .vxorLit o => Sys2Proof.Machine.execVxorLit o s
  | .vshlLit o => Sys2Proof.Machine.execVshlLit o s
  | .vshrLit o => Sys2Proof.Machine.execVshrLit o s
  | .vsarLit o => Sys2Proof.Machine.execVsarLit o s
  | .vselLit o => Sys2Proof.Machine.execVselLit o s
  | .vcmpLit o => Sys2Proof.Machine.execVcmpLit o s
  | .vrotc o => Sys2Proof.Machine.execVrotc o s
  | .vbcc o => Sys2Proof.Machine.execVbcc o s
  | .vredc o => Sys2Proof.Machine.execVredc o s
  | .vrotw o => Sys2Proof.Machine.execVrotw o s
  | .vbcw o => Sys2Proof.Machine.execVbcw o s
  | .vbcwCol o => Sys2Proof.Machine.execVbcwCol o s
  | .vredw o => Sys2Proof.Machine.execVredw o s
  | .vtrn o => Sys2Proof.Machine.execVtrn o s
  | .vrcp o => Sys2Proof.Machine.execVrcp o s
  | .vrsq o => Sys2Proof.Machine.execVrsq o s
  | .vsqrt o => Sys2Proof.Machine.execVsqrt o s
  | .vexp2 o => Sys2Proof.Machine.execVexp2 o s
  | .vlog2 o => Sys2Proof.Machine.execVlog2 o s
  | .vsin o => Sys2Proof.Machine.execVsin o s
  | .vcos o => Sys2Proof.Machine.execVcos o s
  | .vtanh o => Sys2Proof.Machine.execVtanh o s
  | .vsigm o => Sys2Proof.Machine.execVsigm o s
  | .verf o => Sys2Proof.Machine.execVerf o s
  | .vcvt o => Sys2Proof.Machine.execVcvt o s
  | .vpack o => Sys2Proof.Machine.execVpack o s
  | .vunpk o => Sys2Proof.Machine.execVunpk o s
  | .vld o => Sys2Proof.Machine.execVld o s
  | .vst o => Sys2Proof.Machine.execVst o s
  | .vldg o => Sys2Proof.Machine.execVldg o s
  | .vsts o => Sys2Proof.Machine.execVsts o s
  | .vqpop o => Sys2Proof.Machine.execVqpop o s
  | .vqpush o => Sys2Proof.Machine.execVqpush o s
  | .ild o => Sys2Proof.Machine.execIld o s
  | .ist o => Sys2Proof.Machine.execIst o s
  | .sld o => Sys2Proof.Machine.execSld o s
  | .swp o => Sys2Proof.Machine.execSwp o s
  | .cbld o => Sys2Proof.Machine.execCbld o s
  | .seed o => Sys2Proof.Machine.execSeed o s
  | .seedCe o => Sys2Proof.Machine.execSeedCe o s
  | .epush o => Sys2Proof.Machine.execEpush o s
  | .estart o => Sys2Proof.Machine.execEstart o s
  | .eflush o => Sys2Proof.Machine.execEflush o s
  | .tcfg o => Sys2Proof.Machine.execTcfg o s
  | .tego o => Sys2Proof.Machine.execTego o s
  | .testat o => Sys2Proof.Machine.execTestat o s
  | .tethr o => Sys2Proof.Machine.execTethr o s
  | .hptcfg o => Sys2Proof.Machine.execHptcfg o s
  | .ditswpSwap o => Sys2Proof.Machine.execDitswpSwap o s
  | .ditswpSet o => Sys2Proof.Machine.execDitswpSet o s
  | .ditswpFree o => Sys2Proof.Machine.execDitswpFree o s
  | .rxopen o => Sys2Proof.Machine.execRxopen o s
  | .rxsend o => Sys2Proof.Machine.execRxsend o s
  | .rxrecv o => Sys2Proof.Machine.execRxrecv o s
  | .rxfree o => Sys2Proof.Machine.execRxfree o s
  | .rxclose o => Sys2Proof.Machine.execRxclose o s
  | .rxstat o => Sys2Proof.Machine.execRxstat o s
  | .dadd o => Sys2Proof.Machine.execDadd o s
  | .dsub o => Sys2Proof.Machine.execDsub o s
  | .dmul o => Sys2Proof.Machine.execDmul o s
  | .dmax o => Sys2Proof.Machine.execDmax o s
  | .dmix o => Sys2Proof.Machine.execDmix o s
  | .dcond o => Sys2Proof.Machine.execDcond o s
  | .dscl o => Sys2Proof.Machine.execDscl o s
  | .dshf o => Sys2Proof.Machine.execDshf o s
  | .drelu o => Sys2Proof.Machine.execDrelu o s
  | .dapp o => Sys2Proof.Machine.execDapp o s
  | .dtag o => Sys2Proof.Machine.execDtag o s
  | .dtagPm o => Sys2Proof.Machine.execDtagPm o s
  | .tagnext o => Sys2Proof.Machine.execTagnext o s
  | .dld o => Sys2Proof.Machine.execDld o s
  | .dst o => Sys2Proof.Machine.execDst o s
  | .dmkp o => Sys2Proof.Machine.execDmkp o s
  | .dmku o => Sys2Proof.Machine.execDmku o s
  | .dmkq o => Sys2Proof.Machine.execDmkq o s
  | .dmom o => Sys2Proof.Machine.execDmom o s
  | .dqnt o => Sys2Proof.Machine.execDqnt o s
  | .counterWaitSatisfied => Sys2Proof.Machine.execCounterWaitSatisfied s
  | .cwaitTimeout => Sys2Proof.Machine.execCwaitTimeout s
  | .qsync => Sys2Proof.Machine.execQsync s
  | .exit => Sys2Proof.Machine.execExit s
  | .safe => Sys2Proof.Machine.execSafe s
  | .trap => Sys2Proof.Machine.execTrap s
  | .tret => Sys2Proof.Machine.execTret s
  | .bkpt => Sys2Proof.Machine.execBkpt s
  | .halt => Sys2Proof.Machine.execHalt s
  | .nop => Sys2Proof.Machine.execNop s
  | .tlbsync => Sys2Proof.Machine.execTlbsync s
  | .tlbEntryDrop => Sys2Proof.Machine.execTlbEntryDrop s
  | .tlbiAcknowledge => Sys2Proof.Machine.execTlbiAcknowledge s
  | .tlbsyncComplete => Sys2Proof.Machine.execTlbsyncComplete s
  | .wideWordIssue => Sys2Proof.Machine.execWideWordIssue s
  | .tcfgComplete => Sys2Proof.Machine.execTcfgComplete s
  | .mxlds => Sys2Proof.Machine.execMxlds s
  | .mxrun => Sys2Proof.Machine.execMxrun s
  | .mxout => Sys2Proof.Machine.execMxout s
  | .mxzero => Sys2Proof.Machine.execMxzero s
  | .mxrdaSt => Sys2Proof.Machine.execMxrdaSt s
  | .mxrdaLd => Sys2Proof.Machine.execMxrdaLd s
  | .cpy => Sys2Proof.Machine.execCpy s
  | .cpyg => Sys2Proof.Machine.execCpyg s
  | .cpys => Sys2Proof.Machine.execCpys s
  | .cpym => Sys2Proof.Machine.execCpym s
  | .pub => Sys2Proof.Machine.execPub s
  | .cwt => Sys2Proof.Machine.execCwt s
  | .cad => Sys2Proof.Machine.execCad s
  | .copyRow => Sys2Proof.Machine.execCopyRow s
  | .engineRetire => Sys2Proof.Machine.execEngineRetire s
  | .bridleStreamBegin => Sys2Proof.Machine.execBridleStreamBegin s
  | .bridleFetch => Sys2Proof.Machine.execBridleFetch s
  | .ldqFill => Sys2Proof.Machine.execLdqFill s
  | .blockingCompletion => Sys2Proof.Machine.execBlockingCompletion s
  | .postedStoreAck => Sys2Proof.Machine.execPostedStoreAck s
  | .gangFirstIssue => Sys2Proof.Machine.execGangFirstIssue s
  | .gangComplete => Sys2Proof.Machine.execGangComplete s
  | .paddockDecision => Sys2Proof.Machine.execPaddockDecision s
  | .preemptDrainEnd => Sys2Proof.Machine.execPreemptDrainEnd s
  | .contextSaveComplete => Sys2Proof.Machine.execContextSaveComplete s
  | .hardPreemption => Sys2Proof.Machine.execHardPreemption s
  | .asyncEventTaken => Sys2Proof.Machine.execAsyncEventTaken s
  | .forcedQuietPoint => Sys2Proof.Machine.execForcedQuietPoint s
  | .watchdog => Sys2Proof.Machine.execWatchdog s
  | .enghang => Sys2Proof.Machine.execEnghang s
  | .scratchpadClear => Sys2Proof.Machine.execScratchpadClear s
  | .debugHaltRequest => Sys2Proof.Machine.execDebugHaltRequest s
  | .debugStateWrite => Sys2Proof.Machine.execDebugStateWrite s
  | .debugResume => Sys2Proof.Machine.execDebugResume s
  | .shardRecordRead => Sys2Proof.Machine.execShardRecordRead s
  | .hopStart => Sys2Proof.Machine.execHopStart s
  | .hopGranule => Sys2Proof.Machine.execHopGranule s
  | .hopDone => Sys2Proof.Machine.execHopDone s
  | .throttleWindowEnd => Sys2Proof.Machine.execThrottleWindowEnd s
  | .trackingPeriodEnd => Sys2Proof.Machine.execTrackingPeriodEnd s
  | .moveFinalSwap => Sys2Proof.Machine.execMoveFinalSwap s
  | .frameReturn => Sys2Proof.Machine.execFrameReturn s
  | .selfRefreshEntry => Sys2Proof.Machine.execSelfRefreshEntry s
  | .slabStart => Sys2Proof.Machine.execSlabStart s
  | .slabSourceRead => Sys2Proof.Machine.execSlabSourceRead s
  | .slabArrival => Sys2Proof.Machine.execSlabArrival s
  | .rxfreeEffect => Sys2Proof.Machine.execRxfreeEffect s
  | .relayPermitGrant => Sys2Proof.Machine.execRelayPermitGrant s
  | .rxrecvDeliver => Sys2Proof.Machine.execRxrecvDeliver s
  | .channelDrainClose => Sys2Proof.Machine.execChannelDrainClose s
  | .meshRoute => Sys2Proof.Machine.execMeshRoute s
  | .switchCycle => Sys2Proof.Machine.execSwitchCycle s
  | .peerIngress => Sys2Proof.Machine.execPeerIngress s
  | .multicastForward => Sys2Proof.Machine.execMulticastForward s
  | .peerTimeout => Sys2Proof.Machine.execPeerTimeout s
  | .linkDown => Sys2Proof.Machine.execLinkDown s
  | .ctxcreate => Sys2Proof.Machine.execCtxcreate s
  | .ctxdestroy => Sys2Proof.Machine.execCtxdestroy s
  | .map => Sys2Proof.Machine.execMap s
  | .unmap => Sys2Proof.Machine.execUnmap s
  | .itinreg => Sys2Proof.Machine.execItinreg s
  | .submit => Sys2Proof.Machine.execSubmit s
  | .corral => Sys2Proof.Machine.execCorral s
  | .enqueue => Sys2Proof.Machine.execEnqueue s
  | .creadCommand => Sys2Proof.Machine.execCreadCommand s
  | .vireset => Sys2Proof.Machine.execVireset s
  | .assign => Sys2Proof.Machine.execAssign s
  | .fabcfgGroup => Sys2Proof.Machine.execFabcfgGroup s
  | .fabcfgMirror => Sys2Proof.Machine.execFabcfgMirror s
  | .batchForm => Sys2Proof.Machine.execBatchForm s
  | .sqNotify => Sys2Proof.Machine.execSqNotify s
  | .stampRetry => Sys2Proof.Machine.execStampRetry s
  | .stampTimeout => Sys2Proof.Machine.execStampTimeout s
  | .qcfgEnable => Sys2Proof.Machine.execQcfgEnable s
  | .qcfgDisable => Sys2Proof.Machine.execQcfgDisable s
  | .eqheadWrite => Sys2Proof.Machine.execEqheadWrite s
  | .dbgenWrite => Sys2Proof.Machine.execDbgenWrite s
  | .rstctlReset => Sys2Proof.Machine.execRstctlReset s
  | .rstctlClearTrip => Sys2Proof.Machine.execRstctlClearTrip s
  | .registerWrite => Sys2Proof.Machine.execRegisterWrite s
  | .powerOnReset => Sys2Proof.Machine.execPowerOnReset s
  | .thermalUpdate => Sys2Proof.Machine.execThermalUpdate s
  | .thermalTrip => Sys2Proof.Machine.execThermalTrip s
  | .decodingFault => Sys2Proof.Machine.execDecodingFault s
  | .fetchBlockArrival => Sys2Proof.Machine.execFetchBlockArrival s
  | .configurationRequest => Sys2Proof.Machine.execConfigurationRequest s
  | .atomicMessageArrival => Sys2Proof.Machine.execAtomicMessageArrival s

end Sys2Proof.Machine
end

