-- ==== Sys2Proof/Machine/Cycle.lean ====
section
/-!
DEFINITION. What moves in a cycle and in what order: the steps that fall due, the agents of each core, the events that the state
itself brings about, and the end of the cycle. One step of the machine is one of these acts.
-/

namespace Sys2Proof.Machine

/-! ### The places of a cycle -/

/-- The place of act `i` of phase `p`. -/
def place (p i : Nat) : Nat := 2 ^ 20 * p + i

/-! ### Instructions that take effect in gang order (R152, R324) -/

/-- The channel, as the interface numbers it, that a relay instruction acts on when it issues. -/
def Instr.relayCh : Instr → Option Nat
  | .rxsend o => some o.ch.toNat
  | .rxrecv o => some o.ch.toNat
  | .rxfree o => some o.ch.toNat
  | .rxclose o => some o.ch.toNat
  | .rxstat o => some o.ch.toNat
  | _ => none

/-- Whether the instructions of one cycle take effect in gang order: relay instructions (R324), RENQ and ESTART (R152). -/
def Instr.ranked (i : Instr) : Bool :=
  (Instr.relayCh i).isSome || (match i with | .renq _ | .estart _ => true | _ => false)

/-- Whether a channel, as the interface of core `n` numbers it, is bound to another gang. -/
def State.foreignChan (s : State) (n ch : Nat) : Bool :=
  match s.chanOf (s.core n).vifn.toNat ch with
  | some k => (s.chan k).node.isSome && decide ((s.chan k).node ≠ (s.core n).node)
  | none => false

/-- Whether an instruction of core `n` must let its turn in gang order come: before phase 8; and for a channel of another gang, which
may end in this cycle, before phase 10 (R324). -/
def State.early (s : State) (n : Nat) (i : Instr) : Bool :=
  Instr.ranked i &&
    (decide (s.turn < place 8 0) ||
      (decide (s.turn < place 10 0) && (match Instr.relayCh i with | some ch => s.foreignChan n ch | none => false)))

/-! ### A cluster's turn (R44, R75, R87, R371) -/

/-- The block that an instruction at bytes `pc` to `last` must wait for after one in block `b` (R371): its own first, then the one
that its later words reach. The first instruction after dispatch follows no other; its fetch wait is part of the open time from
dispatch to GANG_FIRST_ISSUE, since all clusters of a gang issue it in one cycle (R32, R355). -/
def missingBlock (b : Option Nat) (pc last : Nat) : Option Nat :=
  let p := pc / 64
  let q := last / 64
  if b = none ∨ b = some q then none
  else if b = some p then (if p = q then none else some q)
  else some p

/-- The cluster under way waits for a block for the next open duration. -/
def State.fetchWait (s : State) (b : Nat) : State :=
  let h : Hold := { kind := .fetch b, instr := .nop, ea := 0, vals := [], since := s.cycle, sync := false }
  ((s.modMe fun c => { c with act := .waiting h }).schedule (s.cycle + s.time) .fetchBlockArrival
    (.nats [s.curCore, s.curCl])).useTime

/-- The instruction whose bits `w` have been fetched executes, in its turn; what does not decode traps (R87). -/
def State.run (s : State) (w : Nat) : Host.Outcome State Fault Refusal :=
  match decode w with
  | .ok i =>
      if s.early s.curCore i && (!wordSync w || s.me.wideIssued) then .next { s with later := (s.curCore, s.curCl) :: s.later }
      else exec i { s with ir := w }
  | .error e =>
      exec .decodingFault { s with ir := w, ev := .nats [s.curCore, s.curCl, e.cause, 0] }

/-- The cluster under way fetches at its PC, waits where R371 lets it, and executes what it fetched. -/
def State.fetchRun (s : State) : Host.Outcome State Fault Refusal :=
  let pc := s.me.pc.toNat
  match s.fetch s.curCore s.curCl pc with
  | .bad t cause info w => exec .decodingFault { t with ir := w, ev := .nats [s.curCore, s.curCl, cause, info.toNat] }
  | .word t w =>
      match missingBlock s.me.block pc (pc + wordLen (w % 2 ^ 32) - 1) with
      | none => t.run w
      | some b =>
          if s.time = 0 then
            (t.useTime.modMe fun c => { c with block := some ((pc + wordLen (w % 2 ^ 32) - 1) / 64) }).run w
          else .next (t.fetchWait b)

/-- Whether a cluster presents an instruction in this cycle: it runs and has not issued, or it waits and presents again (R44). -/
def Cluster.presents (c : Cluster) (cycle : Nat) : Bool :=
  decide (c.issuedAt ≠ cycle + 1) &&
    match c.act with
    | .running => true
    | .waiting h =>
        (match h.kind with
         | .queue _ | .lock _ | .order _ | .inbox _ _ => true
         | .engQueue _ => !isTcfg h.instr
         | _ => false)
    | _ => false

/-- Whether a cluster waits in CWAIT: its events have a place of their own in the order of Table 11-8. -/
def Cluster.inCwait (c : Cluster) : Bool :=
  match c.hold? with
  | some h => (match h.kind with | .cwait _ | .unmapped _ _ => true | _ => false)
  | none => false

/-- The row by which cluster `c` of core `n` takes its pending event: at a quiet point, or forced to one (R67, R68). -/
def State.eventRow (s : State) (n c : Nat) : Option Instr :=
  let k := s.cluster n c
  match k.event with
  | none => none
  | some e =>
      if k.forced s.cycle then some .forcedQuietPoint
      else if k.live && s.quiet n c e.1 then some .asyncEventTaken
      else none

/-- The turn of cluster `c` of core `n`: a pending event at a quiet point, or else its next instruction. -/
def State.clusterTurn (s : State) (n c : Nat) : Host.Outcome State Fault Refusal :=
  let s := { s with curCore := n, curCl := c, hitSeen := [], later := s.later.filter fun x => decide (x ≠ (n, c)) }
  match (if s.me.inCwait then none else s.eventRow n c) with
  | some i => exec i { s with ev := .nats [n, c] }
  | none => if s.me.presents s.cycle then s.fetchRun else .next s

/-! ### Acts -/

/-- What a step does. -/
inductive Act where
  /-- A row, with the core, the queue and the operands it is given. -/
  | row (i : Instr) (core queue : Nat) (ev : EvArgs)
  /-- A step that was due. -/
  | due (d : Due)
  /-- The turn of a cluster. -/
  | cluster (n c : Nat)
  /-- A cycle of the matrix engine of a core. -/
  | tick (n : Nat)
  /-- Sections of a core that hold no command any more retire (R212). -/
  | sections (n : Nat)
  /-- Channels of the gangs that end in this cycle enter CLOSED (R324). -/
  | endings
  /-- What the clusters of a gang issued is performed, if their tasks have all finished. -/
  | posted (n : Nat)
  /-- Accesses that follow atomic messages of the cycle (R256). -/
  | after
  /-- The packets of what clusters have issued for other packages (R262). -/
  | egress
  /-- Counter adds: of the engines of a core, or all that are left (R146). -/
  | adds (core : Option Nat)
  /-- The CRSTs of the cycle (R146). -/
  | crsts
  /-- The reports of lanes (R310). -/
  | lanes
  /-- The nodes whose clusters have all exited or stopped (R41, R46). -/
  | gangs
  /-- The faults of the cycle (R369). -/
  | faults
  /-- Pre-empted nodes whose cores are free again. -/
  | victims
  /-- The end of the cycle. -/
  | close
  deriving DecidableEq, Repr

/-- A row with operands and no core. -/
def Act.ev (i : Instr) (l : List Nat) : Act := .row i 0 0 (.nats l)

/-- The row that may end the wait of cluster `c` of core `n` in this cycle. -/
def State.waitAct (s : State) (n c : Nat) : Option Act :=
  match (s.cluster n c).hold? with
  | none => none
  | some h =>
      match h.kind, h.instr with
      | .tlbsync, _ => some (.ev .tlbsyncComplete [n, c])
      | .fence, _ => some (.ev .blockingCompletion [n, c, h.since])
      | .qsync, _ => some (.ev .blockingCompletion [n, c, h.since])
      | .blocking, .eflush _ => some (.ev .blockingCompletion [n, c, h.since])
      | _, _ => none

/-- The row that may end the wait of cluster `c` of core `n` in a relay instruction, in its turn in gang order (R324). -/
def State.relayAct (s : State) (n c : Nat) : Option Act :=
  match (s.cluster n c).hold? with
  | none => none
  | some h =>
      match h.kind with
      | .relay ch 0 =>
          if !h.openReady || (decide (s.turn < place 10 0) && s.foreignChan n ch) then none
          else some (.ev .blockingCompletion [n, c, h.since])
      | .relay _ 1 => some (.ev .relayPermitGrant [n, c])
      | .relay _ 2 => some (.ev .rxrecvDeliver [n, c])
      | _ => none

/-- The four words of a wide word that core `n` presents, and whether some word of it has its turn in gang order (R61). -/
def State.wideRanked (s : State) (n : Nat) : Bool := (s.presented n).any fun p => Instr.ranked p.2.2

/-- The act of place `j` of core `n`: the waits that end, the four clusters, the wide word, the Bridle, the three queues, the
matrix engine, retirement, the sections, and the engines' counter adds. -/
def State.coreAct (s : State) (n : Nat) (j : Nat) : Option Act :=
  let k := s.core n
  match j with
  | 0 => if k.tcfgWaiters.isEmpty then none else some (.ev .tcfgComplete [n])
  | 1 => s.waitAct n 0
  | 2 => s.waitAct n 1
  | 3 => s.waitAct n 2
  | 4 => s.waitAct n 3
  | 5 => if (k.cluster 0).live then some (.cluster n 0) else none
  | 6 => if (k.cluster 1).live then some (.cluster n 1) else none
  | 7 => if (k.cluster 2).live then some (.cluster n 2) else none
  | 8 => if (k.cluster 3).live then some (.cluster n 3) else none
  | 9 => if (s.presented n).length = 4 ∧ !s.wideRanked n then some (.ev .wideWordIssue [n]) else none
  | 10 => if k.stream.isNone && !k.inbox.isEmpty then some (.ev .bridleStreamBegin [n]) else none
  | 11 => if k.stream.isSome then some (.ev .bridleFetch [n]) else none
  | 12 => k.loadQ.head?.map fun c => .row (EngOp.instr c.cmd.op) n 0 .none
  | 13 => k.matQ.head?.map fun c => .row (EngOp.instr c.cmd.op) n 1 .none
  | 14 => k.storeQ.head?.map fun c => .row (EngOp.instr c.cmd.op) n 2 .none
  | 15 => if k.issued.isEmpty then none else some (.tick n)
  | 16 => (k.issued.find? fun i => k.canRetire s.cycle i).map fun i => .ev .engineRetire [n, i.id]
  | 17 => if k.sections.isEmpty then none else some (.sections n)
  | 18 => if s.adds.any (AddReq.ofEngine n) then some (.adds (some n)) else none
  | _ => none

/-! ### The order of a cycle -/

/-- The first act of phase `p` at or after place `t`; each is done once, so the turn goes on behind it. -/
def onceFrom (t p : Nat) (l : List (Nat × Act)) : Option (Nat × Act) :=
  l.findSome? fun x => if t ≤ place p x.1 then some (place p x.1 + 1, x.2) else none

/-- An act of phase `p` that is done as long as there is one. -/
def whileFrom (t p : Nat) (a : Option Act) : Option (Nat × Act) :=
  if t ≤ place p 0 then a.map fun x => (place p 0, x) else none

/-- The list without the entries that are none, numbered. -/
def numbered (l : List (Nat × Option Act)) : List (Nat × Act) := l.filterMap fun x => x.2.map fun a => (x.1, a)

/-- The pairs of a core and a cluster. -/
def State.allClusters (s : State) : List (Nat × Nat) := s.cores.flatMap fun e => clusters.map fun c => (e.1, c)

/-- A row about the first cluster with a property. -/
def State.clusterRow (s : State) (i : Instr) (f : Nat → Nat → Bool) : Option Act :=
  (s.allClusters.find? fun x => f x.1 x.2).map fun x => .ev i [x.1, x.2]

/-- A row about the first node with a property. -/
def State.nodeRow (s : State) (i : Instr) (f : Nat × Node → Bool) : Option Act :=
  (s.liveNodes.find? f).map fun e => .ev i [e.1]

/-- Of the atomic messages that arrive in the cycle, the one of the lowest core, then cluster (R165). -/
def State.firstMessage (s : State) : Option Due :=
  (s.agenda.filter fun d => decide (d.cycle ≤ s.cycle)).foldl
    (fun a d => match a with
      | none => some d
      | some b => if 4 * d.args.nat 0 + d.args.nat 1 < 4 * b.args.nat 0 + b.args.nat 1 then some d else some b) none

/-- Whether a fault of this cycle leaves a command or a slab of a node without its end, so that its task has not finished (R50); a
lane's fault does not, and completion comes before it (R41). -/
def State.unretired (s : State) (x : Node) : Bool := s.faults.any fun r => decide (r.kind ≠ .lane) && x.cores.contains r.core

/-- Whether the gang of a node ends in this cycle, by a fault or because the tasks of its cores have all finished. -/
def State.ending (s : State) (x : Node) : Bool :=
  (match x.st with | .running | .preempting | .draining => true | _ => false) && decide (x.stop ≠ .kill) &&
    ((s.faults.any fun r => x.cores.contains r.core && decide (s.faultAct x r = .fatal)) ||
      (x.cores.all s.coreFinished && !s.unretired x))

/-- The place of a core in gang order: the cores of an A part, 128 to 175, have the lower ranks (R34). -/
def rankPlace (n : Nat) : Nat := if n < 128 then n + 48 else n - 128

/-- The core at a place in gang order. -/
def rankedCore (i : Nat) : Nat := if i < 48 then i + 128 else i - 48

/-- The act of place `i` of a phase in gang order: 8 places for each core, those of its clusters and then the wide word (R152, R324). -/
def State.rankedAct (s : State) (i : Nat) : Option Act :=
  let n := rankedCore (i / 8)
  let c := i % 8
  if c < 4 then
    match s.relayAct n c with
    | some a => some a
    | none => if s.later.contains (n, c) then some (.cluster n c) else none
  else if c = 4 ∧ (s.presented n).length = 4 ∧ s.wideRanked n then
    if decide (s.turn < place 10 0) && (s.presented n).any (fun p => match Instr.relayCh p.2.2 with | some ch => s.foreignChan n ch | none => false)
    then none else some (.ev .wideWordIssue [n])
  else none

/-- The first act of a phase in gang order from place `t` on. -/
def State.rankedFrom (s : State) (t p : Nat) : Option (Nat × Act) :=
  (List.range 176).findSome? fun i =>
    if s.cores.any fun e => decide (e.1 = rankedCore i) then
      (List.range 5).findSome? fun c =>
        if t ≤ place p (8 * i + c) then (s.rankedAct (8 * i + c)).map fun a => (place p (8 * i + c) + 1, a) else none
    else none

/-- The event of a cluster that waits in CWAIT, on a counter or for the end of an unmapping, in its place of Table 11-8: a halt comes
after the watchdog, and the halt of a wait that has just been unmapped in the next cycle. -/
def State.cwaitEvent (s : State) (unmapped : Bool) : Option Act :=
  (s.allClusters.findSome? fun x =>
    let k := s.cluster x.1 x.2
    match k.hold?, k.event with
    | some h, some e =>
        let mine : Bool := match h.kind with
          | .cwait _ => !unmapped && (decide (e.1 = 2) || !(match (s.core x.1).node with | some n => s.watchdogDue n | none => false))
          | .unmapped _ _ => unmapped && decide (h.since < s.cycle)
          | _ => false
        if mine then (s.eventRow x.1 x.2).map fun i => Act.ev i [x.1, x.2] else none
    | _, _ => none)

/-- The acts of phase `p` for a turn `t`, if one is left. -/
def State.phaseAct (s : State) (t p : Nat) : Option (Nat × Act) :=
  match p with
  | 0 =>
      onceFrom t 0 ((if s.cycle % 1200000 = 0 ∧ 0 < s.cycle then (List.range 6).map fun d => (d, .ev .thermalUpdate [d]) else []) ++
        (s.temps.filter fun e => decide (110 ≤ e.2)).map fun e => (8 + e.1, .ev .thermalTrip [e.1, e.2]))
  | 1 =>
      onceFrom t 1 (numbered ((List.range s.packets.length).map fun i =>
        (i, s.packets[i]?.bind fun q =>
          if !q.atSwitch && q.port.isNone && decide (q.place ≠ q.goal) then some (.ev .meshRoute [q.id]) else none)))
  | 2 => onceFrom t 2 (if s.packets.isEmpty then [] else [(0, .ev .switchCycle [])])
  | 3 => whileFrom t 3 (s.hopStarts.head?.map fun l => .ev .hopStart l)
  | 4 => whileFrom t 4 (s.cwaitEvent true)
  | 5 =>
      s.cores.findSome? fun e =>
        (List.range 19).findSome? fun j =>
          if t ≤ place 5 (32 * e.1 + j) then
            (s.coreAct e.1 j).map fun a => (place 5 (32 * e.1 + (if j = 16 then 16 else j + 1)), a)
          else none
  | 6 => onceFrom t 6 (s.liveNodes.map fun e => (e.1, .posted e.1))
  | 7 => onceFrom t 7 [(0, .endings)]
  | 8 => s.rankedFrom t 8
  | 9 => onceFrom t 9 [(0, .endings)]
  | 10 => s.rankedFrom t 10
  | 11 => whileFrom t 11 (s.firstMessage.map fun d => .due d)
  | 12 => onceFrom t 12 ((if s.after.isEmpty then [] else [(0, .after)]) ++ if s.torus = (0, 0, 0) then [] else [(1, .egress)])
  | 13 => onceFrom t 13 ((s.chans.filter fun e => e.2.drains s.cycle).map fun e => (e.1, .ev .channelDrainClose [e.1]))
  | 14 => onceFrom t 14 (if s.adds.isEmpty then [] else [(0, .adds none)])
  | 15 => onceFrom t 15 (if s.crsts.isEmpty then [] else [(0, .crsts)])
  | 16 => whileFrom t 16 (s.clusterRow .counterWaitSatisfied s.cwaitMet)
  | 17 => whileFrom t 17 (s.clusterRow .cwaitTimeout s.cwaitLate)
  | 18 => whileFrom t 18 (s.cwaitEvent false)
  | 19 =>
      onceFrom t 19 ((s.tierLanes.filter fun e => e.2.windowEnds s.cycle).map fun e => (e.1, .ev .throttleWindowEnd [e.1 / 8, e.1 % 8]))
  | 20 =>
      onceFrom t 20 ((((List.range 6).filter fun d => s.periodEnds d).map fun d => (d, Act.ev .trackingPeriodEnd [d])) ++
        s.sleepers.map fun q => (8 + q, Act.ev .selfRefreshEntry [q]))
  | 21 => onceFrom t 21 [(0, .lanes)]
  | 22 => whileFrom t 22 (s.nodeRow .watchdog fun e => s.watchdogDue e.1)
  | 23 => onceFrom t 23 ((s.cores.filter fun e => s.hangs e.1).map fun e => (e.1, .ev .enghang [e.1]))
  | 24 => whileFrom t 24 (s.nodeRow .gangComplete fun e => s.gangDone e.2 && !s.unretired e.2)
  | 25 => onceFrom t 25 (if s.faults.isEmpty then [] else [(0, .faults)])
  | 26 => onceFrom t 26 [(0, .gangs)]
  | 27 => whileFrom t 27 (s.nodeRow .preemptDrainEnd fun e => s.drained e.1)
  | 28 => whileFrom t 28 (s.nodeRow .gangComplete fun e => s.gangDone e.2)
  | 29 => onceFrom t 29 [(0, .victims)]
  | 30 =>
      whileFrom t 30 (((s.vifs.flatMap fun v => v.2.corrals.filterMap fun q =>
        match q.2 with
        | some c => if c.forms s.cycle then some (v.1, q.1) else none
        | none => none).head?).map fun x => .ev .batchForm [x.1, x.2])
  | 31 => onceFrom t 31 (if s.cycle % 16 = 0 ∧ s.resetStep = 5 ∧ !s.liveNodes.isEmpty then [(0, .ev .paddockDecision [])] else [])
  | 32 => some (0, .close)
  | _ => none

/-- The first act from phase `p` on, of `k` phases. -/
def State.actFrom (s : State) (t : Nat) : Nat → Nat → Option (Nat × Act)
  | _, 0 => none
  | p, k + 1 =>
      match (if t < place (p + 1) 0 then s.phaseAct t p else none) with
      | some r => some r
      | none => s.actFrom t (p + 1) k

/-- The next act: a step that is due, but that atomic messages arrive after the agents; else the first act from the turn on. -/
def State.nextAct (s : State) : Nat × Act :=
  match s.agenda.find? fun d => decide (d.cycle ≤ s.cycle ∧ d.row ≠ .atomicMessageArrival) with
  | some d => (s.turn, .due d)
  | none => (s.actFrom s.turn 0 33).getD (0, .close)

/-! ### The end of a cycle -/

/-- Insert a result after those that land before it: the later issue wins, then the higher cluster (R60). -/
def insertLanding (l : Landing) : List Landing → List Landing
  | [] => [l]
  | x :: t => if x.iss < l.iss ∨ (x.iss = l.iss ∧ x.cl ≤ l.cl) then x :: insertLanding l t else l :: x :: t

/-- The results of a core that land at the end of a cycle, in issue order (R57, R60). -/
def Core.landAll (k : Core) (cycle : Nat) : Core :=
  let due := k.inflight.filter fun l => decide (l.due ≤ cycle)
  let k := { k with inflight := k.inflight.filter fun l => decide (cycle < l.due) }
  (due.foldl (fun m l => insertLanding l m) []).foldl (fun k l => k.applyWrite l.cl accAdd l.w) k

/-- A cluster at trap entry issues once its earlier results have landed (R70). -/
def Core.enterHandlers (k : Core) : Core :=
  { k with cl := k.cl.map fun e =>
      match e.2.act with
      | .waiting h =>
          if h.kind = .trapEntry ∧ !k.inflight.any (fun l => decide (l.cl = e.1)) then (e.1, { e.2 with act := .running }) else e
      | _ => e }

/-- Add the tokens pushed in the cycle. -/
def Core.addTokens (k : Core) : Core :=
  { k with tokens := k.freshTokens.foldl (fun m (e : Nat × Nat) => SMap.set 0 m e.1 (SMap.get 0 m e.1 + e.2)) k.tokens,
           freshTokens := [] }

/-- The end of the cycle for core `n`: results land, pushed tokens and counters become visible, the throttle of the next cycle is
set; cycles in a debugger halt do not count toward the watchdog (R52, R213, R214, R363). -/
def State.closeCore (s : State) (n : Nat) : State :=
  s.modCore n fun k =>
    let k := ((k.landAll s.cycle).enterHandlers).addTokens
    { k with kSnap := k.k, tagSnap := k.tagAlloc,
             slow := max (s.laneLevel k) (SMap.get 0 s.thermal (coreDie n)),
             lastStep := if k.halted then k.lastStep + 1 else k.lastStep,
             progress := if k.halted then k.progress + 1 else k.progress }

/-- The end of the cycle: the adds left are applied, and the CRSTs of the cycle after them (R146). -/
def State.closeCycle (s : State) : State :=
  let s := (s.applyAdds fun _ => true).setCrsts
  let s := ((s.cores.map fun e => e.1).foldl State.closeCore s).nextSleep.applyHpt
  let s := if s.packets.isEmpty then s else s.meshCredits
  { s with poolNew := [], cycle := s.cycle + 1, turn := 0, hitSeen := [], crsts := [], later := [] }

/-- Lane reports. -/
def State.reportLanes (s : State) : State :=
  s.tierLanes.foldl (fun (s : State) e =>
    match e.2.node.bind s.node with
    | some x => if x.st = .dispatched then s else s.reportLane (e.1 / 8) (e.1 % 8)
    | none => s) s

/-- The channels of the gangs that end in this cycle enter CLOSED before instructions of other gangs reach them (R324). -/
def State.endGangs (s : State) : State :=
  (s.liveNodes.filter fun e => s.ending e.2).foldl (fun (s : State) e => s.releaseChans e.1) s

/-- The nodes that go on to DRAINING or to their engines' drain. -/
def State.settleGangs (s : State) : State :=
  (s.liveNodes.map fun e => e.1).foldl (fun (s : State) n => (s.startDraining n).startDrain n) s

/-! ### One act -/

/-- Perform an act. -/
def State.perform (s : State) : Act → Host.Outcome State Fault Refusal
  | .row i n q ev => exec i { s with curCore := n, curQueue := q, ev := ev, hitSeen := [] }
  | .due d => exec d.row { s with agenda := s.agenda.erase d, ev := d.args, hitSeen := [] }
  | .cluster n c => s.clusterTurn n c
  | .tick n => .next { s with curCore := n, hitSeen := [] }.tickMatrices
  | .sections n => .next (s.modCore n Core.settleSections)
  | .endings => .next s.endGangs
  | .posted n => .next (s.finishPosted n)
  | .after => .next s.performAfter
  | .egress => .next s.egress
  | .adds none => .next (s.applyAdds fun _ => true)
  | .adds (some n) => .next (s.applyAdds (AddReq.ofEngine n))
  | .crsts => .next s.applyCrsts
  | .lanes => .next s.reportLanes
  | .gangs => .next s.settleGangs
  | .faults => .next s.resolveFaults
  | .victims => .next s.readyVictims
  | .close => .next s.closeCycle

/-- What is done while there is no power: nothing but the start of a power-on reset (R359, R364). -/
def State.dark (s : State) : Host.Outcome State Fault Refusal :=
  match s.agenda.find? fun d => decide (d.row = .powerOnReset) with
  | some d => exec .powerOnReset { s with agenda := s.agenda.erase d, ev := d.args }
  | none => .fault .powerRemoved

/-! ### Bringing an instruction to the place of fetch -/

/-- Where the page table of a lone instruction lies, in HBM4E. -/
def bootTable : Nat := 0x10000000

/-- A leaf of 1 GiB at level 2 from address 0: valid, leaf, readable, writable, executable, user. -/
def bootLeaf : Nat := 1 + 2 + 32 + 64 + 128 + 256

/-- The indirection entries of the frames that hold the instruction and its page table are the identity, and no translation is
cached. -/
def State.bootFrames (s : State) : State :=
  { (s.setDit 0 (.identity 0)).setDit (bootTable / 65536) (.identity (bootTable / 65536)) with tlbs := [] }

/-- A page table of two nodes that maps virtual addresses below 1 GiB to the same device-physical addresses, for the ASID of
core 0. -/
def State.bootMap (s : State) : State :=
  let s := s.bootFrames
  let s := { s with roots := SMap.set 0 s.roots (s.core 0).asid.toNat (bootTable + 1) }
  (s.writeN bootTable 8 (1 + (bootTable / 4096 + 1) * 2 ^ 24)).writeN (bootTable + 4096) 8 bootLeaf

/-- Cluster 0 of core 0 runs at address 0 in user mode with the block of its instruction fetched, no loop open and no result or event
pending, and its turn comes next (log entry 18). -/
def State.bootCluster (s : State) : State :=
  let s := s.modCore 0 fun k => k.setCluster 0
    { k.cluster 0 with pc := 0, super := false, ldepth := 0, act := .running, event := none, issuedAt := 0, block := some 0 }
  { s with power := true, agenda := s.agenda.filter fun d => decide (s.cycle < d.cycle), later := [(0, 0)],
           turn := place 10 (8 * rankPlace 0) }

end Sys2Proof.Machine
end

