-- ==== Sys2Proof/Machine/Step.lean ====
section
/-!
DEFINITION. One step of the machine, and the placing of an instruction where the next step fetches.
-/

namespace Sys2Proof.Machine

/-- One step: without power nothing but a power-on reset can begin; else the next act of the cycle. -/
def step (s : State) : Host.Outcome State Fault Refusal :=
  if s.power then { s with turn := s.nextAct.1 }.perform s.nextAct.2 else s.dark

/-- `s` with the instruction whose `nbits` bits are `w`, the bits above them zero, stored where the next step fetches: at virtual
address 0 of cluster 0 of core 0, whose turn it is (log entry 18). -/
def State.withFetchWord (s : State) (nbits w : Nat) : State := (s.bootMap.writeN 0 12 (w % 2 ^ nbits)).bootCluster

end Sys2Proof.Machine
end

