-- ==== Sys2Proof/Safety.lean ====
section
/-!
DEFINITION. The terms in which statements speak of a run: when an instruction issues with its own effect, how it completes, what
stays as it is, and when a memory is in its canonical form.
-/

namespace Sys2Proof.Machine

/-! ### Issue and completion -/

/-- Instruction `i` of the cluster under way issues alone and with no trap of Table 7-12 or R139 before it: the mode may run it, no
loop end forbids it, and its S bit is clear. -/
def State.issues (s : State) (i : Instr) : Prop :=
  (Instr.privileged i = true → s.me.super = true) ∧ s.me.loopEndTrap i (wordLen (s.ir % 2 ^ 32)) = false ∧ s.irSync = false

/-- The state as the instruction under way finds it: none of its accesses has been counted for the tracker. -/
def State.fresh (s : State) : State := { s with hitSeen := [] }

/-- The instruction under way has issued and completed in sequence, or round a loop (R75, R139). -/
def State.inSequence (t : State) : State := t.markIssued.advance

/-- The instruction under way has issued and control goes to `pc`. -/
def State.jumpTo (t : State) (pc : Word) : State := t.markIssued.modMe fun c => { c with pc := pc, act := .running }

/-- The instruction under way has issued and holds its cluster (R59). -/
def State.holding (t : State) (h : Hold) : State := t.markIssued.modMe fun c => { c with act := .waiting { h with sync := false } }

/-- The cluster under way does not issue in this cycle: it waits and presents the instruction again (R44). -/
def State.stalled (s : State) (k : WaitKind) : State :=
  s.modMe fun c =>
    { c with act := .waiting { kind := k, instr := .nop, ea := 0, vals := [], sync := false,
                               since := match c.act with | .waiting h => if h.kind = k then h.since else s.cycle | _ => s.cycle } }

/-! ### Frames -/

/-- Nothing of the package has changed but its cores, and of these only the one under way. -/
def State.onlyMyCore (s t : State) : Prop :=
  t = { s with cores := t.cores, hitSeen := t.hitSeen } ∧ ∀ n, n ≠ s.curCore → t.core n = s.core n

/-- Of the core under way only its clusters, its results in flight and the cycle of its last progress may differ, and of its
clusters only the one under way. -/
def State.onlyMe (s t : State) : Prop :=
  t.myCore = { s.myCore with cl := t.myCore.cl, inflight := t.myCore.inflight, lastStep := t.myCore.lastStep } ∧
    ∀ c, c ≠ s.curCl → t.myCore.cluster c = s.myCore.cluster c

/-- Of the cluster under way only what every completion changes may differ: PC, the loop counter and depth, what it does, and the
record of its issue. -/
def State.onlyFlow (s t : State) : Prop :=
  t.me = { s.me with pc := t.me.pc, lcount := t.me.lcount, ldepth := t.me.ldepth, act := t.me.act, issuedAt := t.me.issuedAt,
                     block := t.me.block }

/-- Every byte of memory reads as before. -/
def State.sameBytes (s t : State) : Prop := ∀ pa, t.byte pa = s.byte pa

/-- Every byte of memory reads as before, but those whose media address is one of `ms`. -/
def State.sameBytesBut (s t : State) (ms : List Nat) : Prop := ∀ pa, s.media pa ∉ ms → t.byte pa = s.byte pa

/-- The media addresses of `n` bytes from `pa`. -/
def State.mediaRange (s : State) (pa n : Nat) : List Nat := (List.range n).map fun i => s.media (pa + i)

/-! ### Invariants -/

/-- The memory is in its canonical form. -/
def State.memOk (s : State) : Prop := Memory.wf s.mem = true

end Sys2Proof.Machine
end

