-- ==== Sys2Proof/Certificates/Slice0/Obligations.lean ====
section
/-!
DEFINITION. The statements for the provers, with the tables they speak of.
-/

namespace Sys2Proof.Claim

open Sys2Proof.Machine

/-! ### Encoding -/

/-- The code operand of TLBSYNC is a scope that Table 7-10 lists. -/
def scopeListed (code : Nat) : Instr → Prop
  | .tlbsync => code % 8 ≤ 4
  | _ => True

/-- An instruction of the three length classes that the encoding admits with sync bit `sync` and code `code`. -/
def encodable (sync : Bool) (code : Nat) (i : Instr) : Prop :=
  0 < i.words ∧ i.wf = true ∧ (i.rowAxis = true → sync = true) ∧ scopeListed code i

/-! ### The operations of Table 11-1 -/

def add (a b : Word) : Word := BitVec.ofNat 64 (a.toNat + b.toNat)
def sub (a b : Word) : Word := BitVec.ofInt 64 ((a.toNat : Int) - b.toNat)
def and (a b : Word) : Word := BitVec.ofNat 64 (a.toNat &&& b.toNat)
def or (a b : Word) : Word := BitVec.ofNat 64 (a.toNat ||| b.toNat)
def xor (a b : Word) : Word := BitVec.ofNat 64 (a.toNat ^^^ b.toNat)
def shl (a b : Word) : Word := BitVec.ofNat 64 (a.toNat * 2 ^ (b.toNat % 64))
def shr (a b : Word) : Word := BitVec.ofNat 64 (a.toNat / 2 ^ (b.toNat % 64))
def sar (a b : Word) : Word := BitVec.ofInt 64 (a.toInt / 2 ^ (b.toNat % 64))
def min (a b : Word) : Word := BitVec.ofInt 64 (Min.min a.toInt b.toInt)
def max (a b : Word) : Word := BitVec.ofInt 64 (Max.max a.toInt b.toInt)
def minu (a b : Word) : Word := BitVec.ofNat 64 (Min.min a.toNat b.toNat)
def maxu (a b : Word) : Word := BitVec.ofNat 64 (Max.max a.toNat b.toNat)
def seq (a b : Word) : Word := if a = b then 1 else 0
def sne (a b : Word) : Word := if a ≠ b then 1 else 0
def slt (a b : Word) : Word := if a.toInt < b.toInt then 1 else 0
def sltu (a b : Word) : Word := if a.toNat < b.toNat then 1 else 0
def sge (a b : Word) : Word := if b.toInt ≤ a.toInt then 1 else 0
def sgeu (a b : Word) : Word := if b.toNat ≤ a.toNat then 1 else 0
def mul (a b : Word) : Word := BitVec.ofInt 64 (a.toInt * b.toInt)
def mulh (a b : Word) : Word := BitVec.ofInt 64 (a.toInt * b.toInt / 2 ^ 64)
def mulhu (a b : Word) : Word := BitVec.ofNat 64 (a.toNat * b.toNat / 2 ^ 64)
def div (a b : Word) : Word := if b = 0 then BitVec.ofInt 64 (-1) else BitVec.ofInt 64 (a.toInt.tdiv b.toInt)
def divu (a b : Word) : Word := if b = 0 then BitVec.ofInt 64 (-1) else BitVec.ofNat 64 (a.toNat / b.toNat)
def rem (a b : Word) : Word := if b = 0 then a else BitVec.ofInt 64 (a.toInt - a.toInt.tdiv b.toInt * b.toInt)
def remu (a b : Word) : Word := if b = 0 then a else BitVec.ofNat 64 (a.toNat - a.toNat / b.toNat * b.toNat)
def lea (k : Nat) (a b : Word) : Word := BitVec.ofNat 64 (a.toNat + b.toNat * k)

/-- The register forms of two operands with latency and effect (Table 11-1). -/
def regTable : List ((Reg3 → Instr) × Nat × (Word → Word → Word)) :=
  [(.add, 1, add), (.sub, 1, sub), (.and, 1, and), (.or, 1, or), (.xor, 1, xor), (.shl, 1, shl), (.shr, 1, shr),
   (.sar, 1, sar), (.min, 1, min), (.max, 1, max), (.minu, 1, minu), (.maxu, 1, maxu), (.seq, 1, seq), (.sne, 1, sne),
   (.slt, 1, slt), (.sltu, 1, sltu), (.sge, 1, sge), (.sgeu, 1, sgeu), (.mul, 3, mul), (.mulh, 3, mulh),
   (.mulhu, 3, mulhu), (.div, 18, div), (.divu, 18, divu), (.rem, 18, rem), (.remu, 18, remu), (.leaX1, 1, lea 1),
   (.leaX2, 1, lea 2), (.leaX4, 1, lea 4), (.leaX8, 1, lea 8)]

/-- The immediate forms with a signed 12-bit immediate (Table 11-2). -/
def immTable : List ((Imm → Instr) × Nat × (Word → Word → Word)) :=
  [(.addi, 1, add), (.subi, 1, sub), (.muli, 3, mul), (.divi, 18, div), (.remi, 18, rem), (.slti, 1, slt),
   (.sltiu, 1, sltu), (.seqi, 1, seq), (.mini, 1, min), (.maxi, 1, max)]

/-- The immediate forms with an unsigned 12-bit immediate. -/
def immuTable : List ((Imm → Instr) × Nat × (Word → Word → Word)) := [(.andi, 1, and), (.ori, 1, or), (.xori, 1, xor)]

/-- The immediate shifts. -/
def shiftTable : List ((ShImm → Instr) × Nat × (Word → Word → Word)) := [(.shli, 1, shl), (.shri, 1, shr), (.sari, 1, sar)]

/-- The literal forms of the ALU operations (R129). -/
def litTable : List ((SLit → Instr) × Nat × (Word → Word → Word)) :=
  [(.addLit, 1, add), (.subLit, 1, sub), (.andLit, 1, and), (.orLit, 1, or), (.xorLit, 1, xor), (.shlLit, 1, shl),
   (.shrLit, 1, shr), (.sarLit, 1, sar), (.minLit, 1, min), (.maxLit, 1, max), (.minuLit, 1, minu), (.maxuLit, 1, maxu),
   (.seqLit, 1, seq), (.sneLit, 1, sne), (.sltLit, 1, slt), (.sltuLit, 1, sltu), (.sgeLit, 1, sge), (.sgeuLit, 1, sgeu),
   (.mulLit, 3, mul), (.mulhLit, 3, mulh), (.mulhuLit, 3, mulhu), (.divLit, 18, div), (.divuLit, 18, divu),
   (.remLit, 18, rem), (.remuLit, 18, remu)]

/-! ### Scalar memory -/

/-- Scalar loads: whether they extend the sign, and their bytes (Table 11-3, R133). -/
def loadTable : List ((Imm → Instr) × Bool × Nat) :=
  [(.ldB, true, 1), (.ldBu, false, 1), (.ldH, true, 2), (.ldHu, false, 2), (.ldW, true, 4), (.ldWu, false, 4),
   (.ldD, false, 8), (.lda, false, 8)]

/-- The state in which a store makes its checks: STL comes after the cluster's earlier atomic messages (R133). -/
def storeStart (i : Instr) (s : State) : State := match i with | .stl _ => s.fresh.landMine | _ => s.fresh

/-- A store with release semantics. -/
def releases : Instr → Bool
  | .stl _ => true
  | _ => false

/-- Scalar stores with their bytes. -/
def storeTable : List ((Imm → Instr) × Nat) := [(.stB, 1), (.stH, 2), (.stW, 4), (.stD, 8), (.stl, 8)]

/-- The 64-bit value of an n-byte number: extended from its top bit, or with zeros. -/
def widen (signed : Bool) (n v : Nat) : Word :=
  if signed ∧ 2 ^ (8 * n - 1) ≤ v then BitVec.ofInt 64 ((v : Int) - 2 ^ (8 * n)) else BitVec.ofNat 64 v

/-- Atomics with the new value of an n-byte location from its old value, the operand and the expected value, all below
`2 ^ (8 * n)` (Table 7-9); AFADD is stated apart. -/
def atomTable : List ((AtomOps → Instr) × (Nat → Nat → Nat → Nat → Nat)) :=
  [(.aadd, fun n old v _ => (old + v) % 2 ^ (8 * n)),
   (.amin, fun n old v _ => if intVal true (8 * n) v < intVal true (8 * n) old then v else old),
   (.amax, fun n old v _ => if intVal true (8 * n) old < intVal true (8 * n) v then v else old),
   (.aminu, fun _ old v _ => Min.min old v), (.amaxu, fun _ old v _ => Max.max old v),
   (.aand, fun _ old v _ => old &&& v), (.aor, fun _ old v _ => old ||| v), (.axor, fun _ old v _ => old ^^^ v),
   (.aswp, fun _ _ v _ => v), (.acas, fun _ old v ex => if old = ex then v else old)]

/-- The branches with their conditions (Table 11-4). -/
def branchTable : List ((Br → Instr) × (Word → Word → Bool)) :=
  [(.beq, fun a b => decide (a = b)), (.bne, fun a b => decide (a ≠ b)), (.blt, fun a b => decide (a.toInt < b.toInt)),
   (.bge, fun a b => decide (b.toInt ≤ a.toInt)), (.bltu, fun a b => decide (a.toNat < b.toNat)),
   (.bgeu, fun a b => decide (b.toNat ≤ a.toNat))]

/-! ### Completions -/

/-- The state in which BLOCKING_COMPLETION finds the cluster that its operands name. -/
def woken (s : State) : State := { s with curCore := s.ev.nat 0, curCl := s.ev.nat 1, hitSeen := [] }

/-- The cluster of BLOCKING_COMPLETION waits with `h`, since the cycle that its operands name. -/
def held (s : State) (h : Hold) : Prop := (woken s).me.act = .waiting h ∧ h.since = s.ev.nat 2

/-- A blocking instruction completes in this step with result `w`, which lands at its end (R59, R60). -/
def completes (s : State) (h : Hold) (w : Write) : Prop :=
  exec .blockingCompletion s = .next (((woken s).resultOf h.since w).release h)

/-! ### Tile instructions -/

/-- State `t` comes from `s` by a tile write of latency `l` to T[d] under predicate `pred` whose columns have, at every value
position of type `ty`, the pattern that `val` gives, and whose flags are those that `val` gives at any position of an enabled column. -/
def valued (s t : State) (l : Nat) (d : BitVec 5) (src : Option (BitVec 5)) (pred : BitVec 3) (mode : Rnd) (ty : ETy)
    (val : BitVec 32 → Nat → Nat → Nat → Nat × FFlags) : Prop :=
  ∃ f : BitVec 32 → Nat → Nat → List Elem × FFlags, tileOp l d pred mode src f s = .done t ∧ ∀ sr i j,
    (∀ v, v < ty.count → posBits ty.width (f sr i j).1 v = (val sr i j v).1 % 2 ^ ty.width) ∧
    ∀ b, (f sr i j).2.getLsbD b = true ↔ ∃ v, v < ty.count ∧ (val sr i j v).2.getLsbD b = true

/-- Tile instruction `i` completes in sequence with such a write, in its own rounding mode. -/
def valueTile (s : State) (i : Instr) (l : Nat) (d a : BitVec 5) (m : Mods) (val : BitVec 32 → Nat → Nat → Nat → Nat × FFlags) : Prop :=
  ∃ t, valued s.fresh t l d (some a) m.pred (s.mode m.rnd) m.ety val ∧ exec i s = .next t.inSequence

/-- The value of position `v` of a column under the modifiers of a source. -/
def floatAt (m : Mods) (c : List Elem) (v : Nat) (n ab : Bool) : FVal :=
  ((etyFmt m.ety).value (posBits m.ety.width c v)).modify n ab

/-- The integer of position `v` of a column under the modifiers of a source. -/
def intAt (m : Mods) (c : List Elem) (v : Nat) (n ab : Bool) : Int :=
  modInt (intVal (!m.ety.isUnsigned) m.ety.width (posBits m.ety.width c v)) n ab

/-- A floating-point instruction with the columns of b and c. -/
def floatTile (s : State) (i : Instr) (f : FpFn) (d a : BitVec 5) (m : Mods) (cb cc : Nat → List Elem) : Prop :=
  let mode := s.mode m.rnd
  let w := m.ety.width
  valueTile s i 4 d a m (fun sr lane j v =>
    let y := fpFn f (decide (mode = .rdn)) (floatAt m (s.myCore.column a.toNat j) v m.negA m.absA) (floatAt m (cb j) v m.negB m.absB)
      (floatAt m (cc j) v m.negC m.absC)
    fpFinish (etyFmt m.ety) m (mkMode mode sr lane (subElem w v) w) y.1 y.2)

/-- An integer instruction with the columns of b. -/
def intTile (s : State) (i : Instr) (f : IntFn) (d a : BitVec 5) (m : Mods) (cb : Nat → List Elem) : Prop :=
  let mode := s.mode m.rnd
  let w := m.ety.width
  valueTile s i 2 d a m (fun sr lane j v =>
    let x := intAt m (s.myCore.column a.toNat j) v m.negA m.absA
    let y := intAt m (cb j) v m.negB m.absB
    let z : Int := match f with | .add => x + y | .sub => x - y | .mul => x * y
    (intBits w (clampInt m.clamp (!m.ety.isUnsigned) w
      (roundInt (mkMode mode sr lane (subElem w v) w) (decide (z < 0)) z.natAbs m.scale.toInt)), 0))

/-- A logic or shift instruction with the columns of b: the shift is the low log2(w) bits of b's value. -/
def logicTile (s : State) (i : Instr) (f : LogFn) (d a : BitVec 5) (m : Mods) (cb : Nat → List Elem) : Prop :=
  let w := m.ety.width
  ∃ t, valued s.fresh t 2 d (some a) m.pred .rne m.ety (fun _ _ j v =>
    let x := posBits w (s.myCore.column a.toNat j) v
    let y := posBits w (cb j) v
    (match f with
     | .and => x &&& y
     | .or => x ||| y
     | .xor => x ^^^ y
     | .shl => x * 2 ^ (y % w) % 2 ^ w
     | .shr => x / 2 ^ (y % w)
     | .sar => ((intVal true w x / 2 ^ (y % w)) % 2 ^ w).toNat, 0)) ∧ exec i s = .next t.inSequence

/-- A compare with the columns of b: the bits of Pd that its predicate enables. -/
def compareTile (s : State) (i : Instr) (pd : BitVec 3) (a : BitVec 5) (cond : BitVec 4) (any : Bool) (m : Mods)
    (cb : Nat → List Elem) : Prop :=
  ∃ v : BitVec 16, exec i s = .next ((s.fresh.modMe fun c => { c with latch := some a }).result 2 (.p pd.toNat (s.p m.pred) v)).inSequence ∧
    ∀ k, k < 16 → (s.p m.pred).getLsbD k = true → (v.getLsbD k = true ↔
      let holds (q : Nat) : Prop := cmpAt m cond.toNat (s.myCore.column a.toNat (16 * s.curCl + k)) (cb (16 * s.curCl + k)) q = true
      if any then ∃ q, q < m.ety.count ∧ holds q else ∀ q, q < m.ety.count → holds q)

/-- State `t` comes from `s` by a move of latency `l`: element (r, j) of T[d] receives element `g r j` of T[a]. -/
def moved (s t : State) (l : Nat) (d a : BitVec 5) (pred : BitVec 3) (g : Nat → Nat → Nat × Nat) : Prop :=
  tileOp l d pred .rne (some a) (fun _ _ j =>
    ((List.range 16).map fun r => s.myCore.tile a.toNat (g r j).1 (g r j).2, 0)) s = .done t

/-- A move instruction that completes in sequence. -/
def moveTile (s : State) (i : Instr) (l : Nat) (d a : BitVec 5) (pred : BitVec 3) (g : Nat → Nat → Nat × Nat) : Prop :=
  ∃ t, moved s.fresh t l d a pred g ∧ exec i s = .next t.inSequence

/-! ### Distribution instructions -/

/-- Instruction `i` completes in sequence with a write of D[d] by elements. -/
def distTile (s : State) (i : Instr) (l : Nat) (d : BitVec 4) (tag : TagOf) (pred : BitVec 3) (f : Nat → List Point × FFlags) : Prop :=
  ∃ t, distOp l d tag pred f s.fresh = .done t ∧ exec i s = .next t.inSequence

/-- Instruction `i` changes the value of every point of D[a] by `g`, which also gives its flags, and keeps weights and tag. -/
def pointTile (s : State) (i : Instr) (d a : BitVec 4) (pred : BitVec 3) (g : Nat → BitVec 32 → BitVec 32 × FFlags) : Prop :=
  ∃ f : Nat → List Point × FFlags, distTile s i 6 d (.is (s.myCore.tag a.toNat)) pred f ∧
    ∀ j, (f j).1 = (s.myCore.element a.toNat j).map (fun p => ((g j p.1).1, p.2)) ∧
      ∀ b, (f j).2.getLsbD b = true ↔ ∃ p ∈ s.myCore.element a.toNat j, (g j p.1).2.getLsbD b = true

/-- Instruction `i` with S clear writes row `r` of the enabled columns of T[d] with a number each, and their flags. -/
def extract (s : State) (i : Instr) (l : Nat) (d : BitVec 5) (r : Nat) (pred : BitVec 3) (f : Nat → Nat × FFlags) : Prop :=
  ∃ (cells : List (Nat × Elem)) (fl : FFlags),
    let u := s.fresh.land s.curCore s.curCl (s.cycle + l - 1) (.tile cells)
    exec i s = .next (if fl = 0 then u else u.land s.curCore s.curCl (s.cycle + l - 1) (.flags fl)).inSequence ∧
    (∀ k v, (k, v) ∈ cells ↔ ∃ j, j < 16 ∧ (s.p pred).getLsbD j = true ∧ k = tileKey d.toNat r (16 * s.curCl + j) ∧
      v = BitVec.ofNat 32 (f (16 * s.curCl + j)).1) ∧
    ∀ b, fl.getLsbD b = true ↔ ∃ j, j < 16 ∧ (s.p pred).getLsbD j = true ∧ (f (16 * s.curCl + j)).2.getLsbD b = true

/-! ### Engine commands -/

/-- The head `c` of the queue under way has not started before and R215 lets it issue; `q` is the rest of the queue. -/
def heads (s : State) (c : QCmd) (q : List QCmd) : Prop :=
  s.myCore.queue s.curQueue = c :: q ∧ c.resume = none ∧ s.queuesRun s.curCore = true ∧ s.myCore.headReady s.cycle s.curQueue c = true

/-- In `t` it has issued in this cycle: it left its queue with its tokens and is under way from row 0, done at `done` if that is
known; memory and the record of faults are as before. -/
def issued (s t : State) (c : QCmd) (q : List QCmd) (done : Option Nat) : Prop :=
  t.curCore = s.curCore ∧ t.myCore.queue s.curQueue = q ∧ t.mem = s.mem ∧ t.faults = s.faults ∧
  (∀ f, SMap.get 0 t.myCore.tokens f = SMap.get 0 s.myCore.tokens f - (if f ∈ c.pops s.curQueue then 1 else 0)) ∧
  ∃ i : Issued, t.myCore.issued = s.myCore.issued ++ [i] ∧ i.id = s.myCore.nextCmd ∧ i.c = c ∧ i.queue = s.curQueue ∧
    i.t0 = s.cycle ∧ i.tcb = s.myCore.tcb ∧ i.r.row = 0 ∧ i.doneAt = done

/-- In `t` stream register `r` has advanced as its descriptor says. -/
def advanced (s t : State) (r : Nat) : Prop :=
  SMap.get 0 t.myCore.sregs r = BitVec.ofNat 256 (sdAdvance (s.myCore.sreg r)) ∧
    ∀ j, j ≠ r → SMap.get 0 t.myCore.sregs j = SMap.get 0 s.myCore.sregs j

/-- In `t` the head has left its queue with engine fault `e`. -/
def refused (s t : State) (q : List QCmd) (e : Nat × Word) : Prop :=
  t.myCore.queue s.curQueue = q ∧ t.mem = s.mem ∧ t.myCore.issued = s.myCore.issued ∧
    ∃ r : FaultRec, t.faults = s.faults ++ [r] ∧ r.cause = e.1 ∧ r.info = e.2 ∧ r.kind = .engine ∧ r.core = s.curCore

/-- A word of `b` bytes at `a` of stream `st` of core `n` can be fetched in this cycle: it lies in the own scratchpad, or the open time of
its fetch is over (R370). -/
def fetched (s : State) (n : Nat) (st : Stream) (a b : Nat) : Prop :=
  ({ s with curCore := n } : State).ownBytes (unitBridle n) a b = true ∨ (st.gate.1 = a + 1 ∧ st.gate.2 ≤ s.cycle)

/-! ### Page tables -/

/-- The node that a walk of `va` reaches in `k` levels from a node at level `l`, through entries that name nodes (Tables 17-2 and 17-3). -/
def tableAt (s : State) (va : Nat) : Nat → Nat → Nat → Option Nat
  | 0, _, node => some node
  | k + 1, l, node =>
      let e := s.readN (node + 8 * (va / (4096 * 512 ^ l) % 512)) 8
      if e % 2 ^ 24 = 1 then tableAt s va k (l - 1) (e / 2 ^ 24 % 2 ^ 40 * 4096) else none

/-- The addresses of the entries that it reads. -/
def tablePath (s : State) (va : Nat) : Nat → Nat → Nat → List Nat
  | 0, _, _ => []
  | k + 1, l, node =>
      let a := node + 8 * (va / (4096 * 512 ^ l) % 512)
      a :: tablePath s va k (l - 1) (s.readN a 8 / 2 ^ 24 % 2 ^ 40 * 4096)

/-- The media addresses of the entries, one for each replica, of a page of size code `k` at level `l` in its node (R247). -/
def replicas (s : State) (va node l k : Nat) : List Nat :=
  (List.range (4 ^ k)).flatMap fun i => s.mediaRange (node + 8 * (va / (4096 * 512 ^ l) % 512 + i)) 8

/-- The page of size code `k` at level `l` at `va` has its table, `node`, in the context with root `root`; no entry of the walk lies where
the page's own entries lie. -/
def hasTable (s : State) (root va node l k : Nat) : Prop :=
  l < 3 ∧ k ≤ 4 ∧ tableAt s va (3 - l) 3 root = some node ∧
    (replicas s va node l k).Nodup ∧ ∀ a ∈ tablePath s va (3 - l) 3 root, ∀ m ∈ s.mediaRange a 8, m ∉ replicas s va node l k

/-! ### Fabric and frames -/

/-- From `s` to `t` media frame `f` joins the pool `key`: behind the frames that were there, and among those that joined it in this
cycle in ascending order (R292); no other pool changes. -/
def joins (s t : State) (key f : Nat) : Prop :=
  (∀ a b : List Nat, SMap.get [] s.pools key = a ++ b → b.length = (s.poolNew.filter fun e => decide (e.1 = key)).length →
    ∃ c d, b = c ++ d ∧ SMap.get [] t.pools key = a ++ c ++ f :: d ∧ (∀ x ∈ c.getLast?, x ≤ f) ∧ ∀ x ∈ d.head?, f < x) ∧
  ∀ k, k ≠ key → SMap.get [] t.pools k = SMap.get [] s.pools k

/-- Memory in `t` is that of `s`, but that media frame `g` holds what media frame `f` held. -/
def frameCopied (s t : State) (f g : Nat) : Prop :=
  (∀ i, i < 65536 → SMap.get memDefault t.mem (s.mediaCell (g * 65536 + i)) =
    SMap.get memDefault s.mem (s.mediaCell (f * 65536 + i))) ∧
  ∀ a, (∀ i, i < 65536 → a ≠ s.mediaCell (g * 65536 + i)) → SMap.get memDefault t.mem a = SMap.get memDefault s.mem a

/-- Word 0 of an indirection entry (Table 21-1). -/
def entryWord (e : DitEntry) : Word :=
  w64 (e.mframe % 2 ^ 36 + e.valid.toNat * 2 ^ 36 + e.autoTier.toNat * 2 ^ 37 + e.pin.toNat * 2 ^ 38 + e.shd.toNat * 2 ^ 39 +
    e.mov.toNat * 2 ^ 40)

/-- Counter `i` of a pseudo-channel (Table 21-9). -/
def counterAt (c : ChanCtr) (i : Nat) : Nat :=
  match i with
  | 0 => c.reads
  | 1 => c.writes
  | 2 => c.conflicts
  | 3 => c.stalls
  | _ => c.entries

/-- Routers of the mesh, 16 to a row, between two routers. -/
def meshDist (a b : Nat) : Nat :=
  (Max.max (a % 16) (b % 16) - Min.min (a % 16) (b % 16)) + (Max.max (a / 16) (b / 16) - Min.min (a / 16) (b / 16))

/-- Instructions that read and write registers of their cluster only. -/
def registerOnly : Instr → Bool
  | .add _ | .sub _ | .and _ | .or _ | .xor _ | .shl _ | .shr _ | .sar _ | .min _ | .max _ | .minu _ | .maxu _ | .seq _ | .sne _
  | .slt _ | .sltu _ | .sge _ | .sgeu _ | .clz _ | .popc _ | .mul _ | .mulh _ | .mulhu _ | .div _ | .divu _ | .rem _ | .remu _
  | .sel _ | .leaX1 _ | .leaX2 _ | .leaX4 _ | .leaX8 _ | .addi _ | .subi _ | .muli _ | .divi _ | .remi _ | .andi _ | .ori _
  | .xori _ | .shli _ | .shri _ | .sari _ | .slti _ | .sltiu _ | .seqi _ | .mini _ | .maxi _ | .addLit _ | .subLit _ | .andLit _
  | .orLit _ | .xorLit _ | .shlLit _ | .shrLit _ | .sarLit _ | .minLit _ | .maxLit _ | .minuLit _ | .maxuLit _ | .seqLit _
  | .sneLit _ | .sltLit _ | .sltuLit _ | .sgeLit _ | .sgeuLit _ | .mulLit _ | .mulhLit _ | .mulhuLit _ | .divLit _ | .divuLit _
  | .remLit _ | .remuLit _ | .lit _ | .qlen _ | .cread _ | .srd _ | .beq _ | .bne _ | .blt _ | .bge _ | .bltu _ | .bgeu _ | .jmp _
  | .jal _ | .jr _ | .nop => true
  | _ => false

end Sys2Proof.Claim

open Sys2Proof Sys2Proof.Machine

/-! ### Encoding and decoding -/

/-- Every instruction of the three length classes decodes from its own words: any operands, either sync bit (R74-R91). -/
def Obligations.EncodeDecode : Prop :=
  ∀ (sync : Bool) (code : Nat) (i : Instr), Claim.encodable sync code i → decode (encode sync code i) = .ok i

/-- Every well-formed engine command decodes from its own 96 bits (R90, R91). -/
def Obligations.CommandEncodeDecode : Prop := ∀ c : EngCmd, c.wf = true → decodeCmd (encodeCmd c) = some c

/-- The bytes of an instruction decode to it and to the bytes after it, and its first word states its length (R74, R75). -/
def Sys2Proof.Claim.DecodeBytesConsumes : Prop :=
  ∀ (sync : Bool) (code : Nat) (i : Instr) (rest : List Byte), Claim.encodable sync code i →
    decodeBytes (encodeBytes sync code i ++ rest) = .ok (i, rest) ∧ wordLen (encode sync code i % 2 ^ 32) = 4 * i.words

/-- What decodes is well formed, has the length its first word states, and a row-axis instruction has S set (R56, R74, R88). -/
def Sys2Proof.Claim.DecodedIsWellFormed : Prop :=
  ∀ (w : Nat) (i : Instr), decode w = .ok i →
    i.wf = true ∧ 4 * i.words = wordLen w ∧ 0 < i.words ∧ (i.rowAxis = true → wordSync w = true)

/-- Decoding is exact: what the bytes of an instruction decode to, and what anything that decodes is (R56, R74, R75, R88). -/
def Obligations.DecodesExactly : Prop := Claim.DecodeBytesConsumes ∧ Claim.DecodedIsWellFormed

/-- Words of one instruction of several families, written out from the spec's encodings, and words that are none: pand p3, p1,
p2; pset p1, 0xFFFF (R186); the length code 0b11 (R74); add x3, x1, x2; NOP; jmp -1; addi x1, x2, -1 from Tables 7-1 and 7-7;
NOP with a reserved bit set (Table 7-12, row 5); 32-bit major 0x7F (row 4). -/
def Obligations.DecodeWords : Prop :=
  decode 0x14061100 = .ok (.pand { pd := 3, pa := 1, pb := 2 }) ∧
  decode 0x1442FFFF = .ok (.pset { pd := 1, imm := 0xFFFF }) ∧
  decode (3 * 2 ^ 30) = .error .illen ∧
  decode (3 * 2 ^ 17 + 1 * 2 ^ 12 + 2 * 2 ^ 7) = .ok (.add { rd := 3, ra := 1, rb := 2 }) ∧
  decode (0x6A * 2 ^ 22) = .ok .nop ∧
  decode (0x26 * 2 ^ 22 + 0x3FFFFF) = .ok (.jmp { off := 0x3FFFFF }) ∧
  decode (0x01 * 2 ^ 22 + 1 * 2 ^ 17 + 2 * 2 ^ 12 + 0xFFF) = .ok (.addi { rd := 1, ra := 2, imm := 0xFFF }) ∧
  decode (0x6A * 2 ^ 22 + 1) = .error .illfld ∧ decode (0x7F * 2 ^ 22) = .error .illop

/-! ### Steps -/

/-- A step runs the decoded instruction: when the turn is that of a cluster that presents an instruction in this cycle and has no
event pending, when the bytes at its PC under its page's execute permission decode to `i`, and when it need not wait for a block,
the step is `exec` of `i` for that cluster, the leaf of the fetch being cached. -/
def Obligations.StepRunsDecoded : Prop :=
  ∀ (s : State) (place n c w : Nat) (t : State) (i : Instr), s.power = true → s.nextAct = (place, .cluster n c) →
    (s.cluster n c).event = none → (s.cluster n c).presents s.cycle = true →
    (let u : State := { s with turn := place, curCore := n, curCl := c, hitSeen := [] }
     u.fetch n c (s.cluster n c).pc.toNat = .word t w ∧
     missingBlock (s.cluster n c).block (s.cluster n c).pc.toNat ((s.cluster n c).pc.toNat + wordLen (w % 2 ^ 32) - 1) = none ∧
     decode w = .ok i) →
    step s = exec i { t with ir := w }

/-- The first word that a fetch reads is the 32 bits at the address that the page's leaf gives, and the page lets the mode execute
it (R75, R249): in user mode X = 1 and U = 1, in supervisor mode X = 1 and U = 0; a page without that permission gives PROT and no word,
an address that no leaf translates XLATE. That the word is the one memory holds at the fetch is the model's choice (log entry 76). -/
def Obligations.FetchReadsMemory : Prop :=
  ∀ (s : State) (n c va : Nat),
    (∀ t w, s.fetch n c va = .word t w → ∃ e a,
      s.check (unitCore n) (s.core n).asid.toNat (s.cluster n c).super .fetch va = .ok e ∧ pteX e.ent = true ∧
      pteU e.ent = !(s.cluster n c).super ∧ s.target (e.pa va) false = some a ∧ w % 2 ^ 32 = s.readN a 4) ∧
    (∀ e, va < 2 ^ 48 → s.lookup (unitCore n) (s.core n).asid.toNat va = some e →
      pteX e.ent = false ∨ pteU e.ent = (s.cluster n c).super → s.fetch n c va = .bad s cPROT (w64 va) 0) ∧
    (2 ^ 48 ≤ va ∨ s.lookup (unitCore n) (s.core n).asid.toNat va = none → s.fetch n c va = .bad s cXLATE (w64 va) 0) ∧
    (∀ k, s.check (unitCore n) (s.core n).asid.toNat (s.cluster n c).super .fetch va = .error k →
      s.fetch n c va = .bad s k (w64 va) 0)

/-- With power on every step answers a next state; without power only a power-on reset that is due has one, and every other step
stops (R359, R364). -/
def Obligations.StepAnswers : Prop :=
  ∀ s : State, (s.power = true → ∃ t, step s = .next t) ∧
    (s.power = false → s.agenda.all (fun d => decide (d.row ≠ .powerOnReset)) = true → step s = .fault .powerRemoved) ∧
    (s.power = false → s.agenda.any (fun d => decide (d.row = .powerOnReset)) = true → ∃ t, step s = .next t)

/-- Every step keeps the memory in its canonical form. -/
def Obligations.MemoryStaysCanonical : Prop := ∀ s t : State, s.memOk → step s = .next t → t.memOk

/-- Every cluster after reset (Table 5-1, Table 5-3, R360): idle, PC 0, user mode, X registers 0, P registers all ones, the loop stack
empty, the system registers at their reset values, and no store buffered. -/
def Sys2Proof.Claim.ClusterReset : Prop :=
  ∀ n c, let k := State.reset.cluster n c
    k.act = .idle ∧ k.pc = 0 ∧ k.super = false ∧ (∀ r, k.readX r = 0) ∧ (∀ r, k.readP r = 0xFFFF) ∧
    k.flags = 0 ∧ k.rnd = 0 ∧ k.trapPc = 0 ∧ k.trapCause = 0 ∧ k.trapInfo = 0 ∧ k.trapStat = 0 ∧ k.tvec = 0xFFFFF0000000 ∧
    (∀ i, SMap.get 0 k.sscr i = 0 ∧ SMap.get 0 k.lstart i = 0 ∧ SMap.get 0 k.lend i = 0 ∧ SMap.get 0 k.lcount i = 0) ∧
    k.ldepth = 0 ∧ k.srstate = 0x9E3779B9 ∧ k.latch = none ∧ k.dtBuf = [] ∧ k.posted = []

/-- Every core after reset (Table 5-1, R53): tiles, descriptors, iterators, distributions, counters, accumulators, the configuration
block and the codebook 0, queue entries FREE, no lock, mark, token, command or stream, TAGALLOC 1. -/
def Sys2Proof.Claim.CoreReset : Prop :=
  ∀ n, let k := State.reset.core n
    (∀ t r c, k.tile t r c = 0) ∧ (∀ t, k.locked t = false) ∧ (∀ q e, (k.qEntry q e).st = .free) ∧
    (∀ i, SMap.get 0 k.sregs i = 0 ∧ SMap.get 0 k.iregs i = 0 ∧ SMap.get 0 k.dval i = 0 ∧ SMap.get 0 k.dwt i = 0 ∧
      SMap.get 0 k.dtags i = 0 ∧ SMap.get 0 k.k i = 0 ∧ SMap.get 0 k.acc i = 0 ∧ SMap.get 0 k.codebook i = 0 ∧
      SMap.get 0 k.tokens i = 0 ∧ SMap.get false k.guards i = false) ∧
    k.tagAlloc = 1 ∧ k.tcb = 0 ∧ k.copySr = 0x9E3779B9 ∧ k.loadQ = [] ∧ k.matQ = [] ∧ k.storeQ = [] ∧ k.issued = [] ∧
    k.stream = none ∧ k.inbox = [] ∧ k.node = none ∧ k.inflight = []

/-- The package after reset (R289, R298, R335, R359, Table 25-2): CYCLE 0, memory that lists nothing, scratchpads of zeros, the identity
in the indirection table, no node, every interface without resources and with weight 1 and watchdog 24, its rings disabled, every
channel CLOSED, every pseudo-channel counter 0, and a torus of one package. That bytes outside the scratchpads are listed nowhere is the
model's choice (log entry 2). -/
def Sys2Proof.Claim.PackageReset : Prop :=
  State.reset.memOk ∧ State.reset.mem = [] ∧ State.reset.cycle = 0 ∧ State.reset.power = true ∧ State.reset.resetStep = 5 ∧
  (∀ pa, memKind pa = some .scratch → State.reset.byte pa = 0) ∧
  (∀ f, State.reset.ditEntry f = .identity f) ∧ State.reset.nodes = [] ∧
  (∀ v, let x := State.reset.vif v
    x.cores = 0 ∧ x.weight = 1 ∧ (∀ d, SMap.get 0 x.lanes d = 0) ∧ x.chans = 0 ∧ x.slots = 0 ∧ x.tclass = 0 ∧ x.watchdog = 24 ∧
    x.reserve = 0 ∧ (∀ i, SMap.get (0, 0) x.ranges i = (0, 0)) ∧ (State.reset.ring v).enabled = false) ∧
  (∀ i, (State.reset.chan i).st = .closed) ∧ (∀ d l, (State.reset.lane d l).st = .idle) ∧
  (∀ q, State.reset.chanCtr q = .reset) ∧ (∀ d, State.reset.extent d = 1) ∧ State.reset.pkg = 0

/-- After reset every cluster, core and interface is as Table 5-1, Table 5-3, Table 25-2 and R360 say, memory lists nothing, and CYCLE
is 0. -/
def Obligations.ResetState : Prop := Claim.ClusterReset ∧ Claim.CoreReset ∧ Claim.PackageReset

/-! ### Issue -/

/-- A privileged instruction in user mode raises PRIV and does nothing else (Table 7-12, row 7). -/
def Obligations.PrivilegedTraps : Prop :=
  ∀ (i : Instr) (s : State), Instr.privileged i = true → s.me.super = false → exec i s = .next (s.trap cPRIV 0)

/-- Taking a trap (R70): the cluster saves PC, cause, information and status, enters supervisor mode and goes to TVEC, its latch becomes
invalid and it waits for its earlier results; nothing else of the package changes but the record of the fault. A trap in a nested
handler is not handled (R71): the cluster stops, and nothing else of it changes. -/
def Obligations.TrapEntry : Prop :=
  ∀ (s : State) (n c cause : Nat) (info ret : Word) (sync forced : Bool),
    let k := s.cluster n c
    let t := s.trapAt n c cause info ret sync forced
    (∀ m d, (m, d) ≠ (n, c) → t.cluster m d = s.cluster m d) ∧ t = { s with cores := t.cores, faults := t.faults } ∧
    (∀ m, m ≠ n → t.core m = s.core m) ∧ t.core n = { s.core n with cl := (t.core n).cl } ∧
    (∃ r : FaultRec, t.faults = s.faults ++ [r] ∧ r.cause = cause ∧ r.info = info ∧ r.core = n ∧ r.unit = c) ∧
    (if k.nested = true then
      t.cluster n c = { k with act := (t.cluster n c).act } ∧ (t.cluster n c).live = false
    else
      let j := t.cluster n c
      j.trapPc = ret ∧ j.trapCause = BitVec.ofNat 64 cause ∧ j.trapInfo = info ∧ j.super = true ∧ j.pc = k.tvec ∧
      j.latch = none ∧ j.trapStat.toNat = k.super.toNat * 3 + 4 * sync.toNat + 8 * forced.toNat + 16 * k.ldepth.toNat ∧
      (∃ h : Hold, j.act = .waiting h ∧ h.kind = .trapEntry ∧ h.since = s.cycle) ∧
      j = { k with trapPc := j.trapPc, trapCause := j.trapCause, trapInfo := j.trapInfo, trapStat := j.trapStat, super := j.super,
                   pc := j.pc, latch := j.latch, act := j.act })

/-! ### Scalar results -/

/-- The ALU family: each instruction writes X[rd] with the effect and latency of Table 11-1 and completes in sequence. -/
def Sys2Proof.Claim.AluRegisterForms : Prop :=
  (∀ p ∈ Claim.regTable, ∀ (o : Reg3) (s : State), s.issues (p.1 o) →
    exec (p.1 o) s = .next (s.fresh.resultX p.2.1 o.rd (p.2.2 (s.x o.ra) (s.x o.rb))).inSequence) ∧
  (∀ (o : Reg3) (s : State), s.issues (.sel o) →
    exec (.sel o) s = .next (s.fresh.resultX 1 o.rd (if s.x o.rd = 0 then s.x o.rb else s.x o.ra)).inSequence) ∧
  (∀ (o : Reg2) (s : State), s.issues (.clz o) → ∃ v : Word,
    exec (.clz o) s = .next (s.fresh.resultX 1 o.rd v).inSequence ∧ v.toNat ≤ 64 ∧
      (s.x o.ra).toNat < 2 ^ (64 - v.toNat) ∧ (v.toNat < 64 → 2 ^ (63 - v.toNat) ≤ (s.x o.ra).toNat)) ∧
  (∀ (o : Reg2) (s : State), s.issues (.popc o) →
    exec (.popc o) s = .next (s.fresh.resultX 1 o.rd
      (BitVec.ofNat 64 ((List.range 64).filter fun i => (s.x o.ra).getLsbD i).length)).inSequence)

/-- The immediate and literal forms compute the operations of Table 11-1 with b replaced, with the same latencies. -/
def Sys2Proof.Claim.AluImmediateForms : Prop :=
  (∀ p ∈ Claim.immTable, ∀ (o : Imm) (s : State), s.issues (p.1 o) →
    exec (p.1 o) s = .next (s.fresh.resultX p.2.1 o.rd (p.2.2 (s.x o.ra) (BitVec.ofInt 64 o.imm.toInt))).inSequence) ∧
  (∀ p ∈ Claim.immuTable, ∀ (o : Imm) (s : State), s.issues (p.1 o) →
    exec (p.1 o) s = .next (s.fresh.resultX p.2.1 o.rd (p.2.2 (s.x o.ra) (BitVec.ofNat 64 o.imm.toNat))).inSequence) ∧
  (∀ p ∈ Claim.shiftTable, ∀ (o : ShImm) (s : State), s.issues (p.1 o) →
    exec (p.1 o) s = .next (s.fresh.resultX p.2.1 o.rd (p.2.2 (s.x o.ra) (BitVec.ofNat 64 o.sh.toNat))).inSequence) ∧
  (∀ p ∈ Claim.litTable, ∀ (o : SLit) (s : State), s.issues (p.1 o) →
    exec (p.1 o) s = .next (s.fresh.resultX p.2.1 o.rd (p.2.2 (s.x o.ra) (BitVec.ofInt 64 o.lit.toInt))).inSequence) ∧
  (∀ (o : LitOps) (s : State), s.issues (.lit o) →
    exec (.lit o) s = .next (s.fresh.resultX 1 o.rd o.lit).inSequence)

/-- The words of the immediate forms (R128, Tables 7-1 and 11-2): majors 0x01 to 0x10 with rd, ra and the immediate; the shifts reserve
its upper six bits. -/
def Sys2Proof.Claim.ImmediateWords : Prop :=
  (∀ p ∈ [(0x01, Instr.addi), (0x02, .subi), (0x03, .muli), (0x04, .divi), (0x05, .remi), (0x06, .andi), (0x07, .ori), (0x08, .xori),
      (0x0C, .slti), (0x0D, .sltiu), (0x0E, .seqi), (0x0F, .mini), (0x10, .maxi)], ∀ o : Imm,
    decode (p.1 * 2 ^ 22 + o.rd.toNat * 2 ^ 17 + o.ra.toNat * 2 ^ 12 + o.imm.toNat) = .ok (p.2 o)) ∧
  (∀ p ∈ [(0x09, Instr.shli), (0x0A, .shri), (0x0B, .sari)], ∀ (rd ra : BitVec 5) (sh up : BitVec 6),
    decode (p.1 * 2 ^ 22 + rd.toNat * 2 ^ 17 + ra.toNat * 2 ^ 12 + up.toNat * 2 ^ 6 + sh.toNat) =
      if up = 0 then .ok (p.2 { rd := rd, ra := ra, sh := sh }) else .error .illfld)

/-- The scalar ALU family (R127-R129, Tables 11-1 and 11-2): register forms, immediate forms with their words, and literal forms. -/
def Obligations.ScalarArithmetic : Prop := Claim.AluRegisterForms ∧ Claim.AluImmediateForms ∧ Claim.ImmediateWords

/-- Whether a result in flight is for X[r] of cluster `c`. -/
def Sys2Proof.Claim.forX (c r : Nat) (l : Landing) : Bool :=
  decide (l.cl = c) && (match l.w with | .x q _ => decide (q = r) | _ => false)

/-- The value of a result for an X register. -/
def Sys2Proof.Claim.valueX (l : Landing) : Word := match l.w with | .x _ v => v | _ => 0

/-- Results in flight land when their cycle ends, and not before: after the end of a cycle X[r] holds the value of the due result for
it that issued last, in their order in flight where they issued in one cycle, else what it held; X0 still reads 0 (R55, R57, R60). -/
def Obligations.ResultsLand : Prop :=
  ∀ (s : State) (n c r : Nat), n ∈ s.cores.map (fun e => e.1) → (s.cores.map fun e => e.1).Nodup → 0 < r →
    (∀ (a b : List Landing) (l : Landing),
      ((s.core n).inflight.filter fun y => decide (y.due ≤ s.cycle) && Claim.forX c r y) = a ++ l :: b →
      (∀ y ∈ a, y.iss ≤ l.iss) → (∀ y ∈ b, y.iss < l.iss) → (s.closeCycle.cluster n c).readX r = Claim.valueX l) ∧
    (((s.core n).inflight.filter fun y => decide (y.due ≤ s.cycle) && Claim.forX c r y) = [] →
      (s.closeCycle.cluster n c).readX r = (s.cluster n c).readX r) ∧
    (s.closeCycle.core n).inflight = (s.core n).inflight.filter (fun l => decide (s.cycle < l.due)) ∧
    (s.closeCycle.cluster n c).readX 0 = 0 ∧ s.closeCycle.cycle = s.cycle + 1

/-- An instruction that completes in sequence goes on behind its words when no loop ends at it; at the end of an open loop whose
count is above 1 it goes back to the loop's start with the count lowered by one (R75, R139). -/
def Obligations.SequenceAndLoop : Prop :=
  ∀ t : State,
    (t.me.ldepth = 0 ∨ SMap.get 0 t.me.lend (t.me.ldepth.toNat - 1) ≠ t.me.pc →
      t.inSequence.me.pc = t.me.pc + BitVec.ofNat 64 (wordLen (t.ir % 2 ^ 32)) ∧ t.inSequence.me.ldepth = t.me.ldepth ∧
      t.inSequence.me.lcount = t.me.lcount) ∧
    (t.me.ldepth ≠ 0 → SMap.get 0 t.me.lend (t.me.ldepth.toNat - 1) = t.me.pc →
      SMap.get 0 t.me.lcount (t.me.ldepth.toNat - 1) ≠ 1 →
      t.inSequence.me.pc = SMap.get 0 t.me.lstart (t.me.ldepth.toNat - 1) ∧ t.inSequence.me.ldepth = t.me.ldepth ∧
      SMap.get 0 t.inSequence.me.lcount (t.me.ldepth.toNat - 1) = SMap.get 0 t.me.lcount (t.me.ldepth.toNat - 1) - 1) ∧
    t.inSequence.me.act = .running ∧ t.inSequence.mem = t.mem ∧ t.inSequence.me.x = t.me.x

/-! ### Scalar memory -/

/-- The access checks (R125, R249, R291): an access is granted exactly when its address is a multiple of the alignment and below
2^48, a leaf translates it, the page permits the access in the mode, and its frame's entry is valid; else ALIGN, XLATE and PROT in
this order with TRAPINFO = ea. An access to an SO page (R253) waits while an earlier one of the cluster is not acknowledged; a counter
page has no kind (R260). -/
def Obligations.AccessChecks : Prop :=
  ∀ (s : State) (need : Need) (align : Nat) (ea : Word),
    let l := s.lookup (unitCore s.curCore) s.myCore.asid.toNat ea.toNat
    (ea.toNat % align ≠ 0 → s.access need align ea = .error (cALIGN, ea)) ∧
    (ea.toNat % align = 0 → 2 ^ 48 ≤ ea.toNat ∨ l = none → s.access need align ea = .error (cXLATE, ea)) ∧
    (∀ e, ea.toNat % align = 0 → ea.toNat < 2 ^ 48 → l = some e →
      permits s.me.super need e.ent = false ∨ s.frameOk (e.pa ea.toNat) = false → s.access need align ea = .error (cPROT, ea)) ∧
    (∀ e, ea.toNat % align = 0 → ea.toNat < 2 ^ 48 → l = some e → permits s.me.super need e.ent = true →
      s.frameOk (e.pa ea.toNat) = true →
      (pteKind e.ent ≠ 1 ∨ pteC e.ent = true ∨ s.soOpen = false → ∃ t, s.access need align ea = .ok (t, e, e.pa ea.toNat) ∧
        t.mem = s.mem ∧ t.cores = s.cores ∧ t.dit = s.dit) ∧
      (pteKind e.ent = 1 → pteC e.ent = false → s.soOpen = true → s.access need align ea = .error (cOrder, ea))) ∧
    Res.denied (cOrder, ea) = .stall (.order ea.toNat) ∧ (∀ c, c ≠ cOrder → Res.denied (c, ea) = .trap c ea)

/-- A scalar load from the own scratchpad writes X[rd] with latency 6: the bytes at the address, lowest first, extended as Table
11-3 says. -/
def Sys2Proof.Claim.LoadsOwnScratchpad : Prop :=
  ∀ p ∈ Claim.loadTable, ∀ (o : Imm) (s u : State) (e : TlbEntry) (pa : Nat), s.issues (p.1 o) →
    s.fresh.access .load p.2.2 (s.ea o.ra o.imm) = .ok (u, e, pa) → u.own pa = true →
    exec (p.1 o) s = .next ((u.reach pa p.2.2 .read).resultX 6 o.rd
      (Claim.widen p.2.1 p.2.2 (leNat ((u.reach pa p.2.2 .read).view pa p.2.2)))).inSequence

/-- A scalar load from anywhere else holds its cluster, and its completion comes after an open time (R59, R126). -/
def Sys2Proof.Claim.LoadsElsewhereBlock : Prop :=
  ∀ p ∈ Claim.loadTable, ∀ (o : Imm) (s u : State) (e : TlbEntry) (pa : Nat), s.issues (p.1 o) →
    s.fresh.access .load p.2.2 (s.ea o.ra o.imm) = .ok (u, e, pa) → u.own pa = false →
    ∃ (t : State) (h : Hold), exec (p.1 o) s = .next (t.holding h) ∧ h.kind = .blocking ∧ h.instr = p.1 o ∧
      h.since = s.cycle ∧ t.mem = s.mem ∧ t.cores = (u.reach pa p.2.2 .read).cores ∧
      ∃ d ∈ t.agenda, d.row = .blockingCompletion ∧ s.cycle < d.cycle ∧ d.args = .nats [s.curCore, s.curCl, s.cycle]

/-- BLOCKING_COMPLETION of a scalar load: X[rd] receives the value at the address kept at issue, the cluster goes on behind the
load, and it issues nothing more in the cycle (R59). That the value is the one memory holds at the completion is the model's choice (log
entry 6). -/
def Sys2Proof.Claim.BlockedLoadCompletes : Prop :=
  ∀ p ∈ Claim.loadTable, ∀ (o : Imm) (s : State) (h : Hold) (pa ent a : Nat) (as : List Nat),
    let u : State := { s with curCore := s.ev.nat 0, curCl := s.ev.nat 1, hitSeen := [] }
    u.me.act = .waiting h → h.kind = .blocking → h.instr = p.1 o → h.since = s.ev.nat 2 →
    h.vals = [pa, p.2.2, p.2.1.toNat, o.rd.toNat, ent] → u.dest (leafOf ent) pa true = .ok (a :: as) →
    exec .blockingCompletion s = .next ((u.resultX 1 o.rd (Claim.widen p.2.1 p.2.2 (leNat (u.view a p.2.2)))).release h)

/-- Scalar loads (R59, R126, R130, R133, Table 11-3): from the own scratchpad, from elsewhere, and their completion. -/
def Obligations.ScalarLoads : Prop := Claim.LoadsOwnScratchpad ∧ Claim.LoadsElsewhereBlock ∧ Claim.BlockedLoadCompletes

/-- A scalar store (R130, R131, R133): on a counter page it traps; on a DT page it enters the DT buffer and memory stays as it is; else it
is posted: in the own scratchpad its bytes are stored at once. -/
def Sys2Proof.Claim.Stores : Prop :=
  ∀ p ∈ Claim.storeTable, ∀ (o : Imm) (s u : State) (e : TlbEntry) (pa : Nat), s.issues (p.1 o) →
    (Claim.storeStart (p.1 o) s).access .store p.2 (s.ea o.ra o.imm) = .ok (u, e, pa) →
    (pteC e.ent = true → exec (p.1 o) s = .next (s.trap cCNTSTORE (s.ea o.ra o.imm))) ∧
    (pteC e.ent = false → pteKind e.ent = 3 → u.me.dtBuf.length < 128 →
      exec (p.1 o) s = .next (((u.touch pa p.2).modMe fun c => { c with dtBuf := c.dtBuf ++
        [{ va := (s.ea o.ra o.imm).toNat, pa := pa, size := p.2, cells := enumBytes (leBytes p.2 (s.x o.rd).toNat) }] }).inSequence)) ∧
    (pteC e.ent = false → pteKind e.ent ≠ 3 → u.own pa = true →
      exec (p.1 o) s = .next ((u.reach pa p.2 .write).setBytes pa (leBytes p.2 (s.x o.rd).toNat)).inSequence) ∧
    (pteC e.ent = false → pteKind e.ent ≠ 3 →
      exec (p.1 o) s = .next ((u.reach pa p.2 .write).post e pa (enumBytes (leBytes p.2 (s.x o.rd).toNat)) (s.ea o.ra o.imm)
        (Claim.releases (p.1 o))).inSequence)

/-- What is stored reads back: after a store of bytes from `pa` the bytes there are those, and every byte at another media address is
as before. -/
def Sys2Proof.Claim.StoredBytesRead : Prop :=
  ∀ (s : State) (pa : Nat) (bs : List Byte), (s.mediaRange pa bs.length).Nodup →
    (s.setBytes pa bs).bytes pa bs.length = bs ∧ s.sameBytesBut (s.setBytes pa bs) (s.mediaRange pa bs.length) ∧
    (s.memOk → (s.setBytes pa bs).memOk)

/-- Scalar stores (R130, R131) and what they leave to be read. -/
def Obligations.ScalarStores : Prop := Claim.Stores ∧ Claim.StoredBytesRead

/-- What a store may change beside memory: of the package the caches, the counters of the pseudo-channels and of the tracker, the dirty
maps of moves and what is under way; of its cluster the flow of control, the GUARD report, the DT buffer and the posted stores; no register
of any cluster or core. -/
def Sys2Proof.Claim.storeOnly (s t : State) : Prop :=
  t = { s with cores := t.cores, mem := t.mem, tlbs := t.tlbs, chanCtrs := t.chanCtrs, moves := t.moves, hits := t.hits,
               hitSeen := t.hitSeen, agenda := t.agenda, times := t.times, nextId := t.nextId } ∧
  (∀ n, n ≠ s.curCore → t.core n = s.core n) ∧
  t.myCore = { s.myCore with cl := t.myCore.cl, lastStep := t.myCore.lastStep } ∧
  (∀ c, c ≠ s.curCl → t.myCore.cluster c = s.myCore.cluster c) ∧
  t.me = { s.me with pc := t.me.pc, lcount := t.me.lcount, ldepth := t.me.ldepth, act := t.me.act, issuedAt := t.me.issuedAt,
                     block := t.me.block, guardRep := t.me.guardRep, dtBuf := t.me.dtBuf, posted := t.me.posted }

/-- The frame of a scalar store, with no atomic message under way: no register is written, and of the package only what `storeOnly`
names changes. In the own scratchpad every byte whose media address is none of the stored ones reads as before, and nothing stays under
way; on a DT page no byte changes; elsewhere every byte reads as before but those at the addresses at which it is performed. -/
def Obligations.StoreFrame : Prop :=
  ∀ p ∈ Claim.storeTable, ∀ (o : Imm) (s u t : State) (e : TlbEntry) (pa : Nat), s.issues (p.1 o) →
    (Claim.storeStart (p.1 o) s).access .store p.2 (s.ea o.ra o.imm) = .ok (u, e, pa) → pteC e.ent = false →
    (pteKind e.ent = 3 → u.me.dtBuf.length < 128) →
    s.agenda.all (fun d => decide (d.row ≠ .atomicMessageArrival)) = true → exec (p.1 o) s = .next t →
    Claim.storeOnly s t ∧
    (pteKind e.ent = 3 → s.sameBytes t ∧ t.agenda = s.agenda ∧ t.me.posted = s.me.posted) ∧
    (pteKind e.ent ≠ 3 → u.own pa = true →
      s.sameBytesBut t (s.mediaRange pa p.2) ∧ t.agenda = s.agenda ∧ t.me.posted = s.me.posted ∧ t.me.dtBuf = s.me.dtBuf) ∧
    (pteKind e.ent ≠ 3 → u.own pa = false → t.me.dtBuf = s.me.dtBuf ∧
      (∀ as, u.dest e pa false = .ok as → s.sameBytesBut t (as.flatMap fun a => s.mediaRange a p.2)) ∧
      (∀ c, u.dest e pa false = .error c → s.sameBytes t))

/-! ### Queue registers -/

/-- QPOP, QPEEK, QLEN, QPUSH and LDQ (R64, R65, R134, R135): what a pop or peek of a filled head delivers, that a pop frees the
head entry, that a push fills the entry after the tail, and what an empty or full queue raises. -/
def Obligations.QueueInstructions : Prop :=
  (∀ (o : QRead) (s : State), s.issues (.qlen o) →
    exec (.qlen o) s = .next (s.fresh.resultX 2 o.rd (w64 (s.myCore.qCount o.q.toNat))).inSequence) ∧
  (∀ (o : QRead) (s : State), s.issues (.qpeek o) → s.myCore.qCount o.q.toNat ≠ 0 →
    (s.myCore.qEntry o.q.toNat (s.myCore.qHead o.q.toNat)).st = .filled →
    exec (.qpeek o) s = .next (s.fresh.resultX 2 o.rd
      (w64 (s.myCore.qEntry o.q.toNat (s.myCore.qHead o.q.toNat)).data)).inSequence) ∧
  (∀ (o : QRead) (s : State), s.issues (.qpop o) → s.myCore.qCount o.q.toNat ≠ 0 →
    (s.myCore.qEntry o.q.toNat (s.myCore.qHead o.q.toNat)).st = .filled →
    ∃ t : State, exec (.qpop o) s = .next (t.resultX 2 o.rd
        (w64 (s.myCore.qEntry o.q.toNat (s.myCore.qHead o.q.toNat)).data)).inSequence ∧
      (t.myCore.qEntry o.q.toNat (s.myCore.qHead o.q.toNat)).st = .free ∧
      t.myCore.qHead o.q.toNat = (s.myCore.qHead o.q.toNat + 1) % 8 ∧ t.mem = s.mem) ∧
  (∀ (o : QPushOps) (s : State), s.issues (.qpush o) → s.myCore.qCount o.q.toNat ≠ 8 →
    ∃ t : State, exec (.qpush o) s =
        .next (t.result 1 (.queue o.q.toNat (s.myCore.qTail o.q.toNat) (s.x o.rb).toNat)).inSequence ∧
      (t.myCore.qEntry o.q.toNat (s.myCore.qTail o.q.toNat)).st = .reserved ∧ t.mem = s.mem) ∧
  (∀ (o : LdqOps) (s u : State) (e : TlbEntry) (pa : Nat), s.issues (.ldq o) →
    s.fresh.access .load 256 (s.ea o.ra o.imm) = .ok (u, e, pa) → u.own pa = true → u.myCore.qCount o.q.toNat ≠ 8 →
    ∃ t : State, exec (.ldq o) s = .next (t.result 8 (.queue o.q.toNat (u.myCore.qTail o.q.toNat) (leNat (t.view pa 256)))).inSequence ∧
      (t.myCore.qEntry o.q.toNat (u.myCore.qTail o.q.toNat)).st = .reserved) ∧
  (∀ (o : QRead) (s : State), s.issues (.qpop o) → s.myCore.qCount o.q.toNat = 0 →
    exec (.qpop o) s = .next (s.trap cQUNDER 0)) ∧
  (∀ (o : QRead) (s : State), s.issues (.qpeek o) → s.myCore.qCount o.q.toNat = 0 →
    exec (.qpeek o) s = .next (s.trap cQUNDER 0)) ∧
  (∀ (o : QPushOps) (s : State), s.issues (.qpush o) → s.myCore.qCount o.q.toNat = 8 →
    exec (.qpush o) s = .next (s.trap cQOVER 0))

/-! ### Control -/

/-- A branch goes to PC + 4 × sext(off12, 12) when its condition holds and else on in sequence; JMP and JAL go to PC + 4 × their
offset, JR to X[ra] + sext(imm12, 12); JAL and JR write PC + 4 to X[rd] with latency 1; a misaligned JR target raises ALIGN
(R136, R137). -/
def Sys2Proof.Claim.BranchesAndJumps : Prop :=
  (∀ p ∈ Claim.branchTable, ∀ (o : Br) (s : State), s.issues (p.1 o) →
    exec (p.1 o) s = .next (if p.2 (s.x o.ra) (s.x o.rb) then s.fresh.jumpTo (BitVec.ofInt 64 (s.me.pc.toNat + 4 * o.off.toInt))
      else s.fresh.inSequence)) ∧
  (∀ (o : JmpOps) (s : State), s.issues (.jmp o) →
    exec (.jmp o) s = .next (s.fresh.jumpTo (BitVec.ofInt 64 (s.me.pc.toNat + 4 * o.off.toInt)))) ∧
  (∀ (o : JalOps) (s : State), s.issues (.jal o) →
    exec (.jal o) s = .next ((s.fresh.resultX 1 o.rd (s.me.pc + 4)).jumpTo (BitVec.ofInt 64 (s.me.pc.toNat + 4 * o.off.toInt)))) ∧
  (∀ (o : Imm) (s : State), s.issues (.jr o) →
    let target : Word := BitVec.ofInt 64 ((s.x o.ra).toNat + o.imm.toInt)
    exec (.jr o) s = .next (if target.toNat % 4 = 0 then (s.fresh.resultX 1 o.rd (s.me.pc + 4)).jumpTo target
      else s.trap cALIGN target))

/-- The words of the branches (R136, Table 7-1): majors 0x20 to 0x25 with ra, rb and off12. -/
def Sys2Proof.Claim.BranchWords : Prop :=
  ∀ p ∈ [(0x20, Instr.beq), (0x21, .bne), (0x22, .blt), (0x23, .bge), (0x24, .bltu), (0x25, .bgeu)], ∀ o : Br,
    decode (p.1 * 2 ^ 22 + o.ra.toNat * 2 ^ 17 + o.rb.toNat * 2 ^ 12 + o.off.toNat) = .ok (p.2 o)

/-- LOOP and LOOPI with a count above 0 and room on the loop stack push start, end and count; with two loops open they raise LOOPOVF;
with count 0 control goes behind the instruction at the loop's end (R138). -/
def Sys2Proof.Claim.Loops : Prop :=
  ∀ (s : State) (i : Instr) (n : Word) (off : BitVec 12), s.issues i →
    ((∃ o : LoopOps, i = .loop o ∧ n = s.x o.ra ∧ off = o.off) ∨
     (∃ o : LoopiOps, i = .loopi o ∧ n = BitVec.ofNat 64 o.count.toNat ∧ off = o.off)) →
    let last : Word := s.me.pc + BitVec.ofNat 64 (4 * off.toNat)
    (n ≠ 0 → s.me.ldepth.toNat < 2 → exec i s = .next (s.fresh.modMe fun k =>
      { k with lstart := SMap.set 0 k.lstart k.ldepth.toNat (k.pc + 4), lend := SMap.set 0 k.lend k.ldepth.toNat last,
               lcount := SMap.set 0 k.lcount k.ldepth.toNat n, ldepth := k.ldepth + 1 }).inSequence) ∧
    (n ≠ 0 → s.me.ldepth = 2 → exec i s = .next (s.trap cLOOPOVF s.me.pc)) ∧
    (∀ t w, n = 0 → s.fresh.fetchWord s.curCore s.curCl last.toNat = .ok (t, w) → wordLen w ≠ 0 →
      exec i s = .next (t.jumpTo (last + BitVec.ofNat 64 (wordLen w))))

/-- Branches, jumps and loops (R136-R139). -/
def Obligations.ControlFlow : Prop := Claim.BranchesAndJumps ∧ Claim.BranchWords ∧ Claim.Loops

/-! ### Counters -/

/-- CADD of an own slot, of a gang member's slot and of a counter page add X[ra] to the counter, saturating at 2^64 - 1; on saturation
of an own slot the trap CNTOVF follows the completion; CREAD of an own slot reads it with latency 6, the others hold their cluster; CRST
is noted for the end of the cycle (R142-R146). That the adds of the remote and page forms, which are posted, are performed in the cycle of
issue is the model's choice (log entry 25); one through a window of the own package that fails is only reported, later (R244). -/
def Sys2Proof.Claim.CounterInstructions : Prop :=
  (∀ (o : CntOwn) (s : State), s.issues (.cadd o) →
    let c : CtrName := .slot s.curCore o.k.toNat
    let r := s.fresh.landMine.ctrAdd c (s.x o.ra).toNat
    r.1.ctrGet c = Min.min (s.ctrGet c + (s.x o.ra).toNat) (2 ^ 64 - 1) ∧ r.1.mem = s.fresh.landMine.mem ∧
    exec (.cadd o) s = .next (if s.ctrGet c + (s.x o.ra).toNat < 2 ^ 64 then r.1.inSequence
      else r.1.inSequence.trap cCNTOVF (w64 o.k.toNat))) ∧
  (∀ (o : CntRemote) (s : State) (c : CtrName), s.issues (.caddRemote o) → s.rankSlot (s.x o.rb) o.k.toNat = .ok c →
    s.ctrGet c + (s.x o.ra).toNat < 2 ^ 64 →
    exec (.caddRemote o) s = .next (s.fresh.landMine.ctrAdd c (s.x o.ra).toNat).1.inSequence) ∧
  (∀ (o : CntPage) (s u : State) (e : TlbEntry) (pa : Nat), s.issues (.caddPage o) →
    s.fresh.landMine.pageLeaf .store (s.x o.xk) = .ok (u, e, pa) →
    (∀ a, u.target pa true = some a → let c : CtrName := .page a (s.x o.xk).toNat
      let r := u.ctrAdd c (s.x o.ra).toNat
      u.ctrGet c + (s.x o.ra).toNat < 2 ^ 64 →
        r.1.mem = (u.writeN a 8 (u.ctrGet c + (s.x o.ra).toNat)).mem ∧
        exec (.caddPage o) s = .next (if memKind a = some .peer then
          r.1.postAs e pa [] (s.x o.xk) (fun b => [(b, .ctrAdd (s.x o.ra).toNat)]) true else r.1).inSequence) ∧
    (u.target pa true = none → exec (.caddPage o) s = .next (u.post e pa [] (s.x o.xk)).inSequence)) ∧
  (∀ (o : CntOwn) (s : State), s.issues (.cread o) →
    exec (.cread o) s = .next (s.fresh.resultX 6 o.ra (w64 (s.ctrGet (.slot s.curCore o.k.toNat)))).inSequence) ∧
  (∀ (o : CntRemote) (s : State) (n k : Nat), s.issues (.creadRemote o) → s.rankSlot (s.x o.rb) o.k.toNat = .ok (.slot n k) →
    exec (.creadRemote o) s = .next ((s.fresh.completeOpen 1).holding (s.blocking (.creadRemote o) 0 [0, n, k, o.ra.toNat]))) ∧
  (∀ (o : CntPage) (s u : State) (pa va : Nat) (e : TlbEntry), s.issues (.creadPage o) →
    s.fresh.pageCtr .load (s.x o.xk) = .ok (u, .page pa va, e) →
    exec (.creadPage o) s = .next ((u.completeOpen 1).holding (u.blocking (.creadPage o) (s.x o.xk) [1, pa, 0, o.ra.toNat, e.ent]))) ∧
  (∀ (o : CntOwn) (s : State), s.issues (.crst o) →
    exec (.crst o) s = .next { s.fresh with crsts := s.crsts ++ [(CtrName.slot s.curCore o.k.toNat, s.x o.ra)] }.inSequence) ∧
  (∀ (o : CntPage) (s u : State) (c : CtrName) (e : TlbEntry), s.issues (.crstPage o) →
    s.fresh.pageCtr .store (s.x o.xk) = .ok (u, c, e) →
    exec (.crstPage o) s = .next { u with crsts := u.crsts ++ [(c, s.x o.ra)] }.inSequence)

/-- Completion of a CREAD that blocked: X[ra] receives the counter's value in the cycle of the completion (R145). -/
def Sys2Proof.Claim.CounterReads : Prop :=
  ∀ (s : State) (h : Hold) (rd : Nat), Claim.held s h →
    (∀ o n k, h.instr = .creadRemote o → h.vals = [0, n, k, rd] → exec .blockingCompletion s = .next
      (((Claim.woken s).resultX 1 (BitVec.ofNat 5 rd) (w64 (s.ctrGet (.slot n k)))).release h)) ∧
    (∀ o pa va ent, h.instr = .creadPage o → h.vals = [1, pa, 0, rd, ent] → exec .blockingCompletion s = .next
      ((((Claim.woken s).traffic pa 8 .read).resultX 1 (BitVec.ofNat 5 rd) (w64 (s.ctrGet (.page pa va)))).release h))

/-- CRST at the end of its cycle (R146): after every add the counter holds the value of its last CRST, also behind the adds that come
between the CRSTs' place in the cycle and its close, and no CRST is left; a CWAIT on the counter completes with status 2. -/
def Sys2Proof.Claim.CounterResets : Prop :=
  (∀ (s : State) (n k : Nat) (v : Word) (l1 l2 : List (CtrName × Word)), s.crsts = l1 ++ (.slot n k, v) :: l2 →
    (∀ r ∈ l2, r.1 ≠ .slot n k) → s.applyCrsts.ctrGet (.slot n k) = v.toNat ∧ s.closeCycle.ctrGet (.slot n k) = v.toNat ∧
      s.closeCycle.crsts = []) ∧
  (∀ (s : State) (pa va : Nat) (v : Word) (l : List (CtrName × Word)), s.crsts = l ++ [(.page pa va, v)] →
    (s.mediaRange pa 8).Nodup → s.applyCrsts.ctrGet (.page pa va) = v.toNat) ∧
  (∀ (s : State) (x : CtrName) (v : Word) (n c target deadline rd : Nat) (h : Hold), s.crsts = [(x, v)] → let u := s.setCrsts
    u.resetWaiters x = [(n, c)] → (u.cluster n c).act = .waiting h → h.kind = .cwait x → h.vals = [target, deadline, rd] →
    s.applyCrsts = (({ u with curCore := n, curCl := c } : State).resultX 1 (BitVec.ofNat 5 rd) 2).release h) ∧
  (∀ (s : State) (x : CtrName) (n c : Nat), (n, c) ∈ s.resetWaiters x ↔ ∃ (k : Core) (z : Cluster) (h : Hold), (n, k) ∈ s.cores ∧
    (c, z) ∈ k.cl ∧ z.act = .waiting h ∧ h.resetBy x s.cycle = true)

/-- CWAIT with no report pending (R144): at or past its target it completes at once with status 0 in X[ra]; else it waits, and
COUNTER_WAIT_SATISFIED completes it with status 0 once the counter is at the target, CWAIT_TIMEOUT with status 1 once its deadline
has passed. A pending report is taken instead, and removed. -/
def Sys2Proof.Claim.CounterWaits : Prop :=
  (∀ (o : CWaitOwn) (s : State), s.issues (.cwait o) → s.me.report = none →
    (s.x o.ra).toNat ≤ s.ctrGet (.slot s.curCore o.k.toNat) → exec (.cwait o) s = .next (s.fresh.resultX 1 o.ra 0).inSequence) ∧
  (∀ (o : CWaitOwn) (s : State), s.issues (.cwait o) → s.me.report = none →
    s.ctrGet (.slot s.curCore o.k.toNat) < (s.x o.ra).toNat →
    ∃ h, exec (.cwait o) s = .next (s.fresh.holding h) ∧ h.kind = .cwait (.slot s.curCore o.k.toNat) ∧ h.instr = .cwait o ∧
      h.vals = [(s.x o.ra).toNat, if s.x o.rb = 0 then 0 else s.cycle + (s.x o.rb).toNat, o.ra.toNat]) ∧
  (∀ (o : CWaitPage) (s u : State) (c : CtrName) (e : TlbEntry), s.issues (.cwaitPage o) → s.me.report = none →
    s.fresh.pageCtr .load (s.x o.xk) = .ok (u, c, e) → (s.x o.ra).toNat ≤ u.ctrGet c →
    exec (.cwaitPage o) s = .next (u.resultX 1 o.ra 0).inSequence) ∧
  (∀ (o : CWaitPage) (s u : State) (c : CtrName) (e : TlbEntry), s.issues (.cwaitPage o) → s.me.report = none →
    s.fresh.pageCtr .load (s.x o.xk) = .ok (u, c, e) → u.ctrGet c < (s.x o.ra).toNat →
    ∃ h, exec (.cwaitPage o) s = .next (u.holding h) ∧ h.kind = .cwait c ∧ h.instr = .cwaitPage o ∧ h.ea = s.x o.xk ∧
      h.vals = [(s.x o.ra).toNat, if s.x o.rb = 0 then 0 else s.cycle + (s.x o.rb).toNat, o.ra.toNat]) ∧
  (∀ (o : CWaitOwn) (s : State) (cause : Nat) (info : Word) (c : Cluster), s.issues (.cwait o) → s.me.report = some (cause, info, c) →
    exec (.cwait o) s = .next ((s.fresh.modMe fun _ => c).trap cause info)) ∧
  (∀ (s : State) (n c target deadline rd : Nat) (h : Hold) (x : CtrName), s.ev = .nats [n, c] →
    (s.cluster n c).act = .waiting h → h.kind = .cwait x → h.vals = [target, deadline, rd] →
    let u : State := { s with curCore := n, curCl := c }
    (target ≤ s.ctrGet x → exec .counterWaitSatisfied s = .next ((u.resultX 1 (BitVec.ofNat 5 rd) 0).release h)) ∧
    (s.ctrGet x < target → exec .counterWaitSatisfied s = .next s) ∧
    (s.ctrGet x < target → deadline ≠ 0 → deadline ≤ s.cycle →
      exec .cwaitTimeout s = .next ((u.resultX 1 (BitVec.ofNat 5 rd) 1).release h)))

/-- Counter instructions and waits (R142-R146, Table 11-8). -/
def Obligations.Counters : Prop :=
  Claim.CounterInstructions ∧ Claim.CounterReads ∧ Claim.CounterResets ∧ Claim.CounterWaits

/-! ### Atomics -/

/-- An atomic on the own scratchpad (R149, R150): on a page that admits it the location takes the new value of Table 7-9 at issue;
with rd = 0 the cluster goes on; with rd ≠ 0 it waits with the old value, and its completion comes 5 cycles later. -/
def Sys2Proof.Claim.AtomicsOwnScratchpad : Prop :=
  ∀ p ∈ Claim.atomTable, ∀ (o : AtomOps) (s u : State) (e : TlbEntry) (pa : Nat), s.issues (p.1 o) →
    let n := if o.dbl then 8 else 4
    s.fresh.access .atomic n (s.x o.ra) = .ok (u, e, pa) → pteC e.ent = false → pteKind e.ent ≠ 3 → pteM e.ent = false →
    u.own pa = true →
    let v := u.reach pa n .update
    let old := v.readN pa n
    let t := v.writeN pa n (p.2 n old ((s.x o.rb).toNat % 2 ^ (8 * n)) ((s.x o.rd).toNat % 2 ^ (8 * n)))
    (o.rd = 0 → exec (p.1 o) s = .next t.inSequence) ∧
    (o.rd ≠ 0 → exec (p.1 o) s = .next ((t.schedule (s.cycle + 5) .blockingCompletion
      (.nats [s.curCore, s.curCl, s.cycle])).holding (t.blocking (p.1 o) (s.x o.ra) [0, old, o.rd.toNat])))

/-- AFADD adds binary32 or binary64 numbers, rounded to nearest even (R149); an atomic of any kind on a counter page raises
CNTSTORE, on a DT or mirrored page PROT (R150). -/
def Sys2Proof.Claim.AtomicFloatAndPages : Prop :=
  (∀ (o : AtomOps) (s u : State) (e : TlbEntry) (pa : Nat), s.issues (.afadd o) →
    let n := if o.dbl then 8 else 4
    let f := if o.dbl then Fmt.fp64 else Fmt.fp32
    s.fresh.access .atomic n (s.x o.ra) = .ok (u, e, pa) → pteC e.ent = false → pteKind e.ent ≠ 3 → pteM e.ent = false →
    u.own pa = true → let v := u.reach pa n .update
    let old := v.readN pa n
    let t := v.writeN pa n (f.ofVal .rne ((f.value old).add false (f.value ((s.x o.rb).toNat % 2 ^ (8 * n))))).1
    (o.rd = 0 → exec (.afadd o) s = .next t.inSequence) ∧
    (o.rd ≠ 0 → exec (.afadd o) s = .next ((t.schedule (s.cycle + 5) .blockingCompletion
      (.nats [s.curCore, s.curCl, s.cycle])).holding (t.blocking (.afadd o) (s.x o.ra) [0, old, o.rd.toNat])))) ∧
  (∀ p ∈ (Instr.afadd :: Claim.atomTable.map Prod.fst), ∀ (o : AtomOps) (s u : State) (e : TlbEntry) (pa : Nat), s.issues (p o) →
    s.fresh.access .atomic (if o.dbl then 8 else 4) (s.x o.ra) = .ok (u, e, pa) →
    (pteC e.ent = true → exec (p o) s = .next (s.trap cCNTSTORE (s.x o.ra))) ∧
    (pteC e.ent = false → pteKind e.ent = 3 ∨ pteM e.ent = true ∨ memKind pa = some .host →
      exec (p o) s = .next (s.trap cPROT (s.x o.ra))))

/-- An atomic on other memory (R126, R149, R165): on device memory with rd ≠ 0 it holds its cluster till it is performed at the owner,
with rd = 0 it is performed at once and is posted; on the scratchpad of another core it goes as a message, for whose value the cluster
waits where rd ≠ 0. -/
def Sys2Proof.Claim.AtomicsElsewhere : Prop :=
  ∀ p ∈ (Instr.afadd, AtomFn.fadd) :: (Claim.atomTable.map Prod.fst).zip [.add, .min, .max, .minu, .maxu, .and, .or, .xor, .swp, .cas],
    ∀ (o : AtomOps) (s u : State) (e : TlbEntry) (pa : Nat), s.issues (p.1 o) →
    let n := if o.dbl then 8 else 4
    s.fresh.access .atomic n (s.x o.ra) = .ok (u, e, pa) → pteC e.ent = false → pteKind e.ent ≠ 3 → pteM e.ent = false →
    memKind pa ≠ some .host → u.own pa = false →
    let v := u.reach pa n .update
    let args := [s.curCore, s.curCl, s.cycle, pa, p.2.code, n, (s.x o.rb).toNat, (s.x o.rd).toNat, o.rd.toNat, (pteAM e.ent).toNat,
      v.nextId, (s.x o.ra).toNat, e.ent]
    (scratchCore pa = none → o.rd ≠ 0 →
      exec (p.1 o) s = .next ((v.completeOpen 1).holding (v.blocking (p.1 o) (s.x o.ra) (2 :: args)))) ∧
    (∀ a, scratchCore pa = none → o.rd = 0 → v.target pa true = some a → let w := v.countAtom (pteAM e.ent) pa (coreDie s.curCore)
      exec (p.1 o) s = .next ((w.writeN a n (atomNew p.2 n (w.readN a n) (s.x o.rb).toNat (s.x o.rd).toNat)).postAs e pa [] (s.x o.ra)
        (fun b => [(b, .atomic p.2.code n (s.x o.rb).toNat (s.x o.rd).toNat)])).inSequence) ∧
    (scratchCore pa = none → o.rd = 0 → v.target pa true = none →
      exec (p.1 o) s = .next (v.post e pa [] (s.x o.ra)).inSequence) ∧
    (scratchCore pa ≠ none → o.rd ≠ 0 → exec (p.1 o) s = .next
      ((v.scheduleOpen 1 .atomicMessageArrival (.nats args)).holding (v.blocking (p.1 o) (s.x o.ra) [1]))) ∧
    (scratchCore pa ≠ none → o.rd = 0 → exec (p.1 o) s = .next
      ((({ v with nextId := v.nextId + 1 } : State).modMe fun c => { c with posted := c.posted ++
        [{ id := v.nextId, ea := s.x o.ra, fail := 0, so := decide (pteKind e.ent = 1) }] }).scheduleOpen 1 .atomicMessageArrival
          (.nats args)).inSequence)

/-- BLOCKING_COMPLETION of an atomic (R149): X[rd] receives the old value; on device memory the location then takes its new value; a
window of the own package that fails gives PROT (R244). The operation of a code is that of Table 7-9. -/
def Sys2Proof.Claim.AtomicCompletes : Prop :=
  (∀ (f n old v ex : Nat) (p : (AtomOps → Instr) × (Nat → Nat → Nat → Nat → Nat)), Claim.atomTable[f]? = some p →
    atomNew (AtomFn.ofCode f) n old v ex = p.2 n old (v % 2 ^ (8 * n)) (ex % 2 ^ (8 * n))) ∧
  (∀ p ∈ Instr.afadd :: Claim.atomTable.map Prod.fst, ∀ (o : AtomOps) (s : State) (h : Hold), Claim.held s h → h.instr = p o →
    (∀ old rd, h.vals = [0, old, rd] →
      exec .blockingCompletion s = .next (((Claim.woken s).resultX 1 (BitVec.ofNat 5 rd) (w64 old)).release h)) ∧
    (∀ n c t0 pa f w v ex rd am id ea ent, h.vals = [2, n, c, t0, pa, f, w, v, ex, rd, am, id, ea, ent] →
      (∀ a, (Claim.woken s).target pa true = some a →
        let u := (Claim.woken s).countAtom (decide (am = 1)) pa (coreDie (Claim.woken s).curCore)
        let old := u.readN a w
        exec .blockingCompletion s = .next (((u.writeN a w (atomNew (AtomFn.ofCode f) w old v ex)).resultX 1 (BitVec.ofNat 5 rd)
          (w64 old)).release h)) ∧
      ((Claim.woken s).target pa true = none → exec .blockingCompletion s = .next ((Claim.woken s).trapHeld h cPROT h.ea))))

/-- A posted atomic message that arrives at another core's scratchpad (R165) gives the location its new value, and its cluster counts
it as acknowledged; one that returns a value gives the waiting cluster the old value with its release. -/
def Sys2Proof.Claim.AtomicMessageArrives : Prop :=
  ∀ (s : State) (n c t0 pa f w v ex rd am id ea ent : Nat), s.ev = .nats [n, c, t0, pa, f, w, v, ex, rd, am, id, ea, ent] →
    let old := s.readN pa w
    let t := s.writeN pa w (atomNew (AtomFn.ofCode f) w old v ex)
    (rd = 0 → exec .atomicMessageArrival s = .next (t.modCluster n c fun k =>
      { k with posted := k.posted.filter fun q => decide (q.id ≠ id) })) ∧
    (∀ h, rd ≠ 0 → (s.cluster n c).act = .waiting h → h.since = t0 → h.kind = .blocking →
      exec .atomicMessageArrival s =
        .next (({ t with curCore := n, curCl := c }.resultX 1 (BitVec.ofNat 5 rd) (w64 old)).release h))

/-- Atomics (R149-R151): on the own scratchpad, the float add and page kinds, on other memory, their completion, and messages that
arrive. -/
def Obligations.Atomics : Prop :=
  Claim.AtomicsOwnScratchpad ∧ Claim.AtomicFloatAndPages ∧ Claim.AtomicsElsewhere ∧ Claim.AtomicCompletes ∧
  Claim.AtomicMessageArrives

/-! ### Predicates, moves and system instructions -/

/-- PAND, POR, PNOT and PSET write Pd with latency 1 (R186); what is written to P0 changes nothing (R55). -/
def Sys2Proof.Claim.PredicateInstructions : Prop :=
  (∀ (o : Pred3) (s : State), s.issues (.pand o) → exec (.pand o) s =
    .next (s.fresh.result 1 (.p o.pd.toNat 0xFFFF (BitVec.ofNat 16 ((s.p o.pa).toNat &&& (s.p o.pb).toNat)))).inSequence) ∧
  (∀ (o : Pred3) (s : State), s.issues (.por o) → exec (.por o) s =
    .next (s.fresh.result 1 (.p o.pd.toNat 0xFFFF (BitVec.ofNat 16 ((s.p o.pa).toNat ||| (s.p o.pb).toNat)))).inSequence) ∧
  (∀ (o : Pred2) (s : State), s.issues (.pnot o) → exec (.pnot o) s =
    .next (s.fresh.result 1 (.p o.pd.toNat 0xFFFF (BitVec.ofNat 16 (65535 - (s.p o.pa).toNat)))).inSequence) ∧
  (∀ (o : PSetOps) (s : State), s.issues (.pset o) → exec (.pset o) s =
    .next (s.fresh.result 1 (.p o.pd.toNat 0xFFFF o.imm)).inSequence) ∧
  (∀ (k : Core) (cl r : Nat) (v : BitVec 16), ((k.applyWrite cl accAdd (.p r 0xFFFF v)).cluster cl).readP r =
    if r = 0 then 0xFFFF else v)

/-- The words of the predicate instructions (R186): majors 0x50 and 0x51, and the reserved bits of their fields. -/
def Sys2Proof.Claim.PredicateWords : Prop :=
  (∀ p ∈ [(0x00, Instr.pand), (0x01, .por)], ∀ (d a b : BitVec 5),
    decode (0x50 * 2 ^ 22 + d.toNat * 2 ^ 17 + a.toNat * 2 ^ 12 + b.toNat * 2 ^ 7 + p.1) =
      if d.toNat < 8 ∧ a.toNat < 8 ∧ b.toNat < 8 then
        .ok (p.2 { pd := d.truncate 3, pa := a.truncate 3, pb := b.truncate 3 }) else .error .illfld) ∧
  (∀ (d a b : BitVec 5), decode (0x50 * 2 ^ 22 + d.toNat * 2 ^ 17 + a.toNat * 2 ^ 12 + b.toNat * 2 ^ 7 + 0x02) =
      if d.toNat < 8 ∧ a.toNat < 8 ∧ b = 0 then .ok (.pnot { pd := d.truncate 3, pa := a.truncate 3 }) else .error .illfld) ∧
  (∀ (d : BitVec 5) (z : Bool) (imm : BitVec 16), decode (0x51 * 2 ^ 22 + d.toNat * 2 ^ 17 + z.toNat * 2 ^ 16 + imm.toNat) =
      if d.toNat < 8 ∧ z = false then .ok (.pset { pd := d.truncate 3, imm := imm }) else .error .illfld) ∧
  decode 0x14061100 = .ok (.pand { pd := 3, pa := 1, pb := 2 }) ∧ decode 0x1442FFFF = .ok (.pset { pd := 1, imm := 0xFFFF })

/-- Predicate instructions (R186): their words and their effects. -/
def Obligations.PredicateRegisters : Prop := Claim.PredicateInstructions ∧ Claim.PredicateWords

/-- What a tile instruction that writes T[d] comes to (R55-R57, R63, R122): while T[d] is locked it waits and nothing happens; else the
elements of the columns whose predicate bit is 1, and no others, receive `f`'s column with latency `l`, the flags of those columns are
set with it, the generator advances once in mode SR, and the operand latch takes the source. -/
def Sys2Proof.Claim.TileWriteEffect : Prop :=
  ∀ (l : Nat) (d : BitVec 5) (pred : BitVec 3) (mode : Rnd) (src : Option (BitVec 5))
    (f : BitVec 32 → Nat → Nat → List Elem × FFlags) (s : State),
    (s.myCore.locked d.toNat = true → tileOp l d pred mode src f s = .stall (.lock d.toNat)) ∧
    (s.myCore.locked d.toNat = false →
      let sr := if mode = .sr then srAdvance s.me.srstate else s.me.srstate
      let u := s.modMe fun c => { c with srstate := sr, latch := src }
      ∃ (cells : List (Nat × Elem)) (fl : FFlags) (t : State), tileOp l d pred mode src f s = .done t ∧
        t = (if fl = 0 then u.result l (.tile cells) else (u.result l (.tile cells)).result l (.flags fl)) ∧
        (∀ k v, (k, v) ∈ cells ↔ ∃ i r, i < 16 ∧ r < 16 ∧ (s.p pred).getLsbD i = true ∧
          k = tileKey d.toNat r (16 * s.curCl + i) ∧ v = (f sr i (16 * s.curCl + i)).1.getD r 0) ∧
        ∀ b, fl.getLsbD b = true ↔ ∃ i, i < 16 ∧ (s.p pred).getLsbD i = true ∧ (f sr i (16 * s.curCl + i)).2.getLsbD b = true)

/-- VMOV, VSPLAT, VINS and VEXT (R185): where T[d] is not locked. -/
def Obligations.TileMoves : Prop :=
  (∀ (o : Mov2) (s : State), s.issues (.vmov o) → s.myCore.locked o.td.toNat = false → ∃ t,
    tileOp 2 o.td o.pred .rne (some o.ta) (fun _ _ j => ((List.range 16).map fun r => s.myCore.tile o.ta.toNat r j, 0)) s.fresh = .done t ∧
    exec (.vmov o) s = .next t.inSequence) ∧
  (∀ (o : Mov2) (s : State), s.issues (.vsplat o) → s.myCore.locked o.td.toNat = false → ∃ t,
    tileOp 2 o.td o.pred .rne none (fun _ _ _ => (List.replicate 16 ((s.x o.ta).truncate 32), 0)) s.fresh = .done t ∧
    exec (.vsplat o) s = .next t.inSequence) ∧
  (∀ (o : Mov3) (s : State), s.issues (.vins o) → s.myCore.locked o.td.toNat = false →
    let k := (s.x o.tb).toNat % 16
    let u := s.fresh.modMe fun c => { c with latch := none }
    exec (.vins o) s = .next (if (s.p o.pred).getLsbD k then
      (u.result 2 (.tile [(tileKey o.td.toNat ((s.x o.tb).toNat / 16 % 16) (16 * s.curCl + k), (s.x o.ta).truncate 32)])).inSequence
      else u.inSequence)) ∧
  (∀ (o : VextOps) (s : State), s.issues (.vext o) →
    exec (.vext o) s = .next ((s.fresh.modMe fun c => { c with latch := some o.ta }).resultX 2 o.xd (BitVec.ofNat 64
      (s.myCore.tile o.ta.toNat ((s.x o.tb).toNat / 16 % 16) (16 * s.curCl + (s.x o.tb).toNat % 16)).toNat)).inSequence)

/-- SRD writes the register's value to X[rd] with latency 3; SWR of an accepted value completes in sequence and then writes the
register; an unlisted number raises ILLFLD, a register that is not readable in user mode raises PRIV there, and a write to a
read-only register, or of a refused value, raises ILLFLD (R72, R156). That a user-mode SWR of SRSTATE or TAGALLOC, which user mode may read
and not write, raises ILLFLD and not PRIV is the model's reading (log entry 19). -/
def Sys2Proof.Claim.SystemRegisterAccess : Prop :=
  (∀ (o : SysOps) (s : State) (ur uw sw : Bool), s.issues (.srd o) → sysAccess o.num.toNat = .reg ur uw sw →
    (s.me.super = true ∨ ur = true → exec (.srd o) s = .next (s.fresh.resultX 3 o.rd (s.sysRead o.num.toNat)).inSequence) ∧
    (s.me.super = false → ur = false → exec (.srd o) s = .next (s.trap cPRIV 0))) ∧
  (∀ (o : SysOps) (s : State) (ur uw sw : Bool), s.issues (.swr o) → sysAccess o.num.toNat = .reg ur uw sw →
    (s.me.super = false → ur = false → exec (.swr o) s = .next (s.trap cPRIV 0)) ∧
    (s.me.super = true ∨ ur = true → (if s.me.super then sw else uw) = false ∨ sysRefuses o.num.toNat (s.x o.rd).toNat = true →
      exec (.swr o) s = .next (s.trap cILLFLD 0)) ∧
    ((if s.me.super then sw else uw && ur) = true → sysRefuses o.num.toNat (s.x o.rd).toNat = false →
      exec (.swr o) s = .next (s.fresh.inSequence.sysWrite o.num.toNat (s.x o.rd)))) ∧
  (∀ (o : SysOps) (s : State), sysAccess o.num.toNat = .unlisted →
    (s.issues (.srd o) → exec (.srd o) s = .next (s.trap cILLFLD 0)) ∧
    (s.issues (.swr o) → exec (.swr o) s = .next (s.trap cILLFLD 0)))

/-- A system register that supervisor mode writes reads back what was written: TRAPPC, TRAPCAUSE, TRAPINFO, TRAPSTAT, TVEC, the
scratch registers and the loop registers at once (R156, Table 5-3); SRSTATE 0 as 0x9E3779B9 (R122). -/
def Sys2Proof.Claim.SystemRegisterReadsBack : Prop :=
  ∀ (s : State) (n : Nat) (v : Word),
    (1 ≤ n ∧ n ≤ 9 ∨ 0x20 ≤ n ∧ n ≤ 0x25 ∨ (n = 0x26 ∧ v.toNat < 3) →
      (s.sysWrite n v).sysRead n = v ∧ ∀ m, m ≠ n → (s.sysWrite n v).sysRead m = s.sysRead m) ∧
    (v.toNat < 2 ^ 32 → (s.sysWrite 0x30 v).sysRead 0x30 = if v = 0 then 0x9E3779B9 else v) ∧
    (v.toNat < 2 ^ 9 → ((s.sysWrite 0 v).sysRead 0).toNat = v.toNat % 256 + 256 * s.me.super.toNat) ∧
    (s.sysWrite n v).mem = s.mem

/-- System registers (R72, R156): SRD and SWR, and what is read back. -/
def Obligations.SystemRegisters : Prop := Claim.SystemRegisterAccess ∧ Claim.SystemRegisterReadsBack

/-- TRAP completes first and then raises SWTRAP with TRAPPC = the next PC; BKPT raises BKPT at its own address; both with the code as
TRAPINFO (R157). -/
def Obligations.SoftwareTraps : Prop :=
  (∀ s : State, s.issues .trap →
    exec .trap s = .next (s.fresh.inSequence.trapAt s.curCore s.curCl cSWTRAP (w64 (s.ir % 65536)) s.fresh.inSequence.me.pc false false)) ∧
  (∀ s : State, s.issues .bkpt →
    exec .bkpt s = .next (s.trapAt s.curCore s.curCl cBKPT (w64 (s.ir % 65536)) s.me.pc false false))

/-- TRET (R158): its word is major 0x67 with every other field 0; in user mode it raises PRIV; in supervisor mode it sets PC to
TRAPPC, the mode to TRAPSTAT.prevmode and TRAPSTAT.nested to 0, and makes the latch invalid; with TRAPPC misaligned it raises ALIGN
with TRAPINFO = TRAPPC, by the trap entry that nests (R71). -/
def Obligations.TrapReturn : Prop :=
  (∀ f : BitVec 22, decode (0x67 * 2 ^ 22 + f.toNat) = if f = 0 then .ok .tret else .error .illfld) ∧
  (∀ s : State, s.me.super = false → exec .tret s = .next (s.trap cPRIV 0)) ∧
  ∀ s : State, s.issues .tret →
    (s.me.trapPc.toNat % 4 ≠ 0 → exec .tret s = .next (s.trap cALIGN s.me.trapPc)) ∧
    (s.me.trapPc.toNat % 4 = 0 → ∃ t, exec .tret s = .next t ∧ t.me.pc = s.me.trapPc ∧ t.me.super = s.me.trapStat.getLsbD 0 ∧
      t.me.nested = false ∧ (∀ b, b ≠ 1 → t.me.trapStat.getLsbD b = s.me.trapStat.getLsbD b) ∧ t.me.latch = none ∧
      t.me.act = .running ∧ t.mem = s.mem ∧ t.faults = s.faults ∧ t.me.x = s.me.x ∧ t.me.trapPc = s.me.trapPc)

/-- NOP only goes on (R159); HALT without a debugger does the same, with one it halts its own cluster behind it and asks the others
of the core to halt; EXIT with no report pending ends its cluster; SAFE with no pre-emption pending goes on (R46, R154). -/
def Sys2Proof.Claim.PlainControl : Prop :=
  (∀ s : State, s.issues .nop → exec .nop s = .next s.fresh.inSequence) ∧
  (∀ s : State, s.issues .halt → s.dbgen = false → exec .halt s = .next s.fresh.inSequence) ∧
  (∀ s : State, s.issues .halt → s.dbgen = true → exec .halt s =
    .next ((s.fresh.inSequence.modMe fun c => { c with act := .halted false }).haltCore s.curCore)) ∧
  (∀ s : State, s.issues .exit → s.me.report = none → ∃ t, exec .exit s = .next t ∧ t.me.act = .exited ∧ t.myCore.progress = s.cycle ∧
    t.mem = s.mem ∧ t.me.pc = s.me.pc ∧ t.me.x = s.me.x) ∧
  (∀ s : State, s.issues .safe → s.preempting = none → exec .safe s = .next s.fresh.inSequence)

/-- With a pre-emption pending SAFE stops its cluster before itself and records its index, where the node has a live-map table, and
else hard pre-emption begins at once (R46, R48). -/
def Sys2Proof.Claim.SafeStops : Prop :=
  ∀ (s : State) (n : Nat) (x : Node), s.issues .safe → s.preempting = some (n, x) →
    (x.livemap ≠ 0 → ∃ t, exec .safe s = .next t ∧ t.me.act = .atSafe (s.ir % 65536) ∧ t.me.pc = s.me.pc ∧ t.mem = s.mem) ∧
    (x.livemap = 0 → x.stop = .none → ∃ t y, exec .safe s = .next t ∧ t.node n = some y ∧ y.stop = .hard ∧ t.me.pc = s.me.pc ∧
      t.mem = s.mem)

/-- NOP, HALT, EXIT and SAFE (R46, R48, R154, R159). -/
def Obligations.ClusterControl : Prop := Claim.PlainControl ∧ Claim.SafeStops

/-- The buffered DT stores of the gang of core `n`, in ascending global cluster index and each cluster's in its own order. -/
def Sys2Proof.Claim.buffered (s : State) (n : Nat) : List DtStore :=
  (s.gangOf n).flatMap fun m => [0, 1, 2, 3].flatMap fun c => (s.cluster m c).dtBuf

/-- Memory with the bytes of some DT stores in it, the later ones last. -/
def Sys2Proof.Claim.committed (s : State) (l : List DtStore) : List Host.Cell :=
  l.foldl (fun m d => d.cells.foldl (fun m x => SMap.set memDefault m (s.media (d.pa + x.1)) x.2) m) s.mem

/-- When a gang stands at its boundary, and what crossing it does (R147): every cluster of its cores has executed EXIT, or QSYNC with its
stores acknowledged and its LDQ fills arrived; memory then holds the buffered DT stores of the gang in cluster order, no cluster of the
gang has one left, those that wait in QSYNC have completed it, none has arrived at the next boundary, and no other core has changed. -/
def Sys2Proof.Claim.BoundaryCommits : Prop :=
  (∀ (s : State) (n : Nat), s.atBoundary n = true ↔ ∀ m ∈ s.gangOf n, ∀ c, c < 4 → (s.cluster m c).act = .exited ∨
    ((s.cluster m c).arrived = true ∧ (s.cluster m c).posted = [] ∧
      ∀ d ∈ s.agenda, d.row = .ldqFill → d.args.nat 0 = m → d.args.nat 5 ≠ c)) ∧
  (∀ (s : State) (n i m : Nat), (s.core n).node = some i → (m ∈ s.gangOf n ↔ ∃ k, (m, k) ∈ s.cores ∧ k.node = some i)) ∧
  ∀ (s : State) (n : Nat), (s.cores.map fun e => e.1).Nodup → let t := s.crossBoundary n
    t.mem = Claim.committed s (Claim.buffered s n) ∧
    (∀ m ∈ s.gangOf n, ∀ c, c < 4 → (t.cluster m c).dtBuf = [] ∧ (t.cluster m c).arrived = false ∧
      ∀ h, (s.cluster m c).act = .waiting h → if h.kind = .qsync then (t.cluster m c).act = .running
        else (t.cluster m c).act = .waiting h) ∧
    (∀ m, m ∉ s.gangOf n → t.core m = s.core m) ∧ t.curCore = s.curCore ∧ t.curCl = s.curCl

/-- QSYNC waits until its gang's boundary (R147): with every other cluster of the gang at QSYNC or EXIT and every access performed it
crosses the boundary, which commits the buffered DT stores, and goes on; else it holds its cluster, marked as arrived, and crosses it when
a BLOCKING_COMPLETION finds the gang there. -/
def Sys2Proof.Claim.QuantumBoundary : Prop :=
  ∀ s : State, s.issues .qsync → s.me.report = none →
    let u := s.fresh.modMe fun c => { c with arrived := true }
    (u.atBoundary s.curCore = true → exec .qsync s = .next (u.crossBoundary s.curCore).inSequence) ∧
    (u.atBoundary s.curCore = false → exec .qsync s = .next (u.holding u.qsyncHold)) ∧
    (∀ r h, Claim.held r h → h.instr = .qsync → exec .blockingCompletion r =
      .next (if (Claim.woken r).atBoundary (r.ev.nat 0) then (Claim.woken r).crossBoundary (r.ev.nat 0) else Claim.woken r))

/-- What a FENCE of core `n` and cluster `c` waits for (R148): the acquire flavour for its LDQ fills and for the loads of its posted atomics
that are still on their way, the release flavour for the acknowledgement of its posted stores and atomics, the full flavour for both; at
system scope every flavour for the acknowledgements, with which the failures of stores come (R132). -/
def Sys2Proof.Claim.fenceReady (s : State) (n c : Nat) (o : FenceOps) : Prop :=
  (o.flavour ≠ 2 → ∀ d ∈ s.agenda, d.row = .ldqFill → d.args.nat 0 = n → d.args.nat 5 ≠ c) ∧
  (o.flavour = 1 → ∀ d ∈ s.agenda, d.row = .atomicMessageArrival → d.args.nat 0 = n → d.args.nat 1 = c → d.args.nat 8 ≠ 0) ∧
  (o.flavour ≠ 1 ∨ o.scope = 4 → (s.cluster n c).posted = [])

/-- FENCE goes on when the accesses its flavour orders have been performed, and else holds its cluster until a BLOCKING_COMPLETION finds
that they have; at system scope it takes the report of a failed store first (R132, R148). -/
def Sys2Proof.Claim.Fences : Prop :=
  (∀ (o : FenceOps) (s : State), s.issues (.fence o) →
    ((o.scope = 4 → s.me.mirrRep = none) → Claim.fenceReady s s.curCore s.curCl o → exec (.fence o) s = .next s.fresh.inSequence) ∧
    ((o.scope = 4 → s.me.mirrRep = none) → ¬Claim.fenceReady s s.curCore s.curCl o →
      ∃ h, exec (.fence o) s = .next (s.fresh.holding h) ∧ h.kind = .fence ∧ h.instr = .fence o) ∧
    (∀ r, o.scope = 4 → s.me.mirrRep = some r →
      exec (.fence o) s = .next ((s.fresh.modMe fun c => { c with mirrRep := none }).trap r.1 r.2))) ∧
  ∀ (o : FenceOps) (s : State) (h : Hold), Claim.held s h → h.instr = .fence o →
    let u := Claim.woken s
    ((o.scope = 4 → u.me.mirrRep = none) → Claim.fenceReady u u.curCore u.curCl o →
      exec .blockingCompletion s = .next (u.release h)) ∧
    ((o.scope = 4 → u.me.mirrRep = none) → ¬Claim.fenceReady u u.curCore u.curCl o → exec .blockingCompletion s = .next u) ∧
    (∀ r, o.scope = 4 → u.me.mirrRep = some r →
      exec .blockingCompletion s = .next ((u.modMe fun c => { c with mirrRep := none }).trapHeld h r.1 r.2))

/-- QSYNC and FENCE (R147, R148). -/
def Obligations.Ordering : Prop := Claim.BoundaryCommits ∧ Claim.QuantumBoundary ∧ Claim.Fences

/-- SPGUARD on the own scratchpad marks or clears X[rb] granules from the address, at the end of its cycle; with none it only goes on;
elsewhere, or past the scratchpad's end, it raises PROT (R163). -/
def Obligations.GuardMarks : Prop :=
  ∀ (o : GuardOps) (s u : State) (e : TlbEntry) (pa : Nat), s.issues (.spguard o) →
    s.fresh.access .load 256 (s.x o.ra) = .ok (u, e, pa) →
    let g := (pa - scratchBase) % scratchSize / 256
    let n := (s.x o.rb).toNat
    (u.own pa = false ∨ 16384 < g + n → exec (.spguard o) s = .next (s.trap cPROT (s.x o.ra))) ∧
    (u.own pa = true → g + n ≤ 16384 → exec (.spguard o) s =
      .next (if n = 0 then u.inSequence else (u.result 1 (.guard g n o.mark)).inSequence)) ∧
    ∀ (k : Core) (j : Nat), SMap.get false (k.applyWrite 0 accAdd (.guard g n o.mark)).guards j =
      if g ≤ j ∧ j < g + n then o.mark else SMap.get false k.guards j

/-! ### Tile arithmetic -/

/-- Tile instructions on floating-point values (R168, R172, R173) with a literal or a register as b: every value position of every
enabled column receives the operation of Table 13-2 on the modified source values, scaled, rounded and clamped. -/
def Sys2Proof.Claim.TileFloat : Prop :=
  (∀ p ∈ [(Instr.vadd, FpFn.add), (.vsub, .sub), (.vmul, .mul), (.vmin, .min), (.vmax, .max)], ∀ (o : T2) (s : State),
    s.issues (p.1 o) → o.m.fpArith = true → s.myCore.locked o.d.toNat = false →
    Claim.floatTile s (p.1 o) p.2 o.d o.a o.m (fun j => s.myCore.column o.b.toNat j) (fun _ => [])) ∧
  (∀ p ∈ [(Instr.vaddLit, FpFn.add), (.vsubLit, .sub), (.vmulLit, .mul), (.vminLit, .min), (.vmaxLit, .max)], ∀ (o : T2L) (s : State),
    s.issues (p.1 o) → o.m.fpArith = true → s.myCore.locked o.d.toNat = false →
    Claim.floatTile s (p.1 o) p.2 o.d o.a o.m (fun _ => litCol o.m.ety o.lit) (fun _ => [])) ∧
  (∀ (o : T3) (s : State), s.issues (.vfma o) → o.m.fpArith = true → s.myCore.locked o.d.toNat = false →
    Claim.floatTile s (.vfma o) .fma o.d o.a o.m (fun j => s.myCore.column o.b.toNat j) (fun j => s.myCore.column o.c.toNat j)) ∧
  (∀ (o : T3L) (s : State), s.issues (.vfmaLit o) → o.m.fpArith = true → s.myCore.locked o.d.toNat = false →
    Claim.floatTile s (.vfmaLit o) .fma o.d o.a o.m (fun _ => litCol o.m.ety o.lit) (fun j => s.myCore.column o.c.toNat j))

/-- Tile instructions on integers (R170, R172, R174): every value position receives the sum, difference or product of the modified
values, scaled and clamped, or the logic or shift operation of the two patterns. -/
def Sys2Proof.Claim.TileInteger : Prop :=
  (∀ p ∈ [(Instr.viadd, IntFn.add), (.visub, .sub), (.vimul, .mul)], ∀ (o : T2) (s : State), s.issues (p.1 o) → o.m.intArith = true →
    s.myCore.locked o.d.toNat = false → Claim.intTile s (p.1 o) p.2 o.d o.a o.m fun j => s.myCore.column o.b.toNat j) ∧
  (∀ p ∈ [(Instr.viaddLit, IntFn.add), (.visubLit, .sub), (.vimulLit, .mul)], ∀ (o : T2L) (s : State), s.issues (p.1 o) →
    o.m.intArith = true → s.myCore.locked o.d.toNat = false →
    Claim.intTile s (p.1 o) p.2 o.d o.a o.m fun _ => litCol o.m.ety o.lit) ∧
  (∀ p ∈ [(Instr.vand, LogFn.and), (.vor, .or), (.vxor, .xor), (.vshl, .shl), (.vshr, .shr), (.vsar, .sar)], ∀ (o : T2) (s : State),
    s.issues (p.1 o) → o.m.logic = true → s.myCore.locked o.d.toNat = false →
    Claim.logicTile s (p.1 o) p.2 o.d o.a o.m fun j => s.myCore.column o.b.toNat j) ∧
  (∀ p ∈ [(Instr.vandLit, LogFn.and), (.vorLit, .or), (.vxorLit, .xor), (.vshlLit, .shl), (.vshrLit, .shr), (.vsarLit, .sar)],
    ∀ (o : T2L) (s : State), s.issues (p.1 o) → o.m.logic = true → s.myCore.locked o.d.toNat = false →
    Claim.logicTile s (p.1 o) p.2 o.d o.a o.m fun _ => litCol o.m.ety o.lit)

/-- The flags of a floating-point result (R112, R168, Table 9-6). An invalid operation gives the NaN and flag invalid alone; NaN,
infinities and zeros give none. A finite result never gives invalid or divzero; it gives inexact, where it does not overflow, exactly
when the delivered value differs from the exact one; overflow comes with inexact and delivers the infinity or the largest finite value;
underflow comes with inexact and a magnitude below the smallest normal. -/
def Sys2Proof.Claim.FloatFlags : Prop :=
  (∀ (fmt : Fmt) (m : Mods) (r : RMode) (y : FVal), fpFinish fmt m r true y = (clampF m.clamp fmt fmt.nanBits, 1) ∧
    (y.isNan = true ∨ y.isInf = true ∨ y.isZero = true → (fpFinish fmt m r false y).2 = 0)) ∧
  (∀ (fmt : Fmt) (m : Mods) (r : RMode) (s : Bool) (n : Nat) (e : Int), n ≠ 0 →
    (fpFinish fmt m r false (.fin s n e)).2 = (fmt.round r s n (e + m.scale.toInt) false).2) ∧
  ∀ (fmt : Fmt) (r : RMode) (s : Bool) (n : Nat) (e : Int), n ≠ 0 → let q := fmt.round r s n e false
    q.2.getLsbD 0 = false ∧ q.2.getLsbD 1 = false ∧
    (q.2.getLsbD 2 = true → q.2.getLsbD 4 = true ∧ (q.1 = fmt.infBits s ∨ q.1 = fmt.maxBits s)) ∧
    (q.2.getLsbD 3 = true → q.2.getLsbD 4 = true ∧ FVal.lt (.fin false n e) (.fin false 1 (fmt.minExp + fmt.fb)) = true) ∧
    (q.2.getLsbD 2 = false → (q.2.getLsbD 4 = false ↔ FVal.eq (fmt.value q.1) (.fin s n e) = true))

/-- Tile arithmetic (R112, R168, R170, R172-R174). -/
def Obligations.TileArithmetic : Prop := Claim.TileFloat ∧ Claim.TileInteger ∧ Claim.FloatFlags

/-- VSEL takes a column of a where the selecting predicate's bit is 1 and else of b; VCMP writes those bits of Pd whose predicate bit
is 1, each saying whether the condition of Table 13-4 holds at every value position of its column, or at any (R175, R176). -/
def Sys2Proof.Claim.TileSelectCompare : Prop :=
  (∀ (o : SelOps) (s : State), s.issues (.vsel o) → s.myCore.locked o.d.toNat = false → ∃ t,
    tileOp 2 o.d o.m.pred .rne (some o.a) (fun _ i j => (s.myCore.column (if (s.p o.sel).getLsbD i then o.a else o.b).toNat j, 0))
      s.fresh = .done t ∧ exec (.vsel o) s = .next t.inSequence) ∧
  (∀ (o : SelLOps) (s : State), s.issues (.vselLit o) → s.myCore.locked o.d.toNat = false → ∃ t,
    tileOp 2 o.d o.m.pred .rne (some o.a) (fun _ i j =>
      (if (s.p o.sel).getLsbD i then s.myCore.column o.a.toNat j else litCol o.m.ety o.lit, 0)) s.fresh = .done t ∧
    exec (.vselLit o) s = .next t.inSequence) ∧
  (∀ (o : CmpOps) (s : State), s.issues (.vcmp o) → Claim.compareTile s (.vcmp o) o.pd o.a o.cond o.any o.m
    fun j => s.myCore.column o.b.toNat j) ∧
  (∀ (o : CmpLOps) (s : State), s.issues (.vcmpLit o) → Claim.compareTile s (.vcmpLit o) o.pd o.a o.cond o.any o.m
    fun _ => litCol o.m.ety o.lit)

/-- Special functions (R177) and conversions (R178-R181): every value position of an enabled column receives the function, or the
converted source value that its instruction names for it, with the flags of all positions. -/
def Sys2Proof.Claim.TileSpecialConvert : Prop :=
  (∀ p ∈ [(Instr.vrcp, SpFn.rcp), (.vrsq, .rsq), (.vsqrt, .sqrt), (.vexp2, .exp2), (.vlog2, .log2), (.vsin, .sin), (.vcos, .cos),
      (.vtanh, .tanh), (.vsigm, .sigm), (.verf, .erf)], ∀ (o : T1) (s : State), s.issues (p.1 o) → s.myCore.locked o.d.toNat = false →
    let w := o.m.ety.width
    let fmt := etyFmt o.m.ety
    Claim.valueTile s (p.1 o) 12 o.d o.a o.m (fun sr i j v =>
      let r := special p.2 fmt (mkMode (s.mode o.m.rnd) sr i (subElem w v) w) o.m.scale.toInt
        ((fmt.value (posBits w (s.myCore.column o.a.toNat j) v)).modify o.m.negA o.m.absA)
      (clampF o.m.clamp fmt r.1, r.2))) ∧
  (∀ (o : CvtOps) (s : State), s.issues (.vcvt o) → s.myCore.locked o.d.toNat = false →
    let w := o.m.ety.width
    Claim.valueTile s (.vcvt o) 4 o.d o.a o.m (fun sr i j v =>
      if v < Min.min o.sty.count o.m.ety.count then
        convert o.sty o.m.ety o.m o.m.negA o.m.absA (mkMode (s.mode o.m.rnd) sr i (subElem w v) w)
          (posBits o.sty.width (s.myCore.column o.a.toNat j) v)
      else (if o.keep then posBits w (s.myCore.column o.d.toNat j) v else 0, 0))) ∧
  (∀ (o : PackOps) (s : State), s.issues (.vpack o) → s.myCore.locked o.d.toNat = false →
    let w := o.m.ety.width
    let n := o.sty.count
    Claim.valueTile s (.vpack o) 4 o.d o.a o.m (fun sr i j v =>
      let r := mkMode (s.mode o.m.rnd) sr i (subElem w v) w
      if v < n then convert o.sty o.m.ety o.m o.m.negA o.m.absA r (posBits o.sty.width (s.myCore.column o.a.toNat j) v)
      else convert o.sty o.m.ety o.m o.m.negB o.m.absB r (posBits o.sty.width (s.myCore.column o.b.toNat j) (v - n)))) ∧
  (∀ (o : UnpkOps) (s : State), s.issues (.vunpk o) → s.myCore.locked o.d.toNat = false →
    let w := o.m.ety.width
    Claim.valueTile s (.vunpk o) 4 o.d o.a o.m (fun sr i j v =>
      convert o.sty o.m.ety o.m o.m.negA o.m.absA (mkMode (s.mode o.m.rnd) sr i (subElem w v) w)
        (posBits o.sty.width (s.myCore.column o.a.toNat j) (if o.hi then v + o.m.ety.count else v))))

/-- Tile select, compare, special functions and conversions (R175-R181). -/
def Obligations.TileSelectAndConvert : Prop := Claim.TileSelectCompare ∧ Claim.TileSpecialConvert

/-- Column-axis moves and reductions (R182, R183): VROTC and VBCC move rows within a column; VREDC gives every value position of a
sub-element the reduction of that sub-element over the rows. -/
def Sys2Proof.Claim.TileColumnAxis : Prop :=
  (∀ (o : AxN4) (s : State), s.issues (.vrotc o) → s.myCore.locked o.d.toNat = false →
    Claim.moveTile s (.vrotc o) 2 o.d o.a o.m.pred fun i j => ((i + o.n.toNat) % 16, j)) ∧
  (∀ (o : AxN4) (s : State), s.issues (.vbcc o) → s.myCore.locked o.d.toNat = false →
    Claim.moveTile s (.vbcc o) 2 o.d o.a o.m.pred fun _ j => (o.n.toNat, j)) ∧
  (∀ (o : AxRed) (s : State), s.issues (.vredc o) → s.myCore.locked o.d.toNat = false →
    let w := o.m.ety.width
    let per := rowValues w
    Claim.valueTile s (.vredc o) 4 o.d o.a o.m (fun sr i j v =>
      reduce o.red.toNat o.m (s.mode o.m.rnd) (mkMode (s.mode o.m.rnd) sr i (if w = 64 then 0 else v % per) w)
        ((List.range (o.m.ety.count / per)).map fun r => posBits w (s.myCore.column o.a.toNat j) (r * per + v % per))))

/-- The tile register that a row-axis instruction writes. -/
def Sys2Proof.Claim.rowDest : Instr → Nat
  | .vrotw o => o.d.toNat
  | .vbcw o => o.d.toNat
  | .vbcwCol o => o.d.toNat
  | .vredw o => o.d.toNat
  | .vtrn o => o.d.toNat
  | _ => 0

/-- What a row-axis instruction does with the cluster under way once it issues, where its destination is not locked (R182-R184): VROTW,
VBCW, VBCW.col and VTRN move elements across the 64 columns with latency 6, VREDW gives every column the reduction over them with
latency 8. -/
def Sys2Proof.Claim.rowAxis (s t : State) : Instr → Prop
  | .vrotw o => Claim.moved s t 6 o.d o.a o.m.pred fun i j => (i, (j + o.n.toNat) % 64)
  | .vbcw o => Claim.moved s t 6 o.d o.a o.m.pred fun i j => (i, 16 * o.n.toNat + j % 16)
  | .vbcwCol o => Claim.moved s t 6 o.d o.a o.m.pred fun i j => (i, j / 16 * 16 + o.n.toNat)
  | .vtrn o => Claim.moved s t 6 o.d o.a o.m.pred fun i j => (j % 16, j / 16 * 16 + i)
  | .vredw o =>
      let w := o.m.ety.width
      let mode := match effRnd o.m.rnd (s.myCore.cluster 0).rnd with | .sr => .rne | m => m
      Claim.valued s t 8 o.d (some o.a) o.m.pred .rne o.m.ety fun _ _ _ v =>
        reduce o.red.toNat o.m mode (mkMode mode 0 0 0 w) ((List.range 64).map fun j => posBits w (s.myCore.column o.a.toNat j) v)
  | _ => False

/-- Row-axis instructions (R56, R61, R63, R182-R184): alone, with S clear, no word of them decodes; with S set they are presented for a
wide word. VROTW, VBCW, VBCW.col, VTRN and VREDW complete in sequence with their effect where they issue and their destination is not
locked; while it is locked they wait. -/
def Sys2Proof.Claim.TileRowAxis : Prop :=
  (∀ (w : Nat) (i : Instr), decode w = .ok i → i.rowAxis = true → wordSync w = true) ∧
  (∀ (i : Instr) (s : State), i.rowAxis = true → s.me.loopEndTrap i (wordLen (s.ir % 2 ^ 32)) = false → s.irSync = true →
    s.me.wideIssued = false → exec i s = .next s.present) ∧
  (∀ (i : Instr) (s : State), i.rowAxis = true → s.me.loopEndTrap i (wordLen (s.ir % 2 ^ 32)) = false →
    (s.irSync = true → s.me.wideIssued = true) →
    (s.myCore.locked (Claim.rowDest i) = false → ∃ t, exec i s = .next t.inSequence ∧ Claim.rowAxis s.fresh t i) ∧
    (s.myCore.locked (Claim.rowDest i) = true → exec i s = .next (s.settle (.stall (.lock (Claim.rowDest i))))))

/-- Axis instructions (R56, R182-R184). -/
def Obligations.TileAxes : Prop := Claim.TileColumnAxis ∧ Claim.TileRowAxis

/-- WIDE_WORD_ISSUE (R61-R63): with fewer than four clusters presenting nothing happens; when all four present a NOP they all go on;
when all four present one row-axis instruction, each of them completes it in sequence with its effect where its destination is not locked,
and while it is locked none does; when one of them presents another word than a row-axis instruction's, that raises ILLFLD. -/
def Obligations.WideWords : Prop :=
  (∀ s : State, (s.presented (s.ev.nat 0)).length < 4 → exec .wideWordIssue s = .next { s with curCore := s.ev.nat 0 }) ∧
  (∀ (s : State) (n w0 w1 w2 w3 : Nat), s.ev = .nats [n] → s.presented n = [(0, w0, .nop), (1, w1, .nop), (2, w2, .nop), (3, w3, .nop)] →
    exec .wideWordIssue s = .next
      (((((({ s with curCore := n } : State).at 0 w0).inSequence.at 1 w1).inSequence.at 2 w2).inSequence.at 3 w3).inSequence)) ∧
  (∀ (s : State) (n w : Nat) (i : Instr), s.ev = .nats [n] → i.rowAxis = true →
    s.presented n = [(0, w, i), (1, w, i), (2, w, i), (3, w, i)] →
    ((s.core n).locked (Claim.rowDest i) = false → ∃ t0 t1 t2 t3 : State,
      Claim.rowAxis (({ s with curCore := n } : State).at 0 w) t0 i ∧ Claim.rowAxis (t0.inSequence.at 1 w) t1 i ∧
      Claim.rowAxis (t1.inSequence.at 2 w) t2 i ∧ Claim.rowAxis (t2.inSequence.at 3 w) t3 i ∧
      exec .wideWordIssue s = .next t3.inSequence) ∧
    ((s.core n).locked (Claim.rowDest i) = true → exec .wideWordIssue s = .next { s with curCore := n })) ∧
  (∀ (s : State) (n w v : Nat) (i j : Instr), s.ev = .nats [n] → i.rowAxis = true → j.rowAxis = false → Sys2Proof.Machine.Instr.isDist j = false → v ≠ w →
    s.presented n = [(0, w, i), (1, v, j), (2, v, j), (3, v, j)] →
    exec .wideWordIssue s = .next ((({ s with curCore := n } : State).at 0 w).trap cILLFLD 0))

/-! ### Tile memory and records -/

/-- VLD and VST (R188): with every segment in the own scratchpad VLD writes the elements of the enabled columns with latency 8, each
from its own four bytes of its row's segment; with one elsewhere it holds its cluster with the predicate and the segments, and the elements
are those that its completion reads; VST stores those of the enabled columns. -/
def Sys2Proof.Claim.TileLoadStore : Prop :=
  (∀ (o : TMem) (s u : State) (ps : List Piece), s.issues (.vld o) → s.myCore.locked o.d.toNat = false → (s.x o.a).toNat % 64 = 0 →
    s.fresh.checkAll .load 64 ((List.range 16).map fun i => (i, segAddr s o i)) = .ok (u, ps) → (∀ p ∈ ps, u.own p.pa = true) →
    let t := ps.foldl (fun (t : State) p => t.reach p.pa 64 .read) u
    ∃ cells, exec (.vld o) s = .next (t.result 8 (.tile cells)).inSequence ∧
      ∀ k v, (k, v) ∈ cells ↔ ∃ p ∈ ps, ∃ i, i < 16 ∧ (s.p o.pred).getLsbD i = true ∧
        k = tileKey o.d.toNat p.key (16 * s.curCl + i) ∧ v = BitVec.ofNat 32 (leNat (((t.view p.pa 64).drop (4 * i)).take 4))) ∧
  (∀ (o : TMem) (s u : State) (ps : List Piece), s.issues (.vld o) → s.myCore.locked o.d.toNat = false → (s.x o.a).toNat % 64 = 0 →
    s.fresh.checkAll .load 64 ((List.range 16).map fun i => (i, segAddr s o i)) = .ok (u, ps) → (∃ p ∈ ps, u.own p.pa = false) →
    ∃ h, exec (.vld o) s = .next (((ps.foldl (fun (t : State) p => t.reach p.pa 64 .read) u).completeOpen 1).holding h) ∧
      h.instr = .vld o ∧ h.kind = .blocking ∧ h.vals = (s.p o.pred).toNat :: Piece.pack ps) ∧
  (∀ (o : TMem) (s : State) (h : Hold) (m : Nat) (ps : List Piece), Claim.held s h → h.instr = .vld o → h.vals = m :: Piece.pack ps →
    let u := Claim.woken s
    (∀ p ∈ ps, ∃ as, u.dest p.leaf p.pa true = .ok as) → ∃ cells, Claim.completes s h (.tile cells) ∧
      ∀ k v, (k, v) ∈ cells ↔ ∃ p ∈ ps, ∃ as i, u.dest p.leaf p.pa true = .ok as ∧ i < 16 ∧ m.testBit i = true ∧
        k = tileKey o.d.toNat p.key (16 * u.curCl + i) ∧
        v = BitVec.ofNat 32 (leNat (((u.view (as.headD p.pa) 64).drop (4 * i)).take 4))) ∧
  (∀ (o : TMem) (s u : State) (ps : List Piece), s.issues (.vst o) → (s.x o.a).toNat % 64 = 0 →
    s.fresh.checkAll .store 64 ((List.range 16).map fun i => (i, segAddr s o i)) = .ok (u, ps) →
    (∀ p ∈ ps, u.own p.pa = true ∧ pteKind p.ent ≠ 3) →
    ∃ t : State, exec (.vst o) s = .next t.inSequence ∧ t.mem = (ps.foldl (fun (t : State) p =>
      ((List.range 16).filter fun i => (s.p o.pred).getLsbD i).foldl (fun (t : State) i =>
        t.setBytes (p.pa + 4 * i) (leBytes 4 (s.myCore.tile o.d.toNat p.key (16 * s.curCl + i)).toNat)) t) u).mem)

/-- The checks of an instruction with several accesses come in order, and an access that fails raises its cause with its own address;
nothing has been loaded or stored then: VLD, VST, VLDG, VSTS, ILD, IST, SLD and CBLD (R187, R191). A store to a counter page raises
CNTSTORE only after the checks of R125 of all its accesses. -/
def Sys2Proof.Claim.SeveralAccessesTrap : Prop :=
  (∀ (o : TMem) (s : State) (e : Nat × Word), s.issues (.vld o) → s.myCore.locked o.d.toNat = false → (s.x o.a).toNat % 64 = 0 →
    s.fresh.checkAll .load 64 ((List.range 16).map fun i => (i, segAddr s o i)) = .error e → e.1 ≠ cOrder → exec (.vld o) s = .next (s.trap e.1 e.2)) ∧
  (∀ (o : TMem) (s : State) (e : Nat × Word), s.issues (.vst o) → (s.x o.a).toNat % 64 = 0 →
    s.fresh.checkAll .store 64 ((List.range 16).map fun i => (i, segAddr s o i)) = .error e → e.1 ≠ cOrder → exec (.vst o) s = .next (s.trap e.1 e.2)) ∧
  (∀ (o : TIdx) (s : State) (e : Nat × Word), s.issues (.vldg o) → s.myCore.locked o.d.toNat = false → (s.x o.a).toNat % 4 = 0 →
    s.fresh.checkAll .load 4 (gatherAddrs s o) = .error e → e.1 ≠ cOrder → exec (.vldg o) s = .next (s.trap e.1 e.2)) ∧
  (∀ (o : TIdx) (s : State) (e : Nat × Word), s.issues (.vsts o) → (s.x o.a).toNat % 4 = 0 →
    s.fresh.checkAll .store 4 (gatherAddrs s o) = .error e → e.1 ≠ cOrder → exec (.vsts o) s = .next (s.trap e.1 e.2)) ∧
  (∀ (s u : State) (n : Need) (align : Nat) (l : List (Nat × Word)) (ps : List Piece), s.checkEach n align l = .ok (u, ps) →
    ((n ≠ .store ∨ ∀ p ∈ ps, pteC p.ent = false) → s.checkAll n align l = .ok (u, ps)) ∧
    (∀ (a b : List Piece) (p : Piece), n = .store → ps = a ++ p :: b → (∀ q ∈ a, pteC q.ent = false) → pteC p.ent = true →
      s.checkAll n align l = .error (cCNTSTORE, w64 p.ea))) ∧
  (∀ (s : State) (n : Need) (align : Nat) (l : List (Nat × Word)) (e : Nat × Word), s.checkEach n align l = .error e →
    s.checkAll n align l = .error e) ∧
  (∀ (o : RecMem) (s : State), s.issues (.ild o) → (s.x o.a).toNat % 128 ≠ 0 → exec (.ild o) s = .next (s.trap cALIGN (s.x o.a))) ∧
  (∀ (o : RecMem) (s : State), s.issues (.sld o) → (s.x o.a).toNat % 32 ≠ 0 → exec (.sld o) s = .next (s.trap cALIGN (s.x o.a))) ∧
  (∀ (o : XOnly) (s : State), s.issues (.cbld o) → (s.x o.a).toNat % 64 ≠ 0 → exec (.cbld o) s = .next (s.trap cALIGN (s.x o.a))) ∧
  (∀ (o : RecMem) (s : State), s.issues (.ist o) → (s.x o.a).toNat % 128 ≠ 0 → exec (.ist o) s = .next (s.trap cALIGN (s.x o.a)))

/-- VLDG, VSTS, VQPOP and VQPUSH (R189, R190): the gather holds its cluster with the addresses of the enabled elements, which its
completion loads into them; the scatter stores one element's bytes at each; VQPOP writes four rows of the enabled columns from the head entry; VQPUSH pushes them. -/
def Sys2Proof.Claim.TileGatherQueue : Prop :=
  (∀ (o : TIdx) (s u : State) (ps : List Piece), s.issues (.vldg o) → s.myCore.locked o.d.toNat = false → (s.x o.a).toNat % 4 = 0 →
    s.fresh.checkAll .load 4 (gatherAddrs s o) = .ok (u, ps) → ∃ (t : State) (h : Hold), exec (.vldg o) s = .next (t.holding h) ∧
      h.instr = .vldg o ∧ h.kind = .blocking ∧ h.vals = Piece.pack ps) ∧
  (∀ (o : TIdx) (s : State) (h : Hold) (ps : List Piece), Claim.held s h → h.instr = .vldg o → h.vals = Piece.pack ps →
    let u := Claim.woken s
    (∀ p ∈ ps, ∃ as, u.dest p.leaf p.pa true = .ok as) → ∃ cells, Claim.completes s h (.tile cells) ∧
      ∀ k v, (k, v) ∈ cells ↔ ∃ p ∈ ps, ∃ as, u.dest p.leaf p.pa true = .ok as ∧ k = 1024 * o.d.toNat + p.key ∧
        v = BitVec.ofNat 32 (leNat (u.view (as.headD p.pa) 4))) ∧
  (∀ (o : TIdx) (s u : State) (ps : List Piece), s.issues (.vsts o) → (s.x o.a).toNat % 4 = 0 →
    s.fresh.checkAll .store 4 (gatherAddrs s o) = .ok (u, ps) → (∀ p ∈ ps, u.own p.pa = true ∧ pteKind p.ent ≠ 3) →
    ∃ t : State, exec (.vsts o) s = .next t.inSequence ∧ t.mem = (ps.foldl (fun (t : State) p =>
      t.setBytes p.pa (leBytes 4 (SMap.get 0 s.myCore.tiles (1024 * o.d.toNat + p.key)).toNat)) u).mem) ∧
  (∀ (o : TQueue) (s : State), s.issues (.vqpop o) → s.myCore.locked o.d.toNat = false → s.myCore.qCount o.q.toNat ≠ 0 →
    (s.myCore.qEntry o.q.toNat (s.myCore.qHead o.q.toNat)).st = .filled → ∃ (t : State) (cells : List (Nat × Elem)),
      exec (.vqpop o) s = .next (t.result 4 (.tile cells)).inSequence ∧
      t.myCore.qHead o.q.toNat = (s.myCore.qHead o.q.toNat + 1) % 8 ∧ t.mem = s.mem ∧
      ∀ k v, (k, v) ∈ cells ↔ ∃ r i, r < 4 ∧ i < 16 ∧ (s.p o.pred).getLsbD i = true ∧
        k = tileKey o.d.toNat (4 * o.g.toNat + r) (16 * s.curCl + i) ∧
        v = BitVec.ofNat 32 (fld (s.myCore.qEntry o.q.toNat (s.myCore.qHead o.q.toNat)).data (8 * (64 * r + 4 * i)) 32)) ∧
  (∀ (o : TQueue) (s : State), s.issues (.vqpush o) → s.myCore.qCount o.q.toNat ≠ 8 → ∃ (t : State) (data : Nat),
      exec (.vqpush o) s = .next (t.result 1 (.queue o.q.toNat (s.myCore.qTail o.q.toNat) data)).inSequence ∧ t.mem = s.mem ∧
      ∀ r i, r < 4 → i < 16 → fld data (8 * (64 * r + 4 * i)) 32 =
        if (s.p o.pred).getLsbD i then (s.myCore.tile o.d.toNat (4 * o.g.toNat + r) (16 * s.curCl + i)).toNat else 0)

/-- Tile loads and stores (R187-R191). -/
def Obligations.TileMemory : Prop := Claim.TileLoadStore ∧ Claim.TileGatherQueue ∧ Claim.SeveralAccessesTrap

/-- ILD, SLD and CBLD hold their cluster, and complete with latency 8 where their bytes lie in the own scratchpad, else after an open time;
IST stores the record's 128 bytes; SEED and SEED.CE write their generators, 0 as 0x9E3779B9 (R59, R191, R193). -/
def Sys2Proof.Claim.Records : Prop :=
  (∀ (s u : State) (i : Instr) (a : BitVec 5) (chunk n align : Nat) (ps : List Piece), s.issues i →
    ((∃ o : RecMem, i = .ild o ∧ a = o.a ∧ chunk = 128 ∧ n = 1 ∧ align = 128) ∨
     (∃ o : RecMem, i = .sld o ∧ a = o.a ∧ chunk = 32 ∧ n = 1 ∧ align = 32) ∨
     (∃ o : XOnly, i = .cbld o ∧ a = o.a ∧ chunk = 64 ∧ n = 16 ∧ align = 64)) →
    (s.x a).toNat % align = 0 →
    s.fresh.checkAll .load chunk ((List.range n).map fun j => (j, s.x a + w64 (chunk * j))) = .ok (u, ps) →
    let v := ps.foldl (fun (t : State) p => t.reach p.pa chunk .read) u
    ∃ h, h.instr = i ∧ h.kind = .blocking ∧ h.vals = Piece.pack ps ∧ h.since = s.cycle ∧
      ((∀ p ∈ ps, u.own p.pa = true) → exec i s = .next ((v.schedule (s.cycle + 7) .blockingCompletion
        (.nats [s.curCore, s.curCl, s.cycle])).holding h)) ∧
      ((∃ p ∈ ps, u.own p.pa = false) → exec i s = .next ((v.completeOpen 1).holding h))) ∧
  (∀ (o : RecMem) (s u : State) (p : Piece), s.issues (.ist o) →
    s.fresh.checkAll .store 128 [(0, s.x o.a)] = .ok (u, [p]) → u.own p.pa = true → pteKind p.ent ≠ 3 →
    ∃ t : State, exec (.ist o) s = .next t.inSequence ∧
      t.mem = (u.setBytes p.pa (leBytes 128 (SMap.get 0 s.myCore.iregs o.d.toNat).toNat)).mem) ∧
  (∀ (o : XOnly) (s : State), s.issues (.seed o) → ∃ t : State, exec (.seed o) s = .next t.inSequence ∧ t.mem = s.mem ∧
    t.me.srstate = if (s.x o.a).toNat % 2 ^ 32 = 0 then 0x9E3779B9 else (s.x o.a).truncate 32) ∧
  (∀ (o : XOnly) (s : State), s.issues (.seedCe o) → exec (.seedCe o) s = .next
    (s.fresh.result 1 (.copySr (if (s.x o.a).toNat % 2 ^ 32 = 0 then 0x9E3779B9 else (s.x o.a).truncate 32))).inSequence)

/-- Completion of the record loads (R59, R191): the 128 bytes are the record of I[d], the 32 bytes the descriptor of S[d], the 1,024 bytes
the codebook, lowest byte first; an access that fails then traps with its address (R132, R244). -/
def Sys2Proof.Claim.RecordsComplete : Prop :=
  (∀ (o : RecMem) (s : State) (h : Hold) (p : Piece) (a : Nat) (as : List Nat), Claim.held s h → h.vals = Piece.pack [p] →
    let u := Claim.woken s
    u.dest p.leaf p.pa true = .ok (a :: as) →
    (h.instr = .ild o → Claim.completes s h (.ireg o.d.toNat (BitVec.ofNat 1024 (leNat (u.view a 128))))) ∧
    (h.instr = .sld o → Claim.completes s h (.sreg o.d.toNat (BitVec.ofNat 256 (leNat (u.view a 32)))))) ∧
  (∀ (o : XOnly) (s : State) (h : Hold) (ps : List Piece), Claim.held s h → h.instr = .cbld o → h.vals = Piece.pack ps →
    let u := Claim.woken s
    (∀ p ∈ ps, u.dest p.leaf p.pa true = .ok [p.pa]) →
    Claim.completes s h (.codebook (enumBytes (ps.flatMap fun p => u.view p.pa 64)))) ∧
  (∀ (s : State) (h : Hold) (p : Piece) (ps : List Piece) (c : Nat), Claim.held s h →
    (∃ o : RecMem, h.instr = .ild o ∨ h.instr = .sld o) ∨ (∃ o : XOnly, h.instr = .cbld o) → h.vals = Piece.pack (p :: ps) →
    (Claim.woken s).dest p.leaf p.pa true = .error c →
    exec .blockingCompletion s = .next ((Claim.woken s).trapHeld h c (w64 p.ea))) ∧
  (∀ (k : Core) (n cl : Nat) (v : BitVec 1024) (w : BitVec 256) (bs : List Byte) (j : Nat),
    (SMap.get 0 (k.applyWrite cl accAdd (.ireg n v)).iregs j = if j = n then v else SMap.get 0 k.iregs j) ∧
    (SMap.get 0 (k.applyWrite cl accAdd (.sreg n w)).sregs j = if j = n then w else SMap.get 0 k.sregs j) ∧
    SMap.get 0 (k.applyWrite cl accAdd (.codebook (enumBytes bs))).codebook j =
      if j < bs.length then bs.getD j 0 else SMap.get 0 k.codebook j)

/-- SWP (R195-R199, Table 13-16): the checks come first and a failed one traps with nothing written; a sweep with no element clears
its destination's index fields and goes on; else it holds its cluster at the element its index fields name. -/
def Sys2Proof.Claim.Sweeps : Prop :=
  ∀ (o : SwpOps) (s : State), s.issues (.swp o) →
    let rec_ (n : Nat) : Nat := (SMap.get 0 s.myCore.iregs n).toNat
    let srcs := (swpSources o).map fun n => (n, rec_ n)
    (∀ c w, swpCheck (swpSize o.ety) (o.d.toNat, rec_ o.d.toNat) srcs = .trap c w → exec (.swp o) s = .next (s.trap c w)) ∧
    (swpCheck (swpSize o.ety) (o.d.toNat, rec_ o.d.toNat) srcs = .empty →
      exec (.swp o) s = .next (s.fresh.result 1 (.iidx o.d.toNat [0, 0, 0, 0, 0, 0])).inSequence) ∧
    (swpCheck (swpSize o.ety) (o.d.toNat, rec_ o.d.toNat) srcs = .ok →
      ∃ h, exec (.swp o) s = .next ((s.fresh.completeOpen 1).holding h) ∧ h.instr = .swp o ∧ h.kind = .blocking ∧
        swpAt h = (List.range 6).map fun k => if k < itRank (rec_ o.d.toNat) then itIdx (rec_ o.d.toNat) k else 0)

/-- An element of a sweep whose addresses lie in the own scratchpad (R195-R198, R200): the sources' values are read in order, the result is
stored at the destination's element, and the sweep goes on at the next element, or completes with its index fields cleared and its flags
set; a failed access traps with the elements before it stored, the index fields naming its element and the flags so far. -/
def Sys2Proof.Claim.SweepElements : Prop :=
  (∀ (n : Nat) (e : List Nat) (u : State), swpLoads n e [] u = .ok (u, [])) ∧
  (∀ (n r pa : Nat) (e t : List Nat) (u v : State) (l : TlbEntry), u.access .load n (srcAddr r e) = .ok (v, l, pa) →
    pteM l.ent = false → v.own pa = true → swpLoads n e (r :: t) u =
      (swpLoads n e t (v.reach pa n .read)).map fun y => (y.1, leNat (v.view pa n) :: y.2)) ∧
  ∀ (o : SwpOps) (s : State) (h : Hold) (d : Nat) (srcs e : List Nat) (f : FFlags), Claim.held s h → h.instr = .swp o →
    h.vals = swpVals d srcs e f → srcs.length = (swpSources o).length → e.length = 6 → let n := swpSize o.ety
    (∀ (v w : State) (xs : List Nat) (l : TlbEntry) (pa : Nat), swpLoads n e srcs (Claim.woken s) = .ok (v, xs) →
      v.access .store n (dstAddr d e) = .ok (w, l, pa) → pteC l.ent = false → pteKind l.ent ≠ 3 → pteM l.ent = false →
      w.own pa = true → let y := swpResult o (swpMode (Claim.woken s) o) xs
      ∃ t, exec .blockingCompletion s = .next t ∧ t.mem = (w.setBytes pa (leBytes n y.1)).mem ∧
        t.curCore = s.ev.nat 0 ∧ t.curCl = s.ev.nat 1 ∧
        (∀ e', nextElem (e.take (itRank d)) ((List.range (itRank d)).map fun k => itExt d k) = some e' → ∃ g, t.me.act = .waiting g ∧
          g.instr = .swp o ∧ g.since = h.since ∧ g.vals = swpVals d srcs (e' ++ List.replicate (6 - e'.length) 0) (y.2 ||| f) ∧
          t.myCore.inflight = (Claim.woken s).myCore.inflight) ∧
        (nextElem (e.take (itRank d)) ((List.range (itRank d)).map fun k => itExt d k) = none → t.me.act = .running ∧
          t.myCore.inflight = (Claim.woken s).myCore.inflight ++
            ({ due := s.cycle, iss := h.since, cl := s.ev.nat 1, w := .iidx o.d.toNat [0, 0, 0, 0, 0, 0] } : Landing) ::
              (if y.2 ||| f = 0 then [] else
                [({ due := s.cycle, iss := s.cycle, cl := s.ev.nat 1, w := .flags (y.2 ||| f) } : Landing)]))) ∧
    (∀ g, swpLoads n e srcs (Claim.woken s) = .error g → g.1 ≠ cOrder → let u := Claim.woken s
      let r := u.resultOf h.since (.iidx o.d.toNat (e.take (itRank d)))
      exec .blockingCompletion s = .next ((if f = 0 then r else r.result 1 (.flags f)).trapHeld h g.1 g.2))

/-- Records, generators and sweeps (R191, R193, R195-R199). -/
def Obligations.RecordsAndSweeps : Prop := Claim.Records ∧ Claim.RecordsComplete ∧ Claim.Sweeps ∧ Claim.SweepElements

/-! ### Distributions -/

/-- A distribution instruction that writes D[d] with S clear (R270-R273): the eight points of the elements whose predicate bit is 1,
and no others, receive `f`'s points with latency `l`, with the flags of those elements; the register receives the
tag, a fresh one being taken from the allocator, which skips 0. -/
def Sys2Proof.Claim.DistributionNarrow : Prop :=
  ∀ (l : Nat) (d : BitVec 4) (tag : TagOf) (pred : BitVec 3) (f : Nat → List Point × FFlags) (s : State), s.irSync = false →
    (∀ j, (f j).1.length = 8) →
    let t : BitVec 16 := match tag with | .is t => t | .fresh => if s.myCore.tagAlloc = 0 then 1 else s.myCore.tagAlloc
    let u := match tag with | .is _ => s | .fresh => s.modMyCore fun k => { k with tagAlloc := t + 1 }
    let due := s.cycle + l - 1
    ∃ (cells : List (Nat × BitVec 32 × BitVec 32)) (fl : FFlags),
      distOp l d tag pred f s = .done ((if fl = 0 then u.land s.curCore s.curCl due (.dist cells)
        else (u.land s.curCore s.curCl due (.dist cells)).land s.curCore s.curCl due (.flags fl)).land
          s.curCore s.curCl due (.dtag d.toNat t)) ∧
      (∀ k p, (k, p) ∈ cells ↔ ∃ i q, i < 16 ∧ q < 8 ∧ (s.p pred).getLsbD i = true ∧
        k = pointKey d.toNat (16 * s.curCl + i) q ∧ p = (f (16 * s.curCl + i)).1.getD q (0, 0)) ∧
      ∀ b, fl.getLsbD b = true ↔ ∃ i, i < 16 ∧ (s.p pred).getLsbD i = true ∧ (f (16 * s.curCl + i)).2.getLsbD b = true

/-- The same instruction with S set (R274): each cluster's own predicate register selects the elements of its columns; the flags of
all the elements written go to each cluster that writes one (that a cluster with flags of another's elements takes them too is
log entry 71's reading); one tag is taken and written. -/
def Sys2Proof.Claim.DistributionWide : Prop :=
  ∀ (l : Nat) (d : BitVec 4) (tag : TagOf) (pred : BitVec 3) (f : Nat → List Point × FFlags) (s : State), s.irSync = true →
    (∀ j, (f j).1.length = 8) →
    let t : BitVec 16 := match tag with | .is t => t | .fresh => if s.myCore.tagAlloc = 0 then 1 else s.myCore.tagAlloc
    let u := match tag with | .is _ => s | .fresh => s.modMyCore fun k => { k with tagAlloc := t + 1 }
    let due := s.cycle + l - 1
    let sel (c i : Nat) : Prop := ((s.cluster s.curCore c).readP pred.toNat).getLsbD i = true
    ∃ (cells : Nat → List (Nat × BitVec 32 × BitVec 32)) (fl : FFlags),
      distOp l d tag pred f s = .done (([0, 1, 2, 3].foldl (fun (v : State) c =>
        if fl = 0 ∨ cells c = [] then v.land s.curCore c due (.dist (cells c))
        else (v.land s.curCore c due (.dist (cells c))).land s.curCore c due (.flags fl)) u).land
          s.curCore s.curCl due (.dtag d.toNat t)) ∧
      (∀ c k p, c < 4 → ((k, p) ∈ cells c ↔ ∃ i q, i < 16 ∧ q < 8 ∧ sel c i ∧ k = pointKey d.toNat (16 * c + i) q ∧
        p = (f (16 * c + i)).1.getD q (0, 0))) ∧
      ∀ b, fl.getLsbD b = true ↔ ∃ c i, c < 4 ∧ i < 16 ∧ sel c i ∧ (f (16 * c + i)).2.getLsbD b = true

/-- What a distribution instruction that writes D[d] comes to (R270-R274). -/
def Obligations.DistributionWrites : Prop := Claim.DistributionNarrow ∧ Claim.DistributionWide

/-- DADD, DSUB, DMUL and DMAX (R277, R278): with `pw`, with equal tags or with a tag 0 they work point by point, the weights coming
from a or, where only a is a constant, from b, with latency 6 or 48; else on all 64 pairs, condensed, with a fresh tag. -/
def Sys2Proof.Claim.DistributionBinary : Prop :=
  ∀ p ∈ [(Instr.dadd, DOp.add), (.dsub, .sub), (.dmul, .mul), (.dmax, .max)], ∀ (o : DBin) (s : State), s.issues (p.1 o) →
    let k := s.myCore
    let ta := k.tag o.a.toNat
    let tb := k.tag o.b.toNat
    ((o.pw = true ∨ ta = tb ∨ ta = 0 ∨ tb = 0) →
      ∃ f : Nat → List Point × FFlags,
        Claim.distTile s (p.1 o) (if o.pw then 6 else 48) o.d (.is (if ta = 0 then tb else ta)) o.pred f ∧
        ∀ j q, q < 8 →
          let x := k.point o.a.toNat j q
          let y := k.point o.b.toNat j q
          (f j).1.getD q (0, 0) = ((pointResult (p.2.eval (f32 x.1) (f32 y.1))).1,
            if o.pw = false ∧ ta = 0 ∧ tb ≠ 0 then y.2 else x.2) ∧
          ∀ b, (f j).2.getLsbD b = true ↔ ∃ i, i < 8 ∧
            (pointResult (p.2.eval (f32 (k.point o.a.toNat j i).1) (f32 (k.point o.b.toNat j i).1))).2.getLsbD b = true) ∧
    (o.pw = false → ta ≠ tb → ta ≠ 0 → tb ≠ 0 →
      Claim.distTile s (p.1 o) 48 o.d .fresh o.pred (fun j => allPairs p.2 (k.element o.a.toNat j) (k.element o.b.toNat j)))

/-- The result of a point and its flags (R112, R277): a NaN operand gives the canonical NaN and no flag; infinities of opposite signs in a
sum, of equal signs in a difference, and zero times infinity give the canonical NaN and invalid; every other result is the exact one
rounded to nearest even, with the flags of that rounding. -/
def Sys2Proof.Claim.PointFlags : Prop :=
  (∀ (o : DOp) (x y : FVal), x = .nan ∨ y = .nan → pointResult (o.eval x y) = (nan32, 0)) ∧
  (∀ s : Bool, pointResult (DOp.eval .add (.inf s) (.inf !s)) = (nan32, 1) ∧ pointResult (DOp.eval .sub (.inf s) (.inf s)) = (nan32, 1)) ∧
  (∀ (s t : Bool) (e : Int), pointResult (DOp.eval .mul (.inf s) (.fin t 0 e)) = (nan32, 1) ∧
    pointResult (DOp.eval .mul (.fin t 0 e) (.inf s)) = (nan32, 1)) ∧
  (∀ x y : FVal, x ≠ .nan → y ≠ .nan →
    ((∀ s, ¬(x = .inf s ∧ y = .inf !s)) → pointResult (DOp.eval .add x y) = r32 (x.add false y)) ∧
    ((∀ s, ¬(x = .inf s ∧ y = .inf s)) → pointResult (DOp.eval .sub x y) = r32 (x.add false y.neg)) ∧
    ((∀ s t e, ¬(x = .inf s ∧ y = .fin t 0 e) ∧ ¬(x = .fin t 0 e ∧ y = .inf s)) → pointResult (DOp.eval .mul x y) = r32 (x.mul y)) ∧
    pointResult (DOp.eval .max x y) = r32 (x.maxz y))

/-- The other distribution instructions that write a distribution register (R279-R284): condensation, mixing, scaling, shifting, relu,
application, tags and the constructors, each with its latency and its tag. -/
def Sys2Proof.Claim.DistributionUnary : Prop :=
  (∀ (o : DUn) (s : State), s.issues (.dcond o) → Claim.distTile s (.dcond o) 48 o.d .fresh o.pred
    fun j => condense ((s.myCore.element o.a.toNat j).map fun p => (f32 p.1, f32 p.2))) ∧
  (∀ (o : DMixOps) (s : State), s.issues (.dmix o) → Claim.distTile s (.dmix o) 48 o.d .fresh o.pred
    fun j => mixElem (f32 (s.myCore.tile o.t.toNat o.r.toNat j)) (s.myCore.element o.a.toNat j) (s.myCore.element o.b.toNat j)) ∧
  (∀ (o : DRow) (s : State), s.issues (.dscl o) → Claim.pointTile s (.dscl o) o.d o.a o.pred
    fun j v => pointResult (DOp.eval .mul (f32 v) (f32 (s.myCore.tile o.t.toNat o.r.toNat j)))) ∧
  (∀ (o : DRow) (s : State), s.issues (.dshf o) → Claim.pointTile s (.dshf o) o.d o.a o.pred
    fun j v => pointResult (DOp.eval .add (f32 v) (f32 (s.myCore.tile o.t.toNat o.r.toNat j)))) ∧
  (∀ (o : DUn) (s : State), s.issues (.drelu o) → Claim.pointTile s (.drelu o) o.d o.a o.pred
    fun _ v => (if (f32 v).isNan then nan32 else if (f32 v).sign ∨ (f32 v).isZero then 0 else v, 0)) ∧
  (∀ (o : DAppOps) (s : State), s.issues (.dapp o) → Claim.pointTile s (.dapp o) o.d o.a o.pred
    fun _ v => let r := special (dappFn o.fn.toNat) .fp32 .rne 0 (f32 v); (BitVec.ofNat 32 r.1, r.2)) ∧
  (∀ (o : DTagOps) (s : State), s.issues (.dtag o) → Claim.distTile s (.dtag o) 6 o.d (.is (s.myCore.tag o.b.toNat)) o.pred
    fun j => (s.myCore.element o.a.toNat j, 0)) ∧
  (∀ (o : DUn) (s : State), s.issues (.dtagPm o) → Claim.distTile s (.dtagPm o) 6 o.d (.is 0) o.pred
    fun j => (s.myCore.element o.a.toNat j, 0)) ∧
  (∀ (o : DUn) (s : State), s.issues (.tagnext o) → Claim.distTile s (.tagnext o) 6 o.d .fresh o.pred
    fun j => (s.myCore.element o.a.toNat j, 0)) ∧
  (∀ (o : DMk1) (s : State), s.issues (.dmkp o) → Claim.distTile s (.dmkp o) 6 o.d (.is 0) o.pred fun j =>
    let v := s.myCore.tile o.a.toNat o.r.toNat j
    (List.replicate 8 (if (f32 v).isNan then nan32 else v, 0x3E000000), 0)) ∧
  (∀ (o : DMk2) (s : State), s.issues (.dmku o) → Claim.distTile s (.dmku o) 6 o.d .fresh o.pred fun j =>
    uniformElem (f32 (s.myCore.tile o.a.toNat o.rlo.toNat j)) (f32 (s.myCore.tile o.a.toNat o.rhi.toNat j))) ∧
  (∀ (o : DMk1) (s : State), s.issues (.dmkq o) → Claim.distTile s (.dmkq o) 6 o.d .fresh o.pred fun j =>
    ((List.range 8).map fun q => (s.myCore.tile o.a.toNat (o.r.toNat + q) j, 0x3E000000), 0))

/-- Distribution instructions on registers (R277-R284). -/
def Obligations.DistributionArithmetic : Prop := Claim.DistributionBinary ∧ Claim.PointFlags ∧ Claim.DistributionUnary

/-- DMOM and DQNT (R287, R288) write one row of the enabled columns of a tile register that is not locked, with latency 12 and 16,
and the flags of those columns. DST (R286) stores the image of each of its elements where it is posted to the own scratchpad. -/
def Sys2Proof.Claim.DistributionExtract : Prop :=
  (∀ (o : DMomOps) (s : State), s.issues (.dmom o) → s.myCore.locked o.d.toNat = false →
    Claim.extract s (.dmom o) 12 o.d o.r.toNat o.pred fun j => moment o.k.toNat (s.myCore.element o.a.toNat j)) ∧
  (∀ (o : DQntOps) (s : State), s.issues (.dqnt o) → s.myCore.locked o.d.toNat = false →
    Claim.extract s (.dqnt o) 16 o.d o.r.toNat o.pred fun j => quantile o.q.toNat (s.myCore.element o.a.toNat j)) ∧
  (∀ (o : DStOps) (s u : State) (ps : List Piece), s.issues (.dst o) → (s.x o.a).toNat % 64 = 0 →
    s.fresh.checkAll .store 64 (s.imageAddrs (s.x o.a)) = .ok (u, ps) → (∀ p ∈ ps, u.own p.pa = true ∧ pteKind p.ent ≠ 3) →
    ∃ t : State, exec (.dst o) s = .next t.inSequence ∧ t.mem = (ps.foldl (fun (t : State) p =>
      t.setBytes p.pa (elementImage (s.myCore.element o.d.toNat p.key))) u).mem) ∧
  (∀ (ps : List Point), elementImage ps = (ps.flatMap fun p => leBytes 4 p.1.toNat) ++ ps.flatMap fun p => leBytes 4 p.2.toNat) ∧
  (∀ (o : DLdOps) (s : State), s.issues (.dld o) → (s.x o.a).toNat % 64 ≠ 0 → exec (.dld o) s = .next (s.trap cALIGN (s.x o.a))) ∧
  (∀ (o : DStOps) (s : State), s.issues (.dst o) → (s.x o.a).toNat % 64 ≠ 0 → exec (.dst o) s = .next (s.trap cALIGN (s.x o.a)))

/-- DLD (R285): it checks its images' addresses, takes a tag in mode 0 and holds its cluster, for latency 8 from the own scratchpad, else for
an open time; it completes with the eight values and eight weights of each element from its 64 bytes and, but in mode 2, the tag:
the fresh one in mode 0, 0 in mode 1. With S set the clusters that issued it go on together. -/
def Sys2Proof.Claim.DistributionLoads : Prop :=
  (∀ (o : DLdOps) (s u : State) (ps : List Piece), s.issues (.dld o) → (s.x o.a).toNat % 64 = 0 →
    s.fresh.checkAll .load 64 (s.imageAddrs (s.x o.a)) = .ok (u, ps) →
    let v := ps.foldl (fun (t : State) p => t.reach p.pa 64 .read) u
    let t : BitVec 16 := if v.myCore.tagAlloc = 0 then 1 else v.myCore.tagAlloc
    let w := if o.mode = 0 then v.modMyCore fun k => { k with tagAlloc := t + 1 } else v
    ∃ h, h.instr = .dld o ∧ h.kind = .blocking ∧ h.since = s.cycle ∧ h.sync = s.irSync ∧
      h.vals = (if o.mode = 0 then t.toNat else 0) :: Piece.pack ps ∧
      ((∀ p ∈ ps, u.own p.pa = true) → exec (.dld o) s = .next ((w.schedule (s.cycle + 7) .blockingCompletion
        (.nats [s.curCore, s.curCl, s.cycle])).holding h)) ∧
      ((∃ p ∈ ps, u.own p.pa = false) → exec (.dld o) s = .next ((w.completeOpen 1).holding h))) ∧
  (∀ (o : DLdOps) (s : State) (h : Hold) (ps : List Piece) (tag : Nat), Claim.held s h → h.instr = .dld o →
    h.vals = tag :: Piece.pack ps → let u := Claim.woken s
    let reads (p : Piece) (as : List Nat) : Prop := ({ u with curCl := p.key / 16 } : State).dest p.leaf p.pa true = .ok as
    let bytes (p : Piece) (as : List Nat) (off : Nat) : BitVec 32 :=
      BitVec.ofNat 32 (leNat (((({ u with curCl := p.key / 16 } : State).view (as.headD p.pa) 64).drop off).take 4))
    (∀ p ∈ ps, ∃ as, reads p as) → ∃ cells : List (Nat × BitVec 32 × BitVec 32),
      (let v := u.resultOf h.since (.dist cells)
       let w := if o.mode = 2 then v else v.resultOf h.since (.dtag o.d.toNat (BitVec.ofNat 16 tag))
       exec .blockingCompletion s = .next ((u.mates h).foldl (fun (t : State) c =>
         { ({ t with curCl := c } : State).release h with curCl := u.curCl }) (w.release h))) ∧
      (∀ k x, (k, x) ∈ cells ↔ ∃ p ∈ ps, ∃ as i, reads p as ∧ i < 8 ∧ k = pointKey o.d.toNat p.key i ∧
        x = (bytes p as (4 * i), bytes p as (32 + 4 * i))) ∧
      ∀ c, c ∈ u.mates h ↔ h.sync = true ∧ c < 4 ∧ c ≠ u.curCl ∧ ∃ g, (u.cluster u.curCore c).act = .waiting g ∧
        g.instr = h.instr ∧ g.since = h.since ∧ g.sync = true)

/-- Distribution memory and extraction (R285-R288). -/
def Obligations.DistributionMemoryExtract : Prop := Claim.DistributionExtract ∧ Claim.DistributionLoads

/-! ### Engine instructions -/

/-- EPUSH, ESTART, RENQ, EFLUSH and TCFG (R152, R205, R218-R220): a well-formed command that the queue takes joins it at its tail, a
malformed one is an engine fault; an entry joins the inbox of the core named, at its tail; EFLUSH empties the queues of its mask at
once, waits for their commands that have issued, and then sets the token FIFOs of its mask to 0; TCFG with an idle matrix engine sets the configuration and clears the accumulators. -/
def Obligations.EngineInstructions : Prop :=
  (∀ (o : EpushOps) (s : State) (c : EngCmd), s.issues (.epush o) → s.myCore.accepts o.queue.toNat = true →
    let w := (s.x o.a).toNat * 2 ^ 32 + (s.x o.b).toNat % 2 ^ 32
    decodeCmd w = some c → EngOp.inQueue c.op o.queue.toNat = true → EngOp.pastT31 s.myCore.tcb c.op = false →
    ∃ (t : State) (q : QCmd), exec (.epush o) s = .next t.inSequence ∧
      t.myCore.queue o.queue.toNat = s.myCore.queue o.queue.toNat ++ [q] ∧ q.cmd = c ∧ q.placed = s.cycle ∧ t.mem = s.fresh.landMine.mem ∧
      t.faults = s.faults) ∧
  (∀ (o : EpushOps) (s : State), s.issues (.epush o) → s.myCore.accepts o.queue.toNat = true →
    decodeCmd ((s.x o.a).toNat * 2 ^ 32 + (s.x o.b).toNat % 2 ^ 32) = none →
    ∃ (t : State) (r : FaultRec), exec (.epush o) s = .next t.inSequence ∧ t.faults = s.faults ++ [r] ∧ r.cause = cENGILL ∧
      t.cores = s.cores ∧ t.mem = s.mem) ∧
  (∀ (o : EpushOps) (s : State), s.issues (.epush o) → s.myCore.accepts o.queue.toNat = false →
    exec (.epush o) s = .next (s.stalled (.engQueue o.queue.toNat))) ∧
  (∀ (o : XOnly) (s u : State) (e : TlbEntry) (pa : Nat), s.issues (.estart o) →
    s.fresh.access .load 8 (s.x o.a) = .ok (u, e, pa) →
    u.myCore.inbox.length + u.inboxAhead s.curCore u.myCore.grank.toNat < 8 →
    exec (.estart o) s = .next (u.landMine.modMyCore fun k => { k with inbox := k.inbox ++ [{ addr := s.x o.a, placed := s.cycle }] }).inSequence) ∧
  (∀ (o : RenqOps) (s u : State) (e : TlbEntry) (pa n : Nat), s.issues (.renq o) →
    s.fresh.access .load 8 (s.x o.ra) = .ok (u, e, pa) → u.own pa = true → (s.x o.rb).toNat < u.myCore.gangSize →
    u.rankCore (s.x o.rb).toNat = some n → (u.core n).inbox.length + u.inboxAhead n (s.x o.rb).toNat < 8 →
    exec (.renq o) s = .next (u.landMine.modCore n fun k => { k with inbox := k.inbox ++ [{ addr := s.x o.ra, placed := s.cycle }] }).inSequence) ∧
  (∀ (o : EflushOps) (s : State), s.issues (.eflush o) →
    let l := (s.myCore.issued.filter fun i => decide (i.queue < 3) && o.mask.getLsbD i.queue).map fun i => i.r.order
    let discards (t : State) : Prop := (∀ q, q < 3 → t.myCore.queue q = if o.mask.getLsbD q then [] else s.myCore.queue q) ∧
      t.myCore.inbox = (if o.mask.getLsbD 3 then [] else s.myCore.inbox) ∧ t.mem = s.mem
    (l = [] → ∃ t : State, exec (.eflush o) s = .next t.inSequence ∧ discards t ∧
      t.myCore.tokens = (if o.mask.getLsbD 4 then [] else s.myCore.tokens) ∧
      t.myCore.freshTokens = (if o.mask.getLsbD 4 then [] else s.myCore.freshTokens)) ∧
    (l ≠ [] → ∃ (t : State) (h : Hold), exec (.eflush o) s = .next (t.holding h) ∧ discards t ∧ t.myCore.tokens = s.myCore.tokens ∧
      h.instr = .eflush o ∧ h.kind = .blocking ∧ h.since = s.cycle ∧ h.vals = o.mask.toNat :: l)) ∧
  (∀ (o : EflushOps) (s : State) (h : Hold) (m : Nat) (l : List Nat), Claim.held s h → h.instr = .eflush o → h.vals = m :: l →
    let u := Claim.woken s
    let waits : Prop := (∃ i ∈ u.myCore.issued, i.r.order ∈ l) ∨ ∃ q, q < 3 ∧ ∃ c ∈ u.myCore.queue q, ∃ r, c.resume = some r ∧ r.order ∈ l
    (waits → exec .blockingCompletion s = .next u) ∧
    (¬waits → exec .blockingCompletion s = .next ((if o.mask.getLsbD 4 then
      u.modMyCore fun k => { k with tokens := [], freshTokens := [] } else u).release h))) ∧
  (∀ (o : XOnly) (s : State), s.issues (.tcfg o) → tcbBad (s.x o.a) = none → s.myCore.matrixIdle s.cycle = true →
    exec (.tcfg o) s = .next (s.fresh.modMyCore fun k => { k with tcb := s.x o.a, acc := [], planes := [] }).inSequence) ∧
  (∀ (o : XOnly) (s : State) (r : Nat), s.issues (.tcfg o) → tcbBad (s.x o.a) = some r →
    exec (.tcfg o) s = .next (s.trap cSHAPE (w64 (256 * r))))

/-- TLBI and TLBSYNC (R160, R161): TLBI opens an invalidation of its range, scope and ASID and
does not block; TLBSYNC with every invalidation of its cluster acknowledged in an earlier cycle forgets them and goes on, with one
open it waits, and a scope below 2 or below that of an open one raises ILLFLD. -/
def Sys2Proof.Claim.InvalidateAndSync : Prop :=
  (∀ (o : TlbiOps) (s : State), s.issues (.tlbi o) → 2 ≤ o.scope.toNat → o.scope.toNat ≤ 4 →
    ∃ (t : State) (k : Ticket), exec (.tlbi o) s = .next t.inSequence ∧ t.tickets = s.tickets ++ [k] ∧ k.id = s.nextId ∧ k.lo = (s.x o.ra).toNat ∧ k.len = (s.x o.rb).toNat ∧ k.scope = o.scope.toNat ∧
    k.asid = (if o.all then none else some o.asid.toNat) ∧ t.me.tlbis = s.me.tlbis ++ [s.nextId] ∧ t.tlbs = s.tlbs ∧ t.mem = s.mem) ∧
  (∀ s : State, s.issues .tlbsync → 2 ≤ s.ir % 8 → (∀ t ∈ s.tickets, t.id ∈ s.me.tlbis → t.scope ≤ s.ir % 8) →
    ((∀ i ∈ s.me.tlbis, ∀ t, s.ticket i = some t → ∃ c, t.doneAt = some c ∧ c < s.cycle) →
      let left := s.tickets.filter fun k => !s.me.tlbis.contains k.id
      (∃ t : State, exec .tlbsync s = .next t.inSequence ∧ t.tickets = left ∧ t.me.tlbis = [] ∧ t.mem = s.mem ∧ t.tlbs = s.tlbs) ∧
      ((∀ e ∈ s.cores, ∀ x ∈ e.2.cl, ∀ h, x.2.hold? = some h → ∀ p i, h.kind = .unmapped p i → i ∉ s.me.tlbis) → exec .tlbsync s =
        .next (({ s.fresh with tickets := left } : State).modMe fun c => { c with tlbis := [] }).inSequence)) ∧
    (∀ i ∈ s.me.tlbis, ∀ t, s.ticket i = some t → (∀ c, t.doneAt = some c → s.cycle ≤ c) →
      ∃ h, exec .tlbsync s = .next (s.fresh.holding h) ∧ h.kind = .tlbsync ∧ h.instr = .tlbsync ∧ h.since = s.cycle)) ∧
  (∀ s : State, s.issues .tlbsync → (s.ir % 8 < 2 ∨ ∃ t ∈ s.tickets, t.id ∈ s.me.tlbis ∧ s.ir % 8 < t.scope) →
    exec .tlbsync s = .next (s.trap cILLFLD 0))

/-- A unit that drops its entries for an invalidation keeps those it does not concern and no other, and acknowledges later (R160,
R269). -/
def Sys2Proof.Claim.EntriesDropped : Prop :=
  ∀ (s : State) (u id : Nat) (k : Ticket), s.ev = .nats [u, id] → s.ticket id = some k → k.id = id → u ∈ k.undropped →
    ∃ t, exec .tlbEntryDrop s = .next t ∧ SMap.get [] t.tlbs u = (SMap.get [] s.tlbs u).filter (fun e => !k.hits e) ∧
      (∀ v, v ≠ u → SMap.get [] t.tlbs v = SMap.get [] s.tlbs v) ∧ t.mem = s.mem ∧
      ∃ d ∈ t.agenda, d.row = .tlbiAcknowledge ∧ s.cycle < d.cycle ∧ d.args = .nats [u, id]

/-- What an invalidation waits for (R160, R161, R269): it is acknowledged at once where no unit of its scope holds an entry or has an access
in flight under a translation that it removes; else each such unit must, and one with entries first drops them. -/
def Sys2Proof.Claim.InvalidationOpens : Prop :=
  ∀ (s : State) (core cl die lo len scope : Nat) (asid : Option Nat),
    let hit (a b z : Nat) : Prop := (∀ x, asid = some x → x = a) ∧ len ≠ 0 ∧ b < lo + len ∧ lo < b + z
    let inS (u : Nat) : Prop := 3 ≤ scope ∨ unitDie u = die
    let t := s.invalidate core cl die asid lo len scope
    ∃ k : Ticket, t.tickets = s.tickets ++ [k] ∧ t.nextId = s.nextId + 1 ∧ k.id = s.nextId ∧
      (∀ u, u ∈ k.undropped ↔ inS u ∧ ∃ l, (u, l) ∈ s.tlbs ∧ ∃ e ∈ l, hit e.asid e.vbase e.size) ∧
      (∀ u, u ∈ k.unacked ↔ u ∈ k.undropped ∨ (inS u ∧ ∃ x ∈ s.flights, x.unit = u ∧ hit x.asid x.base x.size)) ∧
      (k.unacked = [] → k.doneAt = some s.cycle) ∧ (k.unacked ≠ [] → k.doneAt = none) ∧ t.tlbs = s.tlbs ∧ t.mem = s.mem ∧ t.cores = s.cores

/-- TLBI, TLBSYNC and the dropping of entries (R160, R161, R269). -/
def Obligations.TranslationMaintenance : Prop := Claim.InvalidateAndSync ∧ Claim.InvalidationOpens ∧ Claim.EntriesDropped

/-! ### Tiers -/

/-- TEGO, TESTAT and TETHR (R311, R312, R314): on a lane of the interface an idle lane starts with its records, count and windows and
status 0 in X[d]; a busy one gives status 1; TESTAT reads the lane's items 0 to 3 and, in supervisor mode, a counter of a pseudo-channel,
which since its last reading has run on by a number that is left free (log entry 77); TETHR sets its throttle; another interface's lane
raises PROT. -/
def Sys2Proof.Claim.LaneInstructions : Prop :=
  (∀ (o : TegoOps) (s : State), s.issues (.tego o) → s.laneOf s.myCore.vifn.toNat (coreDie s.curCore) o.lane.toNat = true →
    (s.x o.a).toNat % 64 = 0 →
    let l := s.lane (coreDie s.curCore) o.lane.toNat
    (l.st ≠ .idle → exec (.tego o) s = .next (s.fresh.resultX 3 o.d 1).inSequence) ∧
    (l.st = .idle → 2 ^ 20 < (s.x o.b).toNat → exec (.tego o) s = .next (s.fresh.resultX 3 o.d 2).inSequence) ∧
    (l.st = .idle → (s.x o.b).toNat ≤ 2 ^ 20 → ∃ t : State, exec (.tego o) s = .next (t.resultX 3 o.d 0).inSequence ∧
      let m := t.lane (coreDie s.curCore) o.lane.toNat
      m.st = (if (s.x o.b).toNat = 0 then .idle else .running) ∧ m.node = s.myCore.node ∧ m.records = (s.x o.a).toNat ∧ m.count = (s.x o.b).toNat ∧ m.wl = o.wl.toNat + 1 ∧ m.wh = o.wh.toNat + 1 ∧
      m.ws = o.ws.toNat + 1 ∧ m.t0 = s.cycle ∧ m.arrived = 0 ∧ t.mem = s.fresh.landMine.mem ∧ t.cores = s.fresh.landMine.cores ∧
      ((s.x o.b).toNat ≠ 0 → ∃ d ∈ t.agenda, d.row = .shardRecordRead ∧ d.cycle = s.cycle ∧
        d.args = .nats [coreDie s.curCore, o.lane.toNat, 0, 0]))) ∧
  (∀ (o : TegoOps) (s : State), s.issues (.tego o) → s.laneOf s.myCore.vifn.toNat (coreDie s.curCore) o.lane.toNat = true →
    (s.x o.a).toNat % 64 ≠ 0 → exec (.tego o) s = .next (s.trap cALIGN (s.x o.a))) ∧
  (∀ (o : TestatOps) (s : State), s.issues (.testat o) → s.laneOf s.myCore.vifn.toNat (coreDie s.curCore) o.lane.toNat = true →
    let l := s.lane (coreDie s.curCore) o.lane.toNat
    ((s.x o.a).toNat = 0 → exec (.testat o) s = .next (s.fresh.resultX 3 o.d
      (w64 (l.arrived % 2 ^ 32 + s.laneCode l * 2 ^ 32 + l.level * 2 ^ 36))).inSequence) ∧
    ((s.x o.a).toNat = 1 → exec (.testat o) s = .next (s.fresh.resultX 3 o.d (w64 l.lateness)).inSequence) ∧
    ((s.x o.a).toNat = 2 → exec (.testat o) s = .next (s.fresh.resultX 3 o.d
      (w64 (Min.min l.acc (2 ^ 32 - 1) + l.step * 2 ^ 32))).inSequence) ∧
    ((s.x o.a).toNat = 3 → exec (.testat o) s = .next (s.fresh.resultX 3 o.d l.info).inSequence) ∧
    ((4 < (s.x o.a).toNat % 256 ∨ ((s.x o.a).toNat % 256 < 4 ∧ 256 ≤ (s.x o.a).toNat)) → exec (.testat o) s = .next (s.trap cILLFLD 0)) ∧
    ((s.x o.a).toNat % 256 = 4 → s.me.super = false → exec (.testat o) s = .next (s.trap cPRIV 0)) ∧
    ((s.x o.a).toNat % 256 = 4 → s.me.super = true →
      let n := fld (s.x o.a).toNat 8 12
      let i := fld (s.x o.a).toNat 20 3
      let q := 4096 * coreDie s.curCore + n
      let there : Prop := n < (if coreDie s.curCore < 4 then 64 else 256) ∨
        (256 ≤ n ∧ n < 256 + 2 * (if coreDie s.curCore < 4 then 32 else 16))
      ((2 ^ 23 ≤ (s.x o.a).toNat ∨ 4 < i ∨ ¬there) → exec (.testat o) s = .next (s.trap cILLFLD 0)) ∧
      ((s.x o.a).toNat < 2 ^ 23 → i ≤ 4 → there → ∃ (t : State) (k : Nat), exec (.testat o) s = .next (t.resultX 3 o.d
          (w64 (Claim.counterAt (t.chanCtr q) i))).inSequence ∧
        Claim.counterAt (t.chanCtr q) i = (if i = 4 then (s.chanCtr q).entries else (Claim.counterAt (s.chanCtr q) i + k) % 2 ^ 64) ∧
        (∀ j, j < 5 → j ≠ i → Claim.counterAt (t.chanCtr q) j = Claim.counterAt (s.chanCtr q) j) ∧
        (∀ p, p ≠ q → t.chanCtr p = s.chanCtr p) ∧ t.mem = s.mem ∧ t.cores = s.fresh.cores))) ∧
  (∀ (o : TethrOps) (s : State), s.issues (.tethr o) → s.laneOf s.myCore.vifn.toNat (coreDie s.curCore) o.lane.toNat = true →
    let l := s.lane (coreDie s.curCore) o.lane.toNat
    (s.x o.a).toNat < 2 ^ 16 → (s.x o.b).toNat < 2 ^ s.myCore.gangSize → l.node ≠ none → l.node = s.myCore.node →
    exec (.tethr o) s = .next (s.fresh.setLane (coreDie s.curCore) o.lane.toNat { l with
      step := (s.x o.a).toNat, mask := (s.x o.b).toNat, acc := 0, winStart := s.cycle + 1,
      level := if (s.x o.a).toNat = 0 then 0 else l.level }).inSequence) ∧
  (∀ (o : TethrOps) (s : State), s.issues (.tethr o) → s.laneOf s.myCore.vifn.toNat (coreDie s.curCore) o.lane.toNat = true →
    let l := s.lane (coreDie s.curCore) o.lane.toNat
    (2 ^ 16 ≤ (s.x o.a).toNat → exec (.tethr o) s = .next (s.trap cILLFLD 0)) ∧
    ((s.x o.a).toNat < 2 ^ 16 → (2 ^ s.myCore.gangSize ≤ (s.x o.b).toNat ∨ l.node = none ∨ l.node ≠ s.myCore.node) →
      exec (.tethr o) s = .next (s.trap cPROT (s.x o.b)))) ∧
  (∀ (o : TegoOps) (s : State), s.issues (.tego o) → s.laneOf s.myCore.vifn.toNat (coreDie s.curCore) o.lane.toNat = false →
    exec (.tego o) s = .next (s.trap cPROT (BitVec.ofNat 64 o.lane.toNat)))

/-- HPTCFG and DITSWP (R315, R316) hold their cluster. When HPTCFG completes its item's new value waits: those of items 0 to 2 for the
next period, and that of any other item for the end of the cycle, where it takes effect (the items for which R315's period is
meant are log entry 46's reading). -/
def Sys2Proof.Claim.FrameInstructions : Prop :=
  (∀ (o : XPair) (s : State), s.issues (.hptcfg o) → hptOk (s.x o.a).toNat (s.x o.b).toNat = true →
    exec (.hptcfg o) s = .next ((s.fresh.completeOpen 1).holding
      (s.blocking (.hptcfg o) 0 [coreDie s.curCore, (s.x o.a).toNat, (s.x o.b).toNat]))) ∧
  (∀ (o : XPair) (s : State), s.issues (.hptcfg o) → hptOk (s.x o.a).toNat (s.x o.b).toNat = false →
    exec (.hptcfg o) s = .next (s.trap cILLFLD (s.x o.a))) ∧
  (∀ (s : State) (h : Hold) (o : XPair) (die i v : Nat), Claim.held s h → h.instr = .hptcfg o → h.vals = [die, i, v] →
    exec .blockingCompletion s =
      .next (({ Claim.woken s with hptNext := SMap.set 0 s.hptNext (256 * die + i) (v + 1) } : State).release h)) ∧
  (∀ (s : State) (die i v : Nat), SMap.wf 0 s.hptNext = true → i < 256 → SMap.get 0 s.hptNext (256 * die + i) = v + 1 →
    (2 < i → s.applyHpt.hptItem die i = v ∧ SMap.get 0 s.applyHpt.hptNext (256 * die + i) = 0) ∧
    (i ≤ 2 → SMap.get 0 s.applyHpt.hptNext (256 * die + i) = v + 1 ∧ s.applyHpt.hptItem die i = s.hptItem die i))

/-- DITSWP (R316) holds its cluster where its operands are frames: aligned, translated by an indirection table, of one die for .swap, a
writable word for .set, and a media frame with a free list for .free (log entry 15); else it traps. -/
def Sys2Proof.Claim.DitIssues : Prop :=
  (∀ (o : X3) (s : State), s.issues (.ditswpSwap o) → (s.x o.a).toNat % 65536 = 0 → (s.x o.b).toNat % 65536 = 0 →
    viaDit (s.x o.a).toNat = true → viaDit (s.x o.b).toNat = true → homeDie (s.x o.a).toNat = homeDie (s.x o.b).toNat →
    exec (.ditswpSwap o) s = .next ((s.fresh.completeOpen 1).holding
      (s.blocking (.ditswpSwap o) 0 [0, (s.x o.a).toNat, (s.x o.b).toNat, o.d.toNat]))) ∧
  (∀ (o : X3) (s : State), s.issues (.ditswpSet o) → (s.x o.a).toNat % 65536 = 0 → viaDit (s.x o.a).toNat = true →
    (s.x o.b).toNat < 2 ^ 41 → exec (.ditswpSet o) s = .next ((s.fresh.completeOpen 1).holding
      (s.blocking (.ditswpSet o) 0 [1, (s.x o.a).toNat, (s.x o.b).toNat, o.d.toNat]))) ∧
  (∀ (o : DitFree) (s : State), s.issues (.ditswpFree o) → (s.x o.a).toNat % 65536 = 0 → (s.x o.b).toNat % 65536 = 0 →
    viaDit (s.x o.a).toNat = true → viaDit (s.x o.b).toNat = true → o.shadow = true →
    exec (.ditswpFree o) s = .next ((s.fresh.completeOpen 1).holding
      (s.blocking (.ditswpFree o) 0 [3, (s.x o.a).toNat, (s.x o.b).toNat, o.d.toNat]))) ∧
  (∀ (o : DitFree) (s : State), s.issues (.ditswpFree o) → (s.x o.a).toNat % 65536 = 0 → (s.x o.b).toNat % 65536 = 0 →
    viaDit (s.x o.a).toNat = true → viaDit (s.x o.b).toNat = true → o.shadow = false →
    ((memKind (s.x o.b).toNat = some .hbm ∨ memKind (s.x o.b).toNat = some .lpddr) →
      exec (.ditswpFree o) s = .next ((s.fresh.completeOpen 1).holding
        (s.blocking (.ditswpFree o) 0 [2, (s.x o.a).toNat, (s.x o.b).toNat, o.d.toNat]))) ∧
    (memKind (s.x o.b).toNat = some .pool → exec (.ditswpFree o) s = .next (s.trap cPROT (s.x o.b)))) ∧
  (∀ (i : Instr) (a : BitVec 5) (s : State), s.issues i →
    ((∃ o : X3, (i = .ditswpSwap o ∨ i = .ditswpSet o) ∧ a = o.a) ∨ ∃ o : DitFree, i = .ditswpFree o ∧ a = o.a) →
    ((s.x a).toNat % 65536 ≠ 0 → exec i s = .next (s.trap cALIGN (s.x a))) ∧
    ((s.x a).toNat % 65536 = 0 → viaDit (s.x a).toNat = false → exec i s = .next (s.trap cPROT (s.x a)))) ∧
  (∀ (i : Instr) (a b : BitVec 5) (s : State), s.issues i →
    ((∃ o : X3, i = .ditswpSwap o ∧ a = o.a ∧ b = o.b) ∨ ∃ o : DitFree, i = .ditswpFree o ∧ a = o.a ∧ b = o.b) →
    (s.x a).toNat % 65536 = 0 → viaDit (s.x a).toNat = true →
    ((s.x b).toNat % 65536 ≠ 0 → exec i s = .next (s.trap cALIGN (s.x b))) ∧
    ((s.x b).toNat % 65536 = 0 → viaDit (s.x b).toNat = false → exec i s = .next (s.trap cPROT (s.x b)))) ∧
  (∀ (o : X3) (s : State), s.issues (.ditswpSwap o) → (s.x o.a).toNat % 65536 = 0 → (s.x o.b).toNat % 65536 = 0 →
    viaDit (s.x o.a).toNat = true → viaDit (s.x o.b).toNat = true → homeDie (s.x o.a).toNat ≠ homeDie (s.x o.b).toNat →
    exec (.ditswpSwap o) s = .next (s.trap cPROT (s.x o.b))) ∧
  (∀ (o : X3) (s : State), s.issues (.ditswpSet o) → (s.x o.a).toNat % 65536 = 0 → viaDit (s.x o.a).toNat = true →
    2 ^ 41 ≤ (s.x o.b).toNat → exec (.ditswpSet o) s = .next (s.trap cILLFLD 0))

/-- Completion of DITSWP (R296, R316): it waits while an entry it names moves; an entry with a shadow is not changed, and its word is the
result; .swap exchanges the media frames of the two entries, .set writes the media frame, V, AT and PIN of its word, and X[d] receives
the entry's old word; .free gives the media frame to the pool of its die and tier, .free.shadow to the shadow pool of the frame's
die, and X[d] receives 0. -/
def Sys2Proof.Claim.DitCompletes : Prop :=
  ∀ (s : State) (h : Hold) (i : Instr) (op a b d : Nat), Claim.held s h → h.instr = i → h.vals = [op, a, b, d] →
    let u := Claim.woken s
    let e := s.ditEntry (a / 65536)
    let g := s.ditEntry (b / 65536)
    let again : Prop := exec .blockingCompletion s = .next (u.schedule (s.cycle + 1) .blockingCompletion (.nats [u.curCore, u.curCl, h.since]))
    let gives (t : State) (v : Word) : Prop := exec .blockingCompletion s = .next ((t.resultX 1 (BitVec.ofNat 5 d) v).release h)
    ((∃ o, i = .ditswpSwap o) → op = 0 →
      ((e.mov = true ∨ g.mov = true) → again) ∧
      (e.mov = false → g.mov = false → e.shd = true → gives u (Claim.entryWord e)) ∧
      (e.mov = false → g.mov = false → e.shd = false → g.shd = true → gives u (Claim.entryWord g)) ∧
      (e.mov = false → g.mov = false → e.shd = false → g.shd = false → ∃ t, gives t (Claim.entryWord e) ∧ t.mem = s.mem ∧ t.cores = s.cores ∧
        ∀ f, t.ditEntry f = if f = b / 65536 then { g with mframe := e.mframe }
          else if f = a / 65536 then { e with mframe := g.mframe } else s.ditEntry f)) ∧
    ((∃ o, i = .ditswpSet o) → op = 1 →
      (e.mov = true → again) ∧
      (e.mov = false → e.shd = true → gives u (Claim.entryWord e)) ∧
      (e.mov = false → e.shd = false → ∃ t, gives t (Claim.entryWord e) ∧ t.mem = s.mem ∧ t.cores = s.cores ∧ ∀ f, t.ditEntry f =
        if f = a / 65536 then { e with mframe := fld b 0 36, valid := bit b 36, autoTier := bit b 37, pin := bit b 38 }
        else s.ditEntry f)) ∧
    ((∃ o, i = .ditswpFree o) → (op = 2 ∨ op = 3) →
      (e.mov = true → again) ∧
      (e.mov = false → ∃ t, gives t 0 ∧ t.mem = s.mem ∧ t.cores = s.cores ∧ t.dit = s.dit ∧
        (op = 3 → Claim.joins s t (3 * homeDie (a / 65536 * 65536) + 2) (b / 65536)) ∧
        (op = 2 → (memKind (b / 65536 * 65536) = some .hbm → Claim.joins s t (3 * homeDie (b / 65536 * 65536)) (b / 65536)) ∧
          (memKind (b / 65536 * 65536) = some .lpddr → Claim.joins s t (3 * homeDie (b / 65536 * 65536) + 1) (b / 65536)))))

/-- Lane, threshold and frame instructions (R311-R316). -/
def Obligations.LanesAndFrames : Prop :=
  Claim.LaneInstructions ∧ Claim.FrameInstructions ∧ Claim.DitIssues ∧ Claim.DitCompletes

/-- Shard records and hops (R301-R305, R310): the read of a record schedules its check a cycle later with the record as it lies in memory,
and its touch of a marked granule; a read with a link error is repeated, and after three rereads it is CHKFAIL of kind 5; a
record that passes its checks makes a shard, one that fails them faults its lane (the ranges and the bytes that rows 3 and 6 look at are log
entry 37's reading); a ready hop starts, and its end marks it done; the last hop's counts an arrival, with its lateness and level, makes the
lane IDLE after the last shard and adds to the record's slot. -/
def Sys2Proof.Claim.ShardSteps : Prop :=
  (∀ (s : State) (die n i : Nat) (e : TlbEntry), s.ev = .nats [die, n, i, 0] → (s.lane die n).st = .running →
    s.check (unitTier die) (s.laneAsid (s.lane die n)) false .load ((s.lane die n).records + 64 * i) = .ok e →
    let u := s.fill (unitTier die) e
    let va := (s.lane die n).records + 64 * i
    (∀ as, u.dest e (e.pa va) true = .ok as → let a := as.headD (e.pa va)
      exec .shardRecordRead s = .next (((u.hit a 64).traffic a 64 .read).schedule (s.cycle + 1) .shardRecordRead
        (.nats [die, n, i, 1, 0, 0, u.readN a 64, match u.guardTouch a 64 with | some w => w.toNat + 1 | none => 0]))) ∧
    (∀ c, u.dest e (e.pa va) true = .error c → exec .shardRecordRead s = .next (u.schedule (s.cycle + 1) .shardRecordRead
      (.nats [die, n, i, 1, c, va, 0])))) ∧
  (∀ (s : State) (die n i c : Nat), s.ev = .nats [die, n, i, 0] → (s.lane die n).st = .running →
    s.check (unitTier die) (s.laneAsid (s.lane die n)) false .load ((s.lane die n).records + 64 * i) = .error c →
    exec .shardRecordRead s = .next (s.schedule (s.cycle + 1) .shardRecordRead
      (.nats [die, n, i, 1, c, (s.lane die n).records + 64 * i, 0]))) ∧
  (∀ (s : State) (die n i c : Nat), s.ev = .nats [die, n, i, 0, 1, c] → (s.lane die n).st = .running →
    (c < 3 → ∃ t, exec .shardRecordRead s = .next t ∧ t.tierLanes = s.tierLanes ∧ t.mem = s.mem ∧
      ∃ d ∈ t.agenda, d.row = .shardRecordRead ∧ s.cycle < d.cycle ∧ d.args = .nats [die, n, i, 0, 0, c + 1]) ∧
    (3 ≤ c → ∃ t, exec .shardRecordRead s = .next t ∧ (t.lane die n).st = .faulted ∧ (t.lane die n).info = chkInfo die n 3 5 0 i ∧
      (t.lane die n).held = some (cCHKFAIL, chkInfo die n 3 5 0 i) ∧ t.mem = s.mem)) ∧
  (∀ (s : State) (die n i r g : Nat), s.ev = .nats [die, n, i, 1, 0, 0, r, g] → (s.lane die n).st = .running → shCheck r = none →
    s.shPlaces (s.lane die n) r = none → ∃ t x, exec .shardRecordRead s = .next t ∧
      (t.lane die n).shards = (s.lane die n).shards ++ [x] ∧ x.index = i ∧ x.record = r ∧ x.ready = s.cycle ∧ t.mem = s.mem ∧
      ∀ h, (x.hop h).st = .pending ∧ (x.hop h).guard = if h = shFirst r ∧ g ≠ 0 then some (w64 (g - 1)) else none) ∧
  (∀ (s : State) (die n i c va r cause : Nat) (info : Word), s.ev = .nats [die, n, i, 1, c, va, r] → (s.lane die n).st = .running →
    ((c ≠ 0 ∧ cause = c ∧ info = w64 va) ∨ (c = 0 ∧ shCheck r = some (cause, info)) ∨
      (c = 0 ∧ shCheck r = none ∧ s.shPlaces (s.lane die n) r = some (cause, info))) → ∃ t, exec .shardRecordRead s = .next t ∧
      (t.lane die n).st = .faulted ∧ (t.lane die n).info = info ∧ (t.lane die n).held = some (cause, info) ∧ t.mem = s.mem) ∧
  (∀ (s : State) (die n i h : Nat) (x : Shard), s.ev = .nats [die, n, i, h] → (s.lane die n).shard i = some x → x.index = i →
    (s.lane die n).st = .running → s.hopReady (s.lane die n) x h = true → ∃ t y, exec .hopStart s = .next t ∧
      (t.lane die n).shard i = some y ∧ (y.hop h).st = .active ∧ (y.hop h).start = s.cycle ∧ t.mem = s.mem ∧
      ∃ d ∈ t.agenda, d.row = .hopGranule ∧ s.cycle < d.cycle ∧ d.args = .nats [die, n, i, h, 0, 0]) ∧
  (∀ (s : State) (die n i h : Nat) (x : Shard), s.ev = .nats [die, n, i, h] → (s.lane die n).shard i = some x → x.index = i → h < 2 →
    (x.hop h).st = .active → (x.hop h).guard = none → ∃ t y, exec .hopDone s = .next t ∧
      (t.lane die n).shard i = some y ∧ (y.hop h).st = .done ∧ (y.hop h).fin = s.cycle ∧ t.mem = s.mem) ∧
  (∀ (s : State) (die n i : Nat) (x : Shard), s.ev = .nats [die, n, i, 2] → (s.lane die n).shard i = some x → x.index = i →
    (x.hop 2).st = .active → (x.hop 2).guard = none → ∃ t, exec .hopDone s = .next t ∧ t.mem = s.mem ∧
      let l := s.lane die n
      let m := t.lane die n
      let late := (s.cycle - l.t0) / 64 - shDue x.record
      m.arrived = l.arrived + 1 ∧ m.lateness = Min.min (2 ^ 64 - 1) (l.lateness + late) ∧ m.acc = l.acc + late ∧
      m.level = (if late = 0 ∨ l.step = 0 then l.level else Max.max l.level (Min.min 7 ((l.acc + late + l.step - 1) / l.step))) ∧
      m.st = (if l.arrived + 1 = l.count then .idle else l.st) ∧
      (shRen x.record = true → ∀ c, s.nodeCore l.node (shRank x.record) = some c →
        ∃ a ∈ t.adds, a.ctr = .slot c (shRslot x.record) ∧ a.amount = 1) ∧
      (shRen x.record = false → t.adds = s.adds))

/-- A granule of a hop whose frames are valid and whose check holds is written at the destination's next offset, and no other media
byte changes (R303); one whose check fails writes nothing and faults its lane with CHKFAIL (R310). -/
def Sys2Proof.Claim.HopGranules : Prop :=
  ∀ (s : State) (die n i h g : Nat) (x : Shard), s.ev = .nats [die, n, i, h, g, 0] → (s.lane die n).shard i = some x → x.index = i →
    (x.hop h).st = .active → (x.hop h).gran = g →
    let l := s.lane die n
    let src := s.hopSrc l x.record h + (x.hop h).off
    let dst := s.hopDst l x.record h + (x.hop h).doff
    (∀ (bs : List Byte) (used c : Nat), s.granule l x h = .ok bs used c → s.badFrame src 1 = none → s.badFrame src used = none →
      s.badFrame dst bs.length = none → (s.mediaRange dst bs.length).Nodup → ∃ t, exec .hopGranule s = .next t ∧
        t.bytes dst bs.length = bs ∧ s.sameBytesBut t (s.mediaRange dst bs.length)) ∧
    (∀ k, s.badFrame src 1 = none → s.granule l x h = .bad k → ∃ t, exec .hopGranule s = .next t ∧
        (t.lane die n).st = .faulted ∧ (t.lane die n).info = chkInfo die n h k g i ∧ t.mem = s.mem)

/-- Shard records, hops and their granules (R301-R305, R310). -/
def Obligations.ShardsAndHops : Prop := Claim.ShardSteps ∧ Claim.HopGranules

/-- Moves of frames (R252, R292, R294): the first copy, and up to four passes while more than 8 granules have been written since, bring the new
media frame up to date; the last step makes the entry name it, with what the old one holds, and the old one returns later; a write to
a moving frame marks its granules; a returned media frame joins its pool as the newest. -/
def Sys2Proof.Claim.FrameMoves : Prop :=
  (∀ (s : State) (f g : Nat) (m : Move), s.ev = .nats [f] → s.moves.find? (fun m => decide (m.frame = f)) = some m → m.new = some g →
    (s.ditEntry f).mov = true → g ≠ (s.ditEntry f).mframe → s.memOk →
    let more : Prop := m.copies = 0 ∨ (8 < m.dirty.length ∧ m.copies < 5)
    (more → ∃ t, exec .moveFinalSwap s = .next t ∧ t.dit = s.dit ∧ Claim.frameCopied s t (s.ditEntry f).mframe g ∧
      (∃ y ∈ t.moves, y.frame = f ∧ y.dirty = [] ∧ y.copies = m.copies + 1) ∧
      ∃ d ∈ t.agenda, d.row = .moveFinalSwap ∧ s.cycle < d.cycle ∧ d.args = .nats [f]) ∧
    (¬more → ∃ t, exec .moveFinalSwap s = .next t ∧ Claim.frameCopied s t (s.ditEntry f).mframe g ∧
      (∀ h, t.ditEntry h = if h = f then { s.ditEntry f with mframe := g, mov := false } else s.ditEntry h) ∧
      ∃ d ∈ t.agenda, d.row = .frameReturn ∧ s.cycle < d.cycle ∧ ∃ key, d.args = .nats [key, (s.ditEntry f).mframe, f + 1])) ∧
  (∀ (m : Move) (f a b : Nat), (m.frame = f → m.new.isSome = true → ∀ x, x ∈ (m.mark f a b).dirty ↔ x ∈ m.dirty ∨ (a ≤ x ∧ x ≤ b)) ∧
    (m.frame ≠ f → m.mark f a b = m)) ∧
  (∀ (s : State) (key f : Nat), s.ev = .nats [key, f, 0] → ∃ t, exec .frameReturn s = .next t ∧ Claim.joins s t key f ∧
    t.moves = s.moves ∧ t.mem = s.mem) ∧
  (∀ (s : State) (key f n : Nat), s.ev = .nats [key, f, n + 1] → ∃ t, exec .frameReturn s = .next t ∧ (∀ m ∈ t.moves, m.frame ≠ n) ∧
    t.mem = s.mem)

/-- Tracking, the throttle and self-refresh (R295, R299, R305): the end of a tracking period clears its die's counts (what is counted is
log entry 45) and lets items 0 to 2 written since take effect (log entry 46); the step window of a throttled lane ends; a pseudo-channel
that has had no request for the idle time enters self-refresh, which it counts, and the next request ends. -/
def Sys2Proof.Claim.TrackingAndRefresh : Prop :=
  (∀ (s : State) (die : Nat), s.ev = .nats [die] → ∃ t, exec .trackingPeriodEnd s = .next t ∧
    (SMap.wf 0 s.hptNext = true → ∀ i v, i ≤ 2 → SMap.get 0 s.hptNext (256 * die + i) = v + 1 → t.hptItem die i = v) ∧
    (∀ f, homeDie (f * 65536) = die → SMap.get 0 t.hits f = 0) ∧ SMap.get 0 t.trackStart die = s.cycle + 1 ∧
    (∀ e ∈ t.hptNext, e.1 / 256 = die → 2 < e.1 % 256) ∧ t.mem = s.mem) ∧
  (∀ (s : State) (die n : Nat), s.ev = .nats [die, n] → (s.lane die n).windowEnds s.cycle = true → ∃ t, exec .throttleWindowEnd s = .next t ∧
    (t.lane die n).acc = 0 ∧ (t.lane die n).level = (if (s.lane die n).acc = 0 then (s.lane die n).level - 1 else (s.lane die n).level) ∧
    t.cores = s.cores ∧ t.mem = s.mem) ∧
  (∀ (s : State) (q : Nat), s.ev = .nats [q] → let c := s.chanCtr q
    let idle : Prop := s.hptItem (q / 4096) 4 ≠ 0 ∧ c.asleep = false ∧ c.last + s.hptItem (q / 4096) 4 ≤ s.cycle + 1
    (idle → ∃ t, exec .selfRefreshEntry s = .next t ∧ t.chanCtr q = { c with asleep := true, entries := (c.entries + 1) % 2 ^ 64 } ∧
      (∀ p, p ≠ q → t.chanCtr p = s.chanCtr p) ∧ t.mem = s.mem) ∧
    (¬idle → exec .selfRefreshEntry s = .next s)) ∧
  (∀ (s : State) (k : Traffic) (b q : Nat), s.pseudoChan ((s.ditEntry (b / 1024)).mframe * 65536 + b % 1024 * 64) = some q →
    let c := s.chanCtr q
    let d := (s.burst k b).chanCtr q
    d.reads = (if k = .write then c.reads else (c.reads + 1) % 2 ^ 64) ∧ d.writes = (if k = .read then c.writes else (c.writes + 1) % 2 ^ 64) ∧
      d.entries = c.entries ∧ d.last = s.cycle + 1 ∧ d.asleep = false)

/-- Moves of frames, tracking periods, the throttle and self-refresh (R292, R294, R295, R299, R305). -/
def Obligations.FramesAndTracking : Prop := Claim.FrameMoves ∧ Claim.TrackingAndRefresh

/-! ### Relay channels -/

/-- Instructions of a relay channel bound to the gang (R325, R327-R331): the sender takes a permit, with its slot add, and its slab joins
those under way; the receiver takes the oldest slab, whose header must agree; a free takes effect later, and one more than the slabs
received is RXPHASE; a close takes its status; RXSTAT reads its items; a channel of another interface raises PROT. A free or an arrival
of the same cycle does not count yet (R323). -/
def Sys2Proof.Claim.ChannelInstructions : Prop :=
  (∀ (o : Rx3) (s u : State) (n : Nat), s.issues (.rxsend o) → s.relayChan o.ch.toNat = .ok n →
    let c := s.chan n
    (s.x o.b).toNat < 2 ^ 17 → (s.x o.a).toNat % 64 = 0 → s.fresh.sendSource (s.x o.a).toNat (crBytes c.record) = .ok u →
    s.rank = crSrank c.record → (c.st = .opened ∨ c.st = .flowing) → c.stAt < s.cycle →
    (c.sent + 2 ^ 64 - (if c.freedAt = s.cycle then c.freedOld else c.freed)) % 2 ^ 64 < crDepth c.record →
    ∃ t : State, exec (.rxsend o) s = .next (t.resultX 1 o.d (w64 c.sent)).inSequence ∧
      (t.chan n).sent = (c.sent + 1) % 2 ^ 64 ∧ (t.chan n).st = .flowing ∧ t.mem = u.landMine.mem ∧
      (crEnable c.record 0 = true → ∃ a ∈ t.adds, a.ctr = .slot s.curCore (crSslot c.record) ∧ a.amount = 1) ∧
      ∃ x : Slab, (t.chan n).slabs = c.slabs ++ [x] ∧ x.seq = c.sent ∧ x.layer = (s.x o.b).toNat ∧ x.src = (s.x o.a).toNat ∧
        x.permit = s.cycle ∧ x.started = false) ∧
  (∀ (o : Rx2) (s : State) (n : Nat), s.issues (.rxrecv o) → s.relayChan o.ch.toNat = .ok n →
    let c := s.chan n
    (s.x o.a).toNat < 2 ^ 17 → c.st ≠ .closed → s.rank = crRrank c.record →
    c.received ≠ (if c.arrivedAt = s.cycle then c.arrivedOld else c.arrived) →
    if s.fresh.headHeader c % 2 ^ 17 = (s.x o.a).toNat then
      exec (.rxrecv o) s = .next ((s.fresh.modChan n fun c => { c with received := (c.received + 1) % 2 ^ 64 }).resultX 1 o.d
        (w64 (crBase c.record + c.received % crDepth c.record * (crBytes c.record + 64) + 64))).inSequence
    else exec (.rxrecv o) s = .next (s.trap cRXPHASE (phaseInfo 0 o.ch.toNat (s.fresh.headHeader c)))) ∧
  (∀ (o : Rx0) (s : State) (n : Nat), s.issues (.rxfree o) → s.relayChan o.ch.toNat = .ok n →
    let c := s.chan n
    c.st ≠ .closed → c.st ≠ .faulted → s.rank = crRrank c.record →
    if c.freeing < (c.received + 2 ^ 64 - c.freed) % 2 ^ 64 then
      ∃ t : State, exec (.rxfree o) s = .next t.inSequence ∧ t.chan n = { c with freeing := c.freeing + 1 } ∧
        t.mem = s.fresh.landMine.mem ∧ ∃ d ∈ t.agenda, d.row = .rxfreeEffect ∧ s.cycle < d.cycle ∧ d.args = .nats [n]
    else exec (.rxfree o) s = .next (s.trap cRXPHASE (phaseInfo 1 o.ch.toNat 0))) ∧
  (∀ (o : Rx1) (s : State) (n : Nat), s.issues (.rxclose o) → s.relayChan o.ch.toNat = .ok n →
    let c := s.chan n
    let status (v : Word) : Prop := exec (.rxclose o) s = .next (s.fresh.resultX 3 o.d v).inSequence
    (c.st = .closed → status 1) ∧
    (c.st = .draining → s.rank = crSrank c.record → status 1) ∧
    ((c.st = .opened ∨ c.st = .flowing) → s.rank = crSrank c.record → exec (.rxclose o) s = .next ((s.fresh.modChan n fun c =>
      { c with st := .draining, stAt := s.cycle, closeAt := s.cycle + 2 }).resultX 3 o.d 0).inSequence) ∧
    ((c.st = .opened ∨ c.st = .flowing ∨ c.st = .draining) → s.rank ≠ crSrank c.record → s.rank = crRrank c.record → status 2) ∧
    (c.st ≠ .closed → s.rank ≠ crSrank c.record → s.rank ≠ crRrank c.record → status 3)) ∧
  (∀ (o : Rx2) (s : State) (n : Nat), s.issues (.rxstat o) → s.relayChan o.ch.toNat = .ok n →
    let c := s.chan n
    let gives (i : Nat) (v : Word) : Prop :=
      (s.x o.a).toNat = i → exec (.rxstat o) s = .next (s.fresh.resultX 3 o.d v).inSequence
    gives 0 (w64 ((match c.st with | .closed => 0 | .opening => 1 | .opened => 2 | .flowing => 3 | .draining => 4 | .faulted => 5) +
      crDepth c.record * 2 ^ 4 + crSrank c.record * 2 ^ 8 + crRrank c.record * 2 ^ 16)) ∧
    gives 1 (w64 c.sent) ∧ gives 2 (w64 c.arrived) ∧ gives 3 (w64 c.received) ∧ gives 4 (w64 c.freed) ∧ gives 5 c.info ∧
    (6 ≤ (s.x o.a).toNat → exec (.rxstat o) s = .next (s.trap cILLFLD 0))) ∧
  (∀ (o : Rx2) (s : State), s.issues (.rxstat o) → s.chanOf s.myCore.vifn.toNat o.ch.toNat = none →
    exec (.rxstat o) s = .next (s.trap cPROT (w64 o.ch.toNat)))

/-- RXOPEN (R326): it holds its cluster; when its record has been read it waits for its turn among the events of its cycle (R324); when it
completes, an accepted first open makes the channel OPENING with its record and
binds it to the node, the second makes it OPEN with its counts 0 and the cores of both ranks, and a refused one changes no channel. -/
def Sys2Proof.Claim.RelayOpens : Prop :=
  (∀ (o : X2) (s u : State) (e : TlbEntry) (pa : Nat), s.issues (.rxopen o) → s.fresh.access .load 64 (s.x o.a) = .ok (u, e, pa) →
    ∃ (t : State) (h : Hold), exec (.rxopen o) s = .next (t.holding h) ∧ h.instr = .rxopen o ∧ h.vals = [pa, e.ent, o.d.toNat] ∧
      h.since = s.cycle ∧ ∃ d ∈ t.agenda, d.row = .blockingCompletion ∧ s.cycle < d.cycle ∧
        d.args = .nats [s.curCore, s.curCl, s.cycle]) ∧
  (∀ (s : State) (h : Hold) (o : X2) (pa ent d : Nat), Claim.held s h → h.instr = .rxopen o → h.vals = [pa, ent, d] →
    exec .blockingCompletion s = .next
      ((Claim.woken s).modMe fun c => { c with act := .waiting { h with vals := [pa, ent, d, 1] } })) ∧
  (∀ (s : State) (h : Hold) (o : X2) (pa ent d a n : Nat),
    let u : State := { s with curCore := s.ev.nat 0, curCl := s.ev.nat 1, hitSeen := [] }
    let r := leNat (u.view a 64)
    let c := u.chan n
    u.me.act = .waiting h → h.instr = .rxopen o → h.since = s.ev.nat 2 → h.vals = [pa, ent, d, 1] →
    u.dest (leafOf ent) pa true = .ok [a] → u.relayChan (crChan r) = .ok n → ∃ t : State,
      exec .blockingCompletion s = .next ((t.resultX 1 (BitVec.ofNat 5 d) (w64 (u.openStatus c r))).release h) ∧ t.mem = s.mem ∧
      (∀ m, m ≠ n → t.chan m = s.chan m) ∧
      (u.openStatus c r ≠ 0 → t.chan n = c) ∧
      (u.openStatus c r = 0 → (t.chan n).record = r ∧ (t.chan n).node = u.myCore.node ∧
        if c.st = .closed ∧ crSrank r ≠ crRrank r then (t.chan n).st = .opening ∧ (t.chan n).opener = u.rank
        else (t.chan n).st = .opened ∧ (t.chan n).sent = 0 ∧ (t.chan n).arrived = 0 ∧ (t.chan n).received = 0 ∧ (t.chan n).freed = 0 ∧
          (t.chan n).slabs = [] ∧ (∀ k, u.rankCore (crSrank r) = some k → (t.chan n).sender = k) ∧
          ∀ k, u.rankCore (crRrank r) = some k → (t.chan n).receiver = k))

/-- Relay instructions and the opening of channels (R325-R331). -/
def Obligations.RelayInstructions : Prop := Claim.ChannelInstructions ∧ Claim.RelayOpens

/-- The ends of relay waits and the transfer of a slab (R322, R323, R327, R328, R333, R334): a waiting RXSEND takes its permit, or traps
when its channel leaves the states that give one, and a waiting RXRECV takes its slab; a slab starts after the cycle of its permit while
its gang is resident and not being stopped, when its ranges translate, and faults its channel when they do not; its source is read; it
arrives as a header and its payload at its ring slot and nowhere else, and a touch of a marked granule faults only then; a free takes
effect; a draining channel closes. The slot adds of the steps are among the adds of their cycle. -/
def Obligations.RelayTransfers : Prop :=
  (∀ (s : State) (h : Hold) (ch n hd src d : Nat), let u : State := { s with curCore := s.ev.nat 0, curCl := s.ev.nat 1 }
    let c := s.chan n
    u.me.act = .waiting h → h.kind = .relay ch 1 → h.vals = [n, hd, src, d] → (c.st = .opened ∨ c.st = .flowing) → c.stAt < s.cycle →
    (c.sent + 2 ^ 64 - (if c.freedAt = s.cycle then c.freedOld else c.freed)) % 2 ^ 64 < crDepth c.record → ∃ t : State,
      exec .relayPermitGrant s = .next ((t.resultX 1 (BitVec.ofNat 5 d) (w64 c.sent)).release h) ∧
      (t.chan n).sent = (c.sent + 1) % 2 ^ 64 ∧ (t.chan n).st = .flowing ∧ t.mem = s.mem ∧
      (crEnable c.record 0 = true → ∃ a ∈ t.adds, a.ctr = .slot u.curCore (crSslot c.record) ∧ a.amount = 1)) ∧
  (∀ (s : State) (h : Hold) (ch n hd src d : Nat), let u : State := { s with curCore := s.ev.nat 0, curCl := s.ev.nat 1 }
    let c := s.chan n
    u.me.act = .waiting h → h.kind = .relay ch 1 → h.vals = [n, hd, src, d] →
    (c.st = .draining ∨ c.st = .closed ∨ c.st = .faulted) → c.stAt < s.cycle →
    exec .relayPermitGrant s = .next (u.trapHeld h cRXPHASE (phaseInfo (if c.st = .draining then 2 else 4) ch 0))) ∧
  (∀ (s : State) (h : Hold) (ch n want d : Nat), let u : State := { s with curCore := s.ev.nat 0, curCl := s.ev.nat 1 }
    let c := s.chan n
    u.me.act = .waiting h → h.kind = .relay ch 2 → h.vals = [n, want, d] → c.st ≠ .closed →
    c.received ≠ (if c.arrivedAt = s.cycle then c.arrivedOld else c.arrived) → u.headHeader c % 2 ^ 17 = want % 2 ^ 17 → exec .rxrecvDeliver s = .next
      (((u.modChan n fun c => { c with received := (c.received + 1) % 2 ^ 64 }).resultX 1 (BitVec.ofNat 5 d)
        (w64 (crBase c.record + c.received % crDepth c.record * (crBytes c.record + 64) + 64))).release h)) ∧
  (∀ (s u v : State) (n : Nat) (x : Slab) (rs ws : List (Nat × Nat)), s.ev = .nats [n] → let c := s.chan n
    c.slabs.find? (fun x => !x.started) = some x → s.resident c.node = true → s.nodeStop c.node = .none → c.st ≠ .faulted →
    x.permit < s.cycle → s.portPieces c.sender .load x.src (crBytes c.record) = .ok (u, rs) →
    u.portPieces c.receiver .store (crBase c.record + x.seq % crDepth c.record * (crBytes c.record + 64)) (crBytes c.record + 64) =
      .ok (v, ws) → ∃ t, exec .slabStart s = .next t ∧ t.mem = s.mem ∧
      (∃ y ∈ (t.chan n).slabs, y.seq = x.seq ∧ y.started = true ∧ y.reads = rs ∧ y.writes = ws ∧
        y.uses = v.portUses c.sender .load x.src (crBytes c.record) ++
          v.portUses c.receiver .store (crBase c.record + x.seq % crDepth c.record * (crBytes c.record + 64)) (crBytes c.record + 64)) ∧
      ∃ d ∈ t.agenda, d.row = .slabSourceRead ∧ s.cycle < d.cycle ∧ d.args = .nats [n, x.seq, 0]) ∧
  (∀ (s : State) (n : Nat) (x : Slab), s.ev = .nats [n] → let c := s.chan n
    c.slabs.find? (fun x => !x.started) = some x →
    (s.resident c.node = false ∨ s.nodeStop c.node ≠ .none ∨ c.st = .faulted ∨ s.cycle ≤ x.permit) → exec .slabStart s = .next s) ∧
  (∀ (s : State) (n : Nat) (x : Slab) (e : Nat × Word), s.ev = .nats [n] → let c := s.chan n
    c.slabs.find? (fun x => !x.started) = some x → s.resident c.node = true → s.nodeStop c.node = .none → c.st ≠ .faulted →
    x.permit < s.cycle → s.portPieces c.sender .load x.src (crBytes c.record) = .error e → ∃ t, exec .slabStart s = .next t ∧ (t.chan n).st = .faulted ∧
      (t.chan n).info = e.2 ∧ t.mem = s.mem ∧ ∃ r : FaultRec, t.faults = s.faults ++ [r] ∧ r.cause = e.1 ∧ r.info = e.2) ∧
  (∀ (s : State) (n q : Nat) (x : Slab), s.ev = .nats [n, q, 0] →
    (s.chan n).slabs.find? (fun x => x.started && decide (x.seq = q)) = some x → ∃ t, exec .slabSourceRead s = .next t ∧ t.mem = s.mem ∧
      t.faults = s.faults ∧ (∃ y ∈ (t.chan n).slabs, y.seq = q ∧ y.bytes = some (x.reads.flatMap fun p => s.bytes p.1 p.2) ∧
        ∀ p, x.reads = [p] → y.guard = s.guardTouch p.1 p.2) ∧
      (crEnable (s.chan n).record 3 = true →
        ∃ a ∈ t.adds, a.ctr = .slot (s.chan n).sender (crCslot (s.chan n).record) ∧ a.amount = 1) ∧ ∃ d ∈ t.agenda, d.row = .slabArrival ∧ s.cycle < d.cycle ∧ d.args = .nats [n, q, 0]) ∧
  (∀ (s : State) (n q pa : Nat) (x : Slab) (bs : List Byte), s.ev = .nats [n, q, 0] → let c := s.chan n
    c.slabs.find? (fun x => decide (x.seq = q)) = some x → x.bytes = some bs → (∀ y ∈ c.slabs, q ≤ y.seq) →
    x.writes = [(pa, 64 + bs.length)] → (s.mediaRange pa (64 + bs.length)).Nodup → ∃ t, exec .slabArrival s = .next t ∧
      t.bytes pa (64 + bs.length) = leBytes 64 (x.layer % 2 ^ 17 + q % 2 ^ 32 * 2 ^ 32 + crChan c.record * 2 ^ 64 +
        crSrank c.record * 2 ^ 72 + crBytes c.record * 2 ^ 96) ++ bs ∧
      s.sameBytesBut t (s.mediaRange pa (64 + bs.length)) ∧ (t.chan n).arrived = (c.arrived + 1) % 2 ^ 64 ∧
      (t.chan n).slabs = (c.slabs.filter fun y => decide (y.seq ≠ q)) ∧
      (crEnable c.record 2 = true → ∃ a ∈ t.adds, a.ctr = .slot c.receiver (crAslot c.record) ∧ a.amount = 1) ∧
      (x.guard = none → s.guardTouch pa (64 + bs.length) = none → t.faults = s.faults) ∧
      ∀ w, x.guard = some w → ∃ r ∈ t.faults, r.core = c.sender ∧ r.cause = cGUARD ∧ r.info = w) ∧
  (∀ (s : State) (n : Nat), s.ev = .nats [n] → 0 < (s.chan n).freeing → ∃ t, exec .rxfreeEffect s = .next t ∧
    (t.chan n).freed = ((s.chan n).freed + 1) % 2 ^ 64 ∧ (t.chan n).freeing = (s.chan n).freeing - 1 ∧ t.mem = s.mem ∧
    (crEnable (s.chan n).record 1 = true →
      ∃ a ∈ t.adds, a.ctr = .slot (s.chan n).sender (crFslot (s.chan n).record) ∧ a.amount = 1)) ∧
  (∀ (s : State) (n : Nat), s.ev = .nats [n] → (s.chan n).st = .draining → (s.chan n).freed = (s.chan n).sent →
    (s.chan n).closeAt ≤ s.cycle → ∃ t, exec .channelDrainClose s = .next t ∧ (t.chan n).st = .closed ∧ (t.chan n).node = none ∧
      (∀ m, m ≠ n → t.chan m = s.chan m) ∧ t.mem = s.mem ∧ t.cores = s.cores)

/-- DLAUNCH and graphs (R153): DLAUNCH holds its cluster for at most 2^19 cycles; a graph that fails a check gives its code and index
in X[rd], one that passes is entered and gives 0; an entered graph has a WAITING node for each record. -/
def Obligations.Launches : Prop :=
  (∀ (o : Reg2) (s u : State) (e : TlbEntry) (pa : Nat), s.issues (.dlaunch o) → s.fresh.access .load 32 (s.x o.ra) = .ok (u, e, pa) →
    ∃ (t : State) (h : Hold), exec (.dlaunch o) s = .next (t.holding h) ∧ h.instr = .dlaunch o ∧ h.ea = s.x o.ra ∧
      h.vals = [o.rd.toNat] ∧ t.mem = u.landMine.mem ∧ ∃ d ∈ t.agenda, d.row = .blockingCompletion ∧ s.cycle < d.cycle ∧
        d.cycle ≤ s.cycle + 2 ^ 19 ∧ d.args = .nats [s.curCore, s.curCl, s.cycle]) ∧
  (∀ (s : State) (h : Hold) (o : Reg2) (d : Nat), let u : State := { s with curCore := s.ev.nat 0, curCl := s.ev.nat 1, hitSeen := [] }
    u.me.act = .waiting h → h.instr = .dlaunch o → h.since = s.ev.nat 2 → h.vals = [d] →
    (∀ e, u.checkGraph u.myCore.vifn.toNat u.myCore.asid.toNat h.ea.toNat = .error e →
      exec .blockingCompletion s = .next ((u.resultX 1 (BitVec.ofNat 5 d) (w64 (e.1 + e.2 * 2 ^ 16))).release h)) ∧
    (∀ p, u.checkGraph u.myCore.vifn.toNat u.myCore.asid.toNat h.ea.toNat = .ok p →
      let r := u.enterGraph u.myCore.vifn.toNat u.launchCtx p none
      exec .blockingCompletion s = .next (((r.1.settleGraph r.2.1).resultX 1 (BitVec.ofNat 5 d) 0).release h))) ∧
  (∀ (s : State) (v ctx : Nat) (p : Parsed) (b : Option (Nat × Nat × Nat × Nat)), let r := s.enterGraph v ctx p b
    r.1.mem = s.mem ∧ r.1.cores = s.cores ∧ (∃ g : Graph, r.1.graph r.2.1 = some g ∧ g.vi = v ∧ g.ctx = ctx ∧ g.handle = r.2.2 ∧
      g.nodes = (List.range p.recs.length).map fun i => s.nextId + 1 + i) ∧
    ∀ i, i < p.recs.length → ∃ x : Node, r.1.node (s.nextId + 1 + i) = some x ∧ x.st = .waiting ∧ x.record = p.recs.getD i 0 ∧
      x.graph = r.2.1 ∧ ∀ j, s.nextId + 1 + j ∈ x.preds ↔ j < p.recs.length ∧ (j, i) ∈ p.edges)

/-! ### Engines -/

/-- Matrix commands at issue (R221-R227): the head of the queue whose pipe is free and whose stream passes its checks starts in this
cycle, takes the pipe for its rows and advances its stream register; a stream that fails a check raises its cause and the command
is gone. -/
def Obligations.MatrixCommands : Prop :=
  (∀ (s : State) (c : QCmd) (q : List QCmd) (r : BitVec 4), Claim.heads s c q → c.cmd.op = .mxlds r → let k := s.myCore
    k.loaderFree ≤ s.cycle → tcbM k.tcb ≠ 0 →
    (sdCheck (k.sreg r.toNat) (tcbW k.tcb) (tcbN k.tcb) (engRowBytes (tcbW k.tcb) (tcbK k.tcb)) false r.toNat = none →
      ∃ t, exec .mxlds s = .next t ∧ Claim.issued s t c q none ∧ Claim.advanced s t r.toNat ∧
        t.myCore.loaderFree = s.cycle + tcbN k.tcb ∧ t.myCore.inflight = k.inflight) ∧
    (∀ e, sdCheck (k.sreg r.toNat) (tcbW k.tcb) (tcbN k.tcb) (engRowBytes (tcbW k.tcb) (tcbK k.tcb)) false r.toNat = some e →
      ∃ t, exec .mxlds s = .next t ∧ Claim.refused s t q e)) ∧
  (∀ (s : State) (c : QCmd) (q : List QCmd) (a : BitVec 2) (swap : Bool) (r : BitVec 5), Claim.heads s c q →
    c.cmd.op = .mxrun a swap false r → let k := s.myCore
    k.runFree ≤ s.cycle → k.otherFree ≤ s.cycle → (swap = true → k.loaderFree ≤ s.cycle) → tcbM k.tcb ≠ 0 →
    sdCheck (k.sreg r.toNat) (tcbA k.tcb) (tcbM k.tcb) (engRowBytes (tcbA k.tcb) (tcbK k.tcb)) false r.toNat = none →
    ∃ t, exec .mxrun s = .next t ∧ Claim.issued s t c q none ∧ Claim.advanced s t r.toNat ∧
      t.myCore.runFree = s.cycle + tcbM k.tcb ∧ t.myCore.active = (k.active ^^ swap) ∧ s.cycle + tcbM k.tcb + 23 ≤ t.myCore.arrayFree) ∧
  (∀ (s : State) (c : QCmd) (q : List QCmd) (a : BitVec 2) (swap : Bool) (r : BitVec 5), Claim.heads s c q →
    c.cmd.op = .mxrun a swap true r → let k := s.myCore
    k.runFree ≤ s.cycle → k.otherFree ≤ s.cycle → (swap = true → k.loaderFree ≤ s.cycle) → tcbM k.tcb ≠ 0 →
    engScaled (tcbA k.tcb) = false → ∃ t, exec .mxrun s = .next t ∧ Claim.issued s t c q none ∧ t.myCore.sregs = k.sregs ∧
      t.myCore.runFree = s.cycle + tcbM k.tcb ∧ t.myCore.active = (k.active ^^ swap)) ∧
  (∀ (s : State) (c : QCmd) (q : List QCmd) (a : BitVec 2) (clr : Bool) (d : BitVec 5) (f : BitVec 4) (rnd : BitVec 3) (cl : Clamp)
    (sc : BitVec 6), Claim.heads s c q → c.cmd.op = .mxout a clr false d f rnd cl sc → let k := s.myCore
    k.arrayFree ≤ s.cycle → tcbM k.tcb ≠ 0 → f.toNat ≤ 8 → ¬(engWidth f.toNat = 4 ∧ tcbN k.tcb % 2 = 1) →
    sdCheck (k.sreg d.toNat) f.toNat (tcbM k.tcb) (tcbN k.tcb * engWidth f.toNat / 8) true d.toNat = none →
    ∃ t, exec .mxout s = .next t ∧ Claim.issued s t c q none ∧ Claim.advanced s t d.toNat ∧
      s.cycle + tcbM k.tcb ≤ t.myCore.arrayFree) ∧
  (∀ (s : State) (c : QCmd) (q : List QCmd) (a : BitVec 2) (clr : Bool) (d : BitVec 5) (rnd : BitVec 3) (cl : Clamp) (sc : BitVec 6),
    Claim.heads s c q → c.cmd.op = .mxout a clr true d 0 rnd cl sc → s.myCore.arrayFree ≤ s.cycle → tcbM s.myCore.tcb ≠ 0 →
    ∃ t, exec .mxout s = .next t ∧ Claim.issued s t c q none ∧ t.myCore.sregs = s.myCore.sregs) ∧
  (∀ (s : State) (c : QCmd) (q : List QCmd) (m : BitVec 4), Claim.heads s c q → c.cmd.op = .mxzero m → s.myCore.arrayFree ≤ s.cycle →
    ∃ t, exec .mxzero s = .next t ∧ Claim.issued s t c q (some s.cycle) ∧
      t.myCore.inflight = s.myCore.inflight ++ [{ due := s.cycle, iss := s.cycle, cl := 4, w := .accZero m.toNat }]) ∧
  (∀ p ∈ [(Instr.mxrdaSt, EngOp.mxrdaSt, true), (.mxrdaLd, .mxrdaLd, false)], ∀ (s : State) (c : QCmd) (q : List QCmd) (a : BitVec 2)
    (r : BitVec 4), Claim.heads s c q → c.cmd.op = p.2.1 a r → s.myCore.arrayFree ≤ s.cycle → tcbM s.myCore.tcb ≠ 0 →
    sdCheck (s.myCore.sreg r.toNat) 10 (tcbM s.myCore.tcb) (tcbN s.myCore.tcb * 16) p.2.2 r.toNat = none →
    ∃ t, exec p.1 s = .next t ∧ Claim.issued s t c q none ∧ Claim.advanced s t r.toNat)

/-- Copies and PUB (R215, R228-R232, R235, R237): a copy waits while 96 are in flight or the range checker holds it; then its descriptor is
checked by Table 15-10, and one that passes starts; one without rows or bytes is done at once; a raw row writes the bytes it read; PUB
makes the shadows of its frames the frames themselves. -/
def Sys2Proof.Claim.CopiesAndPublish : Prop :=
  (∀ p ∈ [(Instr.cpy, EngOp.cpy, CopyKind.plain), (.cpyg, .cpyg, .gather), (.cpys, .cpys, .scatter), (.cpym, .cpym, .multicast)],
    ∀ (s u : State) (c : QCmd) (q : List QCmd) (r : BitVec 4) (d : Nat) (g : Option Word), Claim.heads s c q → c.cmd.op = p.2.1 r →
    sdCheck (s.myCore.sreg r.toNat) 15 1 0 false r.toNat = none → s.copyDesc (s.myCore.sreg r.toNat) = .ok (u, d, g) →
    (s.copyMayStart p.2.2 d = false → exec p.1 s = .next s) ∧
    (∀ e, s.copyMayStart p.2.2 d = true → copyCheck p.2.2 d r.toNat = some e → e.1 ≠ cXLATE →
      ∃ t, exec p.1 s = .next t ∧ Claim.refused s t q e) ∧
    (copyCheck p.2.2 d r.toNat = none → s.copyMayStart p.2.2 d = true → ∃ t, exec p.1 s = .next t ∧ Claim.advanced s t r.toNat ∧
      Claim.issued s t c q (if copyEmpty d then some s.cycle else none) ∧
      (copyEmpty d = false → ∃ e ∈ t.agenda, e.row = .copyRow ∧ s.cycle < e.cycle ∧ e.args = .nats [s.curCore, s.myCore.nextCmd]))) ∧
  (∀ (s u v : State) (c : QCmd) (q : List QCmd) (r : BitVec 4) (d : Nat) (g : Option Word) (fs : List Nat), Claim.heads s c q →
    c.cmd.op = .pub r → (s.myCore.copies.any fun x => cdShadow x.2.r.cdesc) = false →
    sdCheck (s.myCore.sreg r.toNat) 15 1 0 false r.toNat = none → s.copyDesc (s.myCore.sreg r.toNat) = .ok (u, d, g) →
    pubReserved d = false → cdDst d % 65536 = 0 → u.pubFrames (cdDst d) (cdRows d) 0 = .ok (v, fs) →
    ∃ t, exec .pub s = .next t ∧ Claim.issued s t c q (some s.cycle) ∧ Claim.advanced s t r.toNat ∧
      ∀ f, t.ditEntry f = if f ∈ fs ∧ (s.ditEntry f).shd = true then
        { s.ditEntry f with mframe := (s.ditEntry f).smframe, shd := false, smframe := 0 } else s.ditEntry f) ∧
  (∀ (s u v : State) (i : Issued) (r : BitVec 4) (n id pa pb a b ea eb : Nat), s.ev = .nats [n, id] →
    (s.core n).issued.find? (fun i => decide (i.id = id)) = some i → i.id = id → i.c.cmd.op = .cpy r → let d := i.r.cdesc
    cdCvt d = false → cdLayout d = 0 → cdShadow d = false → cdSfmt d = 0 → cdDfmt d = 0 → cdDelems d = 0 →
    let sa := rowAddr (cdSrc d) (cdSpitch d) i.r.row
    let da := rowAddr (cdDst d) (cdDpitch d) i.r.row
    sa + cdBytes d ≤ 2 ^ 48 → da + cdBytes d ≤ 2 ^ 48 →
    ({ s with curCore := n, hitSeen := [] } : State).unitCheck (unitEngine n) (s.core n).asid.toNat .load (rangePieces sa (cdBytes d)) =
      .ok (u, [(pa, cdBytes d, ea)]) → u.dest (leafOf ea) pa true = .ok [a] →
    (u.hitPieces [(pa, cdBytes d, ea)] .read).unitCheck (unitEngine n) (s.core n).asid.toNat .store (rangePieces da (cdBytes d)) =
      .ok (v, [(pb, cdBytes d, eb)]) → v.dest (leafOf eb) pb false = .ok [b] → (s.mediaRange b (cdBytes d)).Nodup →
    ∃ t, exec .copyRow s = .next t ∧ t.bytes b (cdBytes d) = s.bytes a (cdBytes d) ∧
      s.sameBytesBut t (s.mediaRange b (cdBytes d)) ∧
      ∃ j ∈ (t.core n).issued, j.id = id ∧ j.r.row = i.r.row + 1 ∧
        (i.r.row + 1 = cdRows d → j.doneAt = some s.cycle))

/-- Rows of CPYM (R233, R340): a row is read and waits for its turn in its group, its copy staying at that row; its package sends it to the
group's root, the root performs it and sends it to every other member, a package outside the torus is PROT, and one that is lost
MIRRFAIL; once all that were sent are acknowledged the row is done, or its copy stops with the cause of a failure. A row performed in a
package writes its bytes as one store would. That a package that sent a row to another root performs it last, and that a root outside
its group fails as PROT, is log entry 68's reading. -/
def Sys2Proof.Claim.MulticastRows : Prop :=
  (∀ (s u : State) (i : Issued) (r : BitVec 4) (n id pa a ea : Nat) (g : Group), s.ev = .nats [n, id] →
    (s.core n).issued.find? (fun i => decide (i.id = id)) = some i → i.id = id → i.c.cmd.op = .cpym r → let d := i.r.cdesc
    cdCvt d = false → cdLayout d = 0 → cdShadow d = false → cdSfmt d = 0 → cdDfmt d = 0 → cdDelems d = 0 →
    let sa := rowAddr (cdSrc d) (cdSpitch d) i.r.row
    let da := rowAddr (cdDst d) (cdDpitch d) i.r.row
    sa + cdBytes d ≤ 2 ^ 48 → da + cdBytes d ≤ 2 ^ 48 →
    ({ s with curCore := n, hitSeen := [] } : State).unitCheck (unitEngine n) (s.core n).asid.toNat .load (rangePieces sa (cdBytes d)) =
      .ok (u, [(pa, cdBytes d, ea)]) → u.dest (leafOf ea) pa true = .ok [a] →
    SMap.get none s.groups (4096 * (s.core n).vifn.toNat + cdDscl d % 4096) = some g →
    ∃ t, exec .copyRow s = .next t ∧ t.mem = s.mem ∧
      (t.core n).issued.map (fun j => (j.id, j.r.row, j.doneAt)) = (s.core n).issued.map (fun j => (j.id, j.r.row, j.doneAt)) ∧
      ∃ m : McRow, t.mcRows = s.mcRows ++ [m] ∧ m.core = n ∧ m.cmd = id ∧ m.group = cdDscl d % 4096 ∧ m.va = da ∧
        m.bytes = s.bytes a (cdBytes d) ∧ m.sent = false ∧ m.from_ = none ∧
        ∃ e ∈ t.agenda, e.row = .multicastForward ∧ s.cycle < e.cycle ∧ e.args = .nats [m.id]) ∧
  (∀ (s : State) (m : McRow) (i : Issued) (g : Group), s.ev = .nats [m.id] → s.mcRows = [m] → m.from_ = none →
    (s.core m.core).issued = [i] → i.id = m.cmd → SMap.get none s.groups (4096 * m.vi + m.group) = some g →
    let stops (cause : Nat) : Prop := cause ≠ cXLATE → ∃ t, exec .multicastForward s = .next t ∧ t.mcRows = [] ∧ t.mem = s.mem ∧
      (t.core m.core).issued = [] ∧ ∃ r : FaultRec, t.faults = s.faults ++ [r] ∧ r.cause = cause ∧ r.info = w64 m.group ∧ r.core = m.core
    let carries (t : State) (p : Nat) : Prop := ∃ x ∈ t.packets, x.owner = .row m.id ∧ x.req.dst = p ∧ x.req.aperture = m.va ∧
      x.req.op = .mcast (4096 * m.vi + m.group) m.bytes.length (leNat m.bytes)
    let lost : Prop := ∃ p ∈ s.lost, g.members.testBit p = true
    let others : List Nat := if g.root ≠ s.pkg then [g.root] else (List.range 4096).filter fun p => g.members.testBit p && decide (p ≠ s.pkg)
    (m.sent = false → lost → stops cMIRRFAIL) ∧
    (m.sent = false → ¬lost → (∃ p ∈ others, s.inTorus p = false) → stops cPROT) ∧
    (m.sent = false → ¬lost → (∀ p ∈ others, s.inTorus p = true) → g.root = s.pkg → g.members.testBit s.pkg = false → stops cPROT) ∧
    (m.sent = false → ¬lost → (∀ p ∈ others, s.inTorus p = true) → g.root ≠ s.pkg → ∃ t, exec .multicastForward s = .next t ∧
      t.mem = s.mem ∧ t.cores = s.cores ∧ t.mcRows = [{ m with sent := true, guard := none }] ∧ carries t g.root) ∧
    (m.sent = false → ¬lost → (∀ p ∈ others, s.inTorus p = true) → g.root = s.pkg → g.members.testBit s.pkg = true →
      ∀ u w, s.performMulticast (coreDie m.core) m.vi m.va m.bytes g = .ok (u, w) → ∃ t, exec .multicastForward s = .next t ∧
        t.mem = u.mem ∧ t.mcRows = [{ m with sent := true, guard := w }] ∧ ∀ p ∈ others, carries t p) ∧
    (m.sent = true → m.fail ≠ 0 → stops m.fail) ∧
    (m.sent = true → m.fail = 0 → (g.root = s.pkg ∨ g.members.testBit s.pkg = false) → ∃ t, exec .multicastForward s = .next t ∧
      t.mcRows = [] ∧ t.mem = s.mem ∧ ∃ j, (t.core m.core).issued = [j] ∧ j.id = i.id ∧ j.r.row = i.r.row + 1)) ∧
  (∀ (s u : State) (die vi va pa ent a : Nat) (bs : List Byte) (g : Group) (c : Ctx),
    SMap.get none s.ctxs (65536 * vi + g.ctx) = some c →
    s.unitCheck (unitEgress die) c.asid .store (rangePieces va bs.length) = .ok (u, [(pa, bs.length, ent)]) →
    u.dest (leafOf ent) pa false = .ok [a] → (s.mediaRange a bs.length).Nodup →
    ∃ t w, s.performMulticast die vi va bs g = .ok (t, w) ∧ t.bytes a bs.length = bs ∧ s.sameBytesBut t (s.mediaRange a bs.length))

/-- Copies, PUB and multicast rows (R215, R228-R237, R340). -/
def Obligations.CopyCommands : Prop := Claim.CopiesAndPublish ∧ Claim.MulticastRows

/-- CWT, CAD, retirement, TCFG's end and the Bridle (R143, R205, R211-R215, R238, R370): CWT issues and retires once its counter passes,
else it waits; CAD's amount and the add of the slot that a retiring command names are among the adds of their cycle; an add to a slot
saturates, which is CNTOVF of the engine that makes it; retirement pushes the tokens; a TCFG that waited completes with its block; a
stream begins at the oldest inbox entry; its words are fetched at once from the own scratchpad, else after an open time; its commands
enter their queue, its end marker ends it. -/
def Obligations.EngineFlow : Prop :=
  (∀ (s : State) (c : QCmd) (q : List QCmd) (n : BitVec 9), Claim.heads s c q → c.cmd.op = .cwt (.own n) → s.arrayIdle = true →
    if waitOk (SMap.get 0 s.myCore.kSnap n.toNat).toNat c.cmd.h.waitVal.toNat = true then
      ∃ t, exec .cwt s = .next t ∧ Claim.issued s t c q (some s.cycle)
    else exec .cwt s = .next s) ∧
  (∀ (s : State) (c : QCmd) (q : List QCmd) (n : BitVec 9) (a : BitVec 30), Claim.heads s c q → c.cmd.op = .cad (.own n) a →
    s.arrayIdle = true → ∃ t, exec .cad s = .next t ∧ Claim.issued s t c q (some s.cycle) ∧ t.myCore.k = s.myCore.k ∧
      ∃ x ∈ t.adds, x.ctr = .slot s.curCore n.toNat ∧ x.amount = a.toNat ∧ ∃ unit cmd place row,
        x.src = .engine s.curCore unit (ctrInfo 0 n.toNat 0 0) cmd place row) ∧
  (∀ (s : State) (x : AddReq) (n k : Nat), x.ctr = .slot n k → let t := s.applyAdd x
    let v := (SMap.get 0 (s.core n).k k).toNat + x.amount
    (SMap.get 0 (t.core n).k k).toNat = Min.min v (2 ^ 64 - 1) ∧ t.mem = s.mem ∧
    (∀ m j, (m ≠ n ∨ j ≠ k) → SMap.get 0 (t.core m).k j = SMap.get 0 (s.core m).k j) ∧
    (v < 2 ^ 64 → t.faults = s.faults) ∧
    (2 ^ 64 ≤ v → ∀ core unit info cmd place row, x.src = .engine core unit info cmd place row →
      ∃ r : FaultRec, t.faults = s.faults ++ [r] ∧ r.cause = cCNTOVF ∧ r.info = info ∧ r.core = core)) ∧
  (∀ (s : State) (n id : Nat) (i : Issued), s.ev = .nats [n, id] → (s.core n).issued.find? (fun i => decide (i.id = id)) = some i →
    (s.core n).canRetire s.cycle i = true → i.guard = none → ∃ t, exec .engineRetire s = .next t ∧ t.mem = s.mem ∧
      (t.core n).issued = (s.core n).issued.filter (fun x => decide (x.id ≠ id)) ∧
      (∀ f, SMap.get 0 (t.core n).freshTokens f = SMap.get 0 (s.core n).freshTokens f + (if f ∈ i.c.pushes i.queue then 1 else 0)) ∧
      (t.core n).k = (s.core n).k ∧ (i.c.cmd.h.addEn = false → t.adds = s.adds) ∧
      (i.c.cmd.h.addEn = true → ∃ x ∈ t.adds, x.ctr = .slot n i.c.cmd.h.addSlot.toNat ∧ x.amount = 1)) ∧
  (∀ (s : State) (n cl : Nat) (h : Hold), s.ev = .nats [n] → (s.core n).tcfgWaiters = [(cl, h)] → (s.core n).matQ = [] →
    (s.core n).loaderFree ≤ s.cycle → (s.core n).runFree ≤ s.cycle → (s.core n).arrayFree ≤ s.cycle → ∃ t : State,
      exec .tcfgComplete s = .next (t.release h) ∧ t.curCore = n ∧ t.curCl = cl ∧
      t.core n = { s.core n with tcb := w64 (h.vals.getD 0 0), acc := [], planes := [] } ∧ t.mem = s.mem) ∧
  (∀ (s : State) (n : Nat) (e : InEntry) (l : List InEntry), s.ev = .nats [n] → (s.core n).stream = none →
    (s.core n).inbox = e :: l → e.placed < s.cycle → s.bridleRuns n = true → ∃ t st, exec .bridleStreamBegin s = .next t ∧
      (t.core n).stream = some st ∧ st.start = e.addr ∧ st.next = e.addr ∧ st.left = 0 ∧ (t.core n).inbox = l ∧ t.mem = s.mem) ∧
  (∀ (s u : State) (n w : Nat) (st : Stream) (c : EngCmd), s.ev = .nats [n] → (s.core n).stream = some st → s.bridleRuns n = true →
    st.left ≠ 0 → (s.core n).accepts st.eng = true → Claim.fetched s n st st.next.toNat 12 →
    ({ s with curCore := n } : State).bridleRead st.next.toNat 12 = .ok (u, w, none) →
    decodeCmd w = some c → EngOp.inQueue c.op st.eng = true → EngOp.pastT31 (s.core n).tcb c.op = false →
    ∃ (t : State) (x : QCmd), exec .bridleFetch s = .next t ∧ (t.core n).queue st.eng = (s.core n).queue st.eng ++ [x] ∧ x.cmd = c ∧
      x.sect = some st.num ∧ (t.core n).stream = some { st with next := st.next + 12, left := st.left - 1 } ∧ t.mem = s.mem) ∧
  (∀ (s u : State) (n : Nat) (st : Stream), s.ev = .nats [n] → (s.core n).stream = some st → s.bridleRuns n = true → st.left = 0 →
    Claim.fetched s n st ((st.next.toNat + 7) / 8 * 8) 8 → ({ s with curCore := n } : State).bridleRead ((st.next.toNat + 7) / 8 * 8) 8 = .ok (u, 3 * 2 ^ 62, none) →
    (s.core n).sections = [] → ∃ t, exec .bridleFetch s = .next t ∧ (t.core n).stream = none ∧ t.mem = s.mem ∧ t.faults = s.faults) ∧
  (∀ (s : State) (n : Nat) (st : Stream), s.ev = .nats [n] → (s.core n).stream = some st → s.bridleRuns n = true → st.left ≠ 0 →
    (s.core n).accepts st.eng = true → let a := st.next.toNat
    let due := if st.gate.1 = a + 1 then st.gate.2 else s.cycle + s.time
    ({ s with curCore := n } : State).ownBytes (unitBridle n) a 12 = false → s.cycle < due →
    ∃ t, exec .bridleFetch s = .next t ∧ (t.core n).stream = some { st with gate := (a + 1, due) } ∧ t.mem = s.mem ∧
      (t.core n).queue st.eng = (s.core n).queue st.eng)

/-! ### The ends of waits -/

/-- Translation maintenance, fetch and memory events (R87, R132, R134, R161, R269, R371): a unit whose entries are dropped acknowledges
once its accesses under the translations that are removed have been performed; a TLBSYNC whose invalidations are all acknowledged completes and forgets them; a block that
arrives lets its cluster run, one that cannot be read traps; a decoding fault traps with its cause; the data of a queue load fills
its entry; a posted store is acknowledged. -/
def Obligations.WaitEnds : Prop :=
  (∀ (s : State) (u id : Nat) (k : Ticket), s.ev = .nats [u, id] → s.ticket id = some k → k.id = id → u ∉ k.undropped →
    u ∈ k.unacked → s.unitDrained u k = true → ∃ t j, exec .tlbiAcknowledge s = .next t ∧ t.ticket id = some j ∧
      j.unacked = k.unacked.filter (fun x => decide (x ≠ u)) ∧ (j.unacked = [] → j.doneAt = some s.cycle) ∧ t.mem = s.mem ∧
      t.cores = s.cores) ∧
  (∀ (s : State) (u id : Nat) (k : Ticket), s.ev = .nats [u, id] → s.ticket id = some k → u ∉ k.undropped → u ∈ k.unacked →
    (∃ x ∈ s.flights, x.unit = u ∧ k.hitsUse x = true) → ∃ t, exec .tlbiAcknowledge s = .next t ∧ t.tickets = s.tickets ∧
      ∃ d ∈ t.agenda, d.row = .tlbiAcknowledge ∧ d.cycle = s.cycle + 1 ∧ d.args = .nats [u, k.id]) ∧
  (∀ (s : State) (h : Hold), let u : State := { s with curCore := s.ev.nat 0, curCl := s.ev.nat 1 }
    u.me.act = .waiting h → h.kind = .tlbsync → u.ticketsDone u.me.tlbis = true → ∃ t : State,
      exec .tlbsyncComplete s = .next (t.release h) ∧ t.me.tlbis = [] ∧ t.mem = s.mem ∧
      t.tickets = s.tickets.filter (fun k => !u.me.tlbis.contains k.id)) ∧
  (∀ (s : State) (h : Hold) (b : Nat), let u : State := { s with curCore := s.ev.nat 0, curCl := s.ev.nat 1 }
    let va := Max.max u.me.pc.toNat (64 * b)
    u.me.act = .waiting h → h.kind = .fetch b →
    (∀ r, u.fetchWord u.curCore u.curCl va = .ok r → exec .fetchBlockArrival s =
      .next ((r.1.fetchTraffic u.curCore u.curCl va).modMe fun c => { c with act := .running, block := some b })) ∧
    (∀ e, u.fetchWord u.curCore u.curCl va = .error e → exec .fetchBlockArrival s =
      .next (({ u with ir := 0 } : State).trap e (w64 va)))) ∧
  (∀ (s : State) (n c cause info : Nat), s.ev = .nats [n, c, cause, info] →
    exec .decodingFault s = .next (({ s with curCore := n, curCl := c } : State).trap cause (w64 info))) ∧
  (∀ (s : State) (n q e pa ent c ok data : Nat), s.ev = .nats [n, q, e, pa, ent, c, ok, data] →
    ((s.core n).qEntry q e).st = .reserved → ∃ t, exec .ldqFill s = .next t ∧ t.mem = s.mem ∧
      (ok = 1 → ((t.core n).qEntry q e).st = .filled ∧ ((t.core n).qEntry q e).data = data) ∧
      (ok ≠ 1 → ((t.core n).qEntry q e).st = .poisoned)) ∧
  (∀ (s : State) (n c id : Nat) (p : Posted), s.ev = .nats [n, c, id] →
    (s.cluster n c).posted.find? (fun p => decide (p.id = id)) = some p → ∃ t, exec .postedStoreAck s = .next t ∧ t.mem = s.mem ∧
      (t.cluster n c).posted = (s.cluster n c).posted.filter (fun q => decide (q.id ≠ id)) ∧
      (t.cluster n c).mirrRep = (if p.fail ≠ 0 ∧ (s.cluster n c).mirrRep = none then some (p.fail, p.ea) else (s.cluster n c).mirrRep))

/-! ### Gangs -/

/-- The life of a gang (R32, R40, R46-R50, R54, R353, R355): once reset is complete, a decision every 16 cycles gives a head that fits its
cores, and its first instructions issue at most 300 cycles later, each core in its start state or its saved context; a drain that has
ended begins the save, and the save suspends the node and frees its cores; a gang whose tasks have finished completes, and its done
counter is among the adds of the cycle; a cleared scratchpad reads 0 and has no last owner. That a save writes at most the save area,
whose bytes are then free values, is log entry 57's choice. -/
def Obligations.GangLife : Prop :=
  (∀ s : State, (s.cycle % 16 ≠ 0 ∨ s.resetStep ≠ 5) → exec .paddockDecision s = .next s) ∧
  (∀ (s : State) (h : Head) (cs : List Nat), s.cycle % 16 = 0 → s.resetStep = 5 → s.heads = [h] → h.cores = some cs → 0 < (s.vif h.v).credit h.p →
    ∃ t y, exec .paddockDecision s = .next t ∧ t.node h.n = some y ∧ y.st = .dispatched ∧ y.cores = cs ∧ t.mem = s.mem ∧
      (∀ c ∈ cs, (t.core c).node = some h.n) ∧
      ∃ d ∈ t.agenda, d.row = .gangFirstIssue ∧ s.cycle < d.cycle ∧ d.cycle ≤ s.cycle + 300 ∧ d.args = .nats [h.n]) ∧
  (∀ (s : State) (n : Nat) (x : Node), s.ev = .nats [n] → s.node n = some x → x.st = .dispatched → x.saved = [] → x.cores.Nodup →
    ∃ t y, exec .gangFirstIssue s = .next t ∧ t.node n = some y ∧ y.st = .running ∧ y.cores = x.cores ∧ t.mem = s.mem ∧
      ∀ i, i < x.cores.length → let k := t.core (x.cores.getD i 0)
        k.grank.toNat = i % 64 ∧ k.node = some n ∧ ∀ c, c < 4 →
          (k.cluster c).pc = w64 (fld x.record 0 64 + 4 * fld x.record (64 + 16 * c) 16) ∧ (k.cluster c).super = false ∧
          (k.cluster c).act = .running ∧ (∀ r, (k.cluster c).readX r = if r = 1 then w64 (fld x.record 128 64) else 0) ∧
          ∀ r, (k.cluster c).readP r = 0xFFFF) ∧
  (∀ (s : State) (n : Nat) (x : Node), s.ev = .nats [n] → s.node n = some x → x.st = .dispatched → x.saved ≠ [] →
    (x.saved.map fun e => e.1).Nodup → x.savedMem = [] → x.savedRanges = [] → s.memOk →
    ∃ t y, exec .gangFirstIssue s = .next t ∧ t.node n = some y ∧ y.st = .running ∧ t.mem = s.mem ∧
      ∀ e ∈ x.saved, (t.core e.1).cl = e.2.cl ∧ (t.core e.1).tiles = e.2.tiles ∧ (t.core e.1).k = e.2.k ∧ (t.core e.1).acc = e.2.acc ∧
        (t.core e.1).loadQ = e.2.loadQ ∧ (t.core e.1).node = some n) ∧
  (∀ (s : State) (n : Nat) (x : Node), s.ev = .nats [n] → s.node n = some x → s.drained n = true →
    ∃ t y, exec .preemptDrainEnd s = .next t ∧ t.node n = some y ∧ y.stop = .saving (decide (x.stop ≠ .drain)) ∧ t.mem = s.mem ∧
      t.cores = s.cores ∧ ∃ d ∈ t.agenda, d.row = .contextSaveComplete ∧ s.cycle < d.cycle ∧ d.args = .nats [n]) ∧
  (∀ (s : State) (n : Nat) (x : Node), s.ev = .nats [n] → s.node n = some x → x.stop = .saving true → x.faultVa = none →
    ∃ t y, exec .contextSaveComplete s = .next t ∧ t.node n = some y ∧ y.st = .suspended ∧ y.stop = .none ∧
      y.saved = x.cores.map (fun c => (c, (s.core c).fullState s.cycle)) ∧ (∀ c ∈ x.cores, (t.core c).node = none) ∧
      s.sameBytesBut t ((s.saveArea x).map fun e => s.media e.2)) ∧
  (∀ (s : State) (n : Nat) (x : Node), s.ev = .nats [n] → s.node n = some x → s.gangDone x = true →
    let v := (s.commitGang (s.gangOf (x.cores.headD 0))).stopGang n x
    ∃ t, exec .gangComplete s = .next t ∧ (∀ y, t.node n = some y → y.st = .complete) ∧ (∀ c ∈ x.cores, (t.core c).node = none) ∧
      ∀ g c, v.graph x.graph = some g → nrDone x.record ≠ 0 → v.graphCounter g (nrDone x.record) = .ok c →
        ∃ a ∈ t.adds, a.ctr = c ∧ a.amount = 1) ∧
  (∀ (s : State) (n : Nat), s.ev = .nats [n] → s.clears.contains n = true → ∃ t, exec .scratchpadClear s = .next t ∧
    t.clears.contains n = false ∧ SMap.get 0 t.owners n = 0 ∧ ∀ a, SMap.get memDefault t.mem a =
      if scratchBase + n * scratchSize ≤ a ∧ a < scratchBase + n * scratchSize + scratchSize then 0 else SMap.get memDefault s.mem a)

/-- Halts, hangs and the debugger (R47, R51, R52, R67, R68, R73, R366): hard pre-emption asks every live cluster of the gang to halt;
at its quiet point a cluster halts, or takes WATCHDOG where that was asked, and TRAPSTAT says whether it was
forced; one that is halted in QSYNC has not executed it; the watchdog asks the waiting clusters, and a core
whose engines make no progress raises ENGHANG; a debugger halts a core, writes its registers and lets it go on. -/
def Obligations.HaltsAndHangs : Prop :=
  (∀ (s : State) (n : Nat) (x : Node), s.ev = .nats [n, x.reqAt.getD 0] → s.node n = some x → x.st = .preempting → x.reqAt ≠ none →
    (x.stop = .none ∨ x.stop = .drain) → ∃ t y, exec .hardPreemption s = .next t ∧ t.node n = some y ∧ y.stop = .hard ∧ t.mem = s.mem ∧
      ∀ c ∈ x.cores, ∀ cl, cl < 4 → (s.cluster c cl).live = true → (s.cluster c cl).event = none →
        (t.cluster c cl).event = some (0, s.cycle)) ∧
  (∀ p ∈ [(Instr.asyncEventTaken, false), (.forcedQuietPoint, true)], ∀ (s : State) (n c k e : Nat), s.ev = .nats [n, c] →
    let x := s.cluster n c
    x.event = some (k, e) → x.live = true → s.quiet n c k = true → (p.2 = true → e + 65536 ≤ s.cycle) →
    (k ≠ 2 → x.act = .running → ∃ t, exec p.1 s = .next t ∧
      t.cluster n c = { x with act := .halted false, event := none, trapStat := if p.2 then x.trapStat ||| 8 else x.trapStat } ∧
      (∀ m d, (m, d) ≠ (n, c) → t.cluster m d = s.cluster m d) ∧ t.mem = s.mem) ∧
    (k ≠ 2 → ∀ h, x.act = .waiting h → h.kind = .qsync → ∃ t w, exec p.1 s = .next t ∧ (t.cluster n c).act = .halted w ∧
      (t.cluster n c).arrived = false ∧ (t.cluster n c).event = none ∧ t.mem = s.mem) ∧
    (k = 2 → x.nested = false → ∃ t, exec p.1 s = .next t ∧ (t.cluster n c).pc = x.tvec ∧
      (t.cluster n c).trapPc = x.pc ∧ (t.cluster n c).trapCause = 0x19 ∧ (t.cluster n c).super = true ∧
      (t.cluster n c).event = none ∧ (t.cluster n c).trapStat.getLsbD 3 = p.2 ∧ t.mem = s.mem)) ∧
  (∀ (s : State) (n : Nat) (x : Node), s.ev = .nats [n] → s.node n = some x → s.watchdogDue n = true → ∃ t, exec .watchdog s = .next t ∧
    t.mem = s.mem ∧ ∀ c ∈ x.cores, ∀ cl, cl < 4 → (s.cluster c cl).watched = true → (t.cluster c cl).event = some (2, s.cycle)) ∧
  (∀ (s : State) (n : Nat), s.ev = .nats [n] → s.hangs n = true → ∃ t, exec .enghang s = .next t ∧ t.cores = s.cores ∧ t.mem = s.mem ∧
    ∃ r : FaultRec, t.faults = s.faults ++ [r] ∧ r.cause = 0x13 ∧ r.core = n ∧ r.kind = .engine) ∧
  (∀ (s : State) (n : Nat), s.ev = .nats [n] → s.dbgen = true → ∃ t, exec .debugHaltRequest s = .next t ∧ (t.core n).halted = true ∧
    t.mem = s.mem ∧ ∀ cl, cl < 4 → (s.cluster n cl).live = true → (s.cluster n cl).event = none →
      (t.cluster n cl).event = some (1, s.cycle)) ∧
  (∀ s : State, s.dbgen = false → exec .debugHaltRequest s = .next s) ∧
  (∀ (s : State) (n c r v : Nat), s.ev = .debug n (.x c r) v → (s.core n).debugged = true → ∃ t, exec .debugStateWrite s = .next t ∧
    (∀ q, (t.cluster n c).readX q = if q = 0 then 0 else if q = r then w64 v else (s.cluster n c).readX q) ∧ t.mem = s.mem) ∧
  (∀ (s : State) (n : Nat) (d : DebugTarget) (v : Nat), s.ev = .debug n d v → (s.core n).debugged = false →
    exec .debugStateWrite s = .next s) ∧
  (∀ (s : State) (n c : Nat), s.ev = .nats [n] → s.coreStop n = .none → c < 4 → (s.cluster n c).act = .halted false → ∃ t,
    exec .debugResume s = .next t ∧ (t.core n).halted = false ∧ (t.cluster n c).act = .running ∧ (t.cluster n c).pc = (s.cluster n c).pc ∧
      t.mem = s.mem)

/-! ### Fabric -/

/-- Packets (R23, R337, R338): one in the mesh comes one router nearer its goal, by the escape channel where no minimal port has a free
slot; one that has reached its die's switch is ejected there if it is its die, or leaves by a productive port, one cycle older and out of
the escape channel; one of the mesh enters the switch while its channel has a slot; one that was crossing reaches the next die of the
package, or leaves the package; one arrives by a link that is not down. The ways between dies are log entry 5's choice. -/
def Sys2Proof.Claim.Packets : Prop :=
  (∀ (s : State) (p : Packet), s.ev = .nats [p.id] → s.packets = [p] → p.place ≠ p.goal → ∃ t q, exec .meshRoute s = .next t ∧
    t.packets = [q] ∧ Claim.meshDist q.place q.goal + 1 = Claim.meshDist p.place p.goal ∧ q.goal = p.goal ∧ q.req = p.req ∧
    (p.escape = true → q.escape = true) ∧ t.mem = s.mem ∧
    ((∀ d ∈ minimalPorts p.place p.goal, SMap.get 0 s.meshFree (64 * p.place + 8 * d + p.vc) = 0) → q.escape = true)) ∧
  (∀ (s : State) (p : Packet), s.ev = .none → s.packets = [p] → p.req.dst = s.pkg → p.req.dstDie < 6 →
    ((p.atSwitch = true ∧ p.port = none ∧ p.die = p.req.dstDie) ∨ p.port = some (8 + p.req.dstDie)) → ∃ t, exec .switchCycle s = .next t ∧
    t.packets = [] ∧ t.mem = s.mem ∧ ∃ d ∈ t.agenda, d.row = .peerIngress ∧ d.cycle = s.cycle ∧ d.args = .peer p.req) ∧
  (∀ (s : State) (p : Packet) (d : Nat), s.ev = .none → s.packets = [p] → p.atSwitch = true → p.port = none → p.die < 6 →
    p.req.dst ≠ s.pkg → d < 6 → d ∉ s.linksDown → s.productive p.req.dst d = true → ∃ t q e, exec .switchCycle s = .next t ∧
      t.packets = [q] ∧ q.atSwitch = false ∧ q.port = some e ∧ (e = p.die ∨ (8 ≤ e ∧ e < 14)) ∧ e % 8 ∉ s.linksDown ∧
      s.productive p.req.dst (e % 8) = true ∧ q.age = Min.min 4095 (p.age + 1) ∧ q.escape = false ∧ q.req = p.req ∧ t.mem = s.mem) ∧
  (∀ (s : State) (p : Packet), s.ev = .none → s.packets = [p] → p.atSwitch = false → p.port = none → p.die < 6 → p.place = p.goal →
    p.vc < 8 → 0 < SMap.get 0 s.meshFree (64 * p.place + 32 + p.vc) → ∃ t q e, exec .switchCycle s = .next t ∧ t.packets = [q] ∧
      q.port = some e ∧ e ∈ s.diePorts p.die ∧ q.req = p.req ∧ q.age = Min.min 4095 (p.age + 1) ∧ q.escape = false ∧ t.mem = s.mem) ∧
  (∀ (s : State) (p : Packet) (e : Nat), s.ev = .none → s.packets = [p] → p.port = some e → e < 6 → s.extent (e / 2) ≠ 1 →
    ∃ t, exec .switchCycle s = .next t ∧ t.packets = [] ∧ t.agenda = s.agenda ∧ t.mem = s.mem) ∧
  (∀ (s : State) (p : Packet), s.ev = .packet p → p.die < 6 →
    (s.linksDown.contains p.die = true → exec .switchCycle s = .next s) ∧
    (s.linksDown.contains p.die = false → ∃ t, exec .switchCycle s = .next t ∧ t.mem = s.mem ∧
      t.packets = s.packets ++ [{ p with id := s.nextId, owner := .none, atSwitch := true, port := none }]))

/-- Accesses that arrive (R244, R256, R258, R262): one is performed through its window, and answered, once those that it must follow have
been; with the window disabled it fails as PROT and changes nothing; an answer gives the access that awaits it what was read, or its
failure. -/
def Sys2Proof.Claim.PeerAccesses : Prop :=
  (∀ (s : State) (r : PeerReq), s.ev = .peer r → s.ingressWaits r = true → ∃ t, exec .peerIngress s = .next t ∧ t.mem = s.mem ∧
    t.packets = s.packets ∧ ∃ d ∈ t.agenda, d.row = .peerIngress ∧ d.cycle = s.cycle + 1 ∧ d.args = .peer r) ∧
  (∀ (s : State) (r : PeerReq), s.ev = .peer r → s.ingressWaits r = false →
    let answers (t : State) (n v : Nat) : Prop := r.src ≠ s.pkg → s.inTorus r.src = true →
      ∃ p ∈ t.packets, p.req.dst = r.src ∧ p.req.op = .answer r.id 0 n v
    (∀ n d a, r.op = .store n d → s.ingress r.aperture true = some a → (s.mediaRange a n).Nodup → ∃ t, exec .peerIngress s = .next t ∧
      t.bytes a n = leBytes n d ∧ s.sameBytesBut t (s.mediaRange a n) ∧ answers t 0 0) ∧
    (∀ n a, r.op = .load n → s.ingress r.aperture false = some a → ∃ t, exec .peerIngress s = .next t ∧ t.mem = s.mem ∧
      answers t n (s.readN a n)) ∧
    (∀ v a, r.op = .ctrAdd v → s.ingress r.aperture true = some a → ∃ t, exec .peerIngress s = .next t ∧ t.mem = s.mem ∧
      ∃ x ∈ t.adds, x.ctr = .page a 0 ∧ x.amount = v) ∧
    (∀ ch, ((∃ n, r.op = .load n) ∧ ch = false ∨ (∃ n d, r.op = .store n d) ∧ ch = true) → s.ingress r.aperture ch = none →
      exec .peerIngress s = .next (({ s with hitSeen := [] } : State).respond r cPROT 0 0))) ∧
  (∀ (s : State) (r : PeerReq) (x : Due) (pkg n c since m sent id ad fail k v : Nat) (h : Hold), s.ev = .peer r →
    r.op = .answer id fail k v → s.agenda = [x] → x.row = .peerTimeout → x.args = .nats [0, pkg, n, c, since, m, sent, id, ad] →
    (s.cluster n c).act = .waiting h → h.since = since → h.kind = .blocking →
    (fail ≠ 0 → ∃ u : State, exec .peerIngress s = .next (u.trapHeld h fail h.ea) ∧ u.curCore = n ∧ u.curCl = c ∧ u.cores = s.cores ∧
      u.mem = s.mem ∧ u.agenda = []) ∧
    (fail = 0 → k ≠ 0 → v < 2 ^ (8 * k) → (s.mediaRange ad k).Nodup → ∃ t, exec .peerIngress s = .next t ∧ t.readN ad k = v ∧
      s.sameBytesBut t (s.mediaRange ad k) ∧ t.cores = s.cores ∧ t.agenda = []))

/-- Lost peers and links (R339, R341, R342, R367): an access without an answer after 2^19 cycles, or without a route, ends its wait with
MIRRFAIL, poisons its entry or leaves its report, and is logged; a mirrored one goes on with the copy that is left; a link that goes down
is no port any more, what was crossing it is lost, and with the last route every access that awaits an answer has lost its peer. -/
def Sys2Proof.Claim.LostPeers : Prop :=
  (∀ (s : State) (pkg n c x m sent id ad : Nat) (h : Hold), s.ev = .nats [0, pkg, n, c, x, m, sent, id, ad] →
    (s.cluster n c).act = .waiting h → h.since = x → h.kind = .blocking →
    let past : Prop := sent + 2 ^ 19 ≤ s.cycle ∨ s.routed = false
    let lost : Prop := ∃ t : State, exec .peerTimeout s = .next (t.trapHeld h 0x14 h.ea) ∧ t.curCore = n ∧ t.curCl = c ∧
      t.cores = s.cores ∧ t.mem = s.mem ∧ t.flogCnt = (s.flogCnt + 1) % 2 ^ 32
    (¬past → exec .peerTimeout s = .next (s.schedule (sent + 2 ^ 19) .peerTimeout s.ev)) ∧ (past → m = 0 → lost) ∧
    ∀ y : MirrorPair, SMap.get [] s.mirrors (s.core n).vifn.toNat = [y] → y.primary = pkg → y.secondary ≠ pkg → past → m = 1 →
      (y.lostS = true → lost) ∧
      (y.lostS = false → ∃ t, exec .peerTimeout s = .next t ∧ SMap.get [] t.mirrors (s.core n).vifn.toNat = [{ y with lostP := true }] ∧
        t.cores = s.cores ∧ t.mem = s.mem ∧ t.flogCnt = (s.flogCnt + 1) % 2 ^ 32 ∧ ∃ d ∈ t.agenda, d.row = .blockingCompletion ∧
          s.cycle < d.cycle ∧ d.args = .nats [n, c, x])) ∧
  (∀ (s : State) (pkg n q e sent id ad : Nat), s.ev = .nats [1, pkg, n, q, e, 0, sent, id, ad] → sent + 2 ^ 19 ≤ s.cycle →
    ((s.core n).qEntry q e).st = .reserved → ∃ t, exec .peerTimeout s = .next t ∧ ((t.core n).qEntry q e).st = .poisoned ∧ t.mem = s.mem) ∧
  (∀ (s : State) (pkg n c i sent id ad : Nat) (p : Posted), s.ev = .nats [2, pkg, n, c, i, 0, sent, id, ad] → sent + 2 ^ 19 ≤ s.cycle →
    (s.cluster n c).posted.find? (fun p => decide (p.id = i)) = some p → (s.cluster n c).mirrRep = none →
    ∃ t, exec .peerTimeout s = .next t ∧ (t.cluster n c).mirrRep = some (0x14, p.ea) ∧ t.mem = s.mem) ∧
  (∀ (s : State) (d : Nat), s.ev = .nats [d] → d < 6 → s.linksDown.contains d = false → ∃ t, exec .linkDown s = .next t ∧
    t.linksDown = s.linksDown ++ [d] ∧ t.flogCnt = (s.flogCnt + 1) % 2 ^ 32 ∧ t.mem = s.mem ∧ t.cores = s.cores ∧
    t.packets = s.packets.filter (fun p => decide (p.port ≠ some d)) ∧
    (t.routed = false → ∀ x ∈ t.agenda, x.row = .peerTimeout → x.cycle = s.cycle))

/-- The fabric (R23, R244, R335-R339, R341, R342, R367). -/
def Obligations.Fabric : Prop := Claim.Packets ∧ Claim.PeerAccesses ∧ Claim.LostPeers

/-! ### The host -/

/-- The rings of an interface (R3, R348, R349, R351, Tables 25-1 and 25-3): a good configuration enables them from their first entries, a
bad one gives error reason 2; the entry at the head starts its command unless the interface is under reset; a stale stamp is read again
after 1,200 cycles and gives reason 1 after 12,000,000; a completion is written to its entry and the ring goes on; a ring that lies
outside host memory is in error with reason 3 (log entry 48); clearing bit 63 disables the rings and clears the error, and reserved bits
of QCFG read as zero. -/
def Obligations.HostRings : Prop :=
  (∀ (s : State) (v q : Nat), s.ev = .nats [v, q] → (s.ring v).enabled = false → (s.ring v).entry = none →
    ((s.ring v).badConfig q = true → ∃ t, exec .qcfgEnable s = .next t ∧ (t.ring v).error = true ∧ (t.ring v).reason = 2 ∧
      (t.ring v).enabled = false ∧ t.mem = s.mem) ∧
    ((s.ring v).badConfig q = false → (s.ring v).held = [] → ∃ t, exec .qcfgEnable s = .next t ∧ t.ring v = { Ring.reset with
      sqBase := (s.ring v).sqBase, cqBase := (s.ring v).cqBase, eqBase := (s.ring v).eqBase, qcfg := w64 (q % 2 ^ 63 + 2 ^ 63) } ∧
      t.mem = s.mem)) ∧
  (∀ (s : State) (v q : Nat), s.ev = .nats [v, q] → ∃ t, exec .qcfgDisable s = .next t ∧ (t.ring v).enabled = false ∧
    (t.ring v).error = false ∧ (t.ring v).reason = 0 ∧ t.mem = s.mem ∧
    ((s.ring v).enabled = true → (t.ring v).qcfg = (s.ring v).qcfg &&& 0x7FFFFFFFFFFFFFFF) ∧
    ((s.ring v).enabled = false → (t.ring v).qcfg = w64 q &&& 0x3000F000F)) ∧
  (∀ (s : State) (v x e : Nat) (row : Instr), s.ev = .nats [v, x] → let r := s.ring v
    r.enabled = true → r.error = false → r.entry = none → r.reading = none → r.stamps = false → s.underReset v = false →
    r.handled % r.size ≠ x % 4096 % r.size → memKind (hostAddr (r.sqBase.toNat + 64 * (r.handled % r.size))) = some .host →
    e = s.readN (hostAddr (r.sqBase.toNat + 64 * (r.handled % r.size))) 64 → commandRow (fld e 0 8) (fld e 128 64) = some row →
    fld e 9 23 = 0 → fld e 448 48 = 0 → ∃ (t : State) (c : HostCmd), exec .sqNotify s = .next t ∧ (t.ring v).entry = some r.handled ∧
      (t.ring v).tail = x % 4096 ∧ t.mem = s.mem ∧ c.vi = v ∧ c.tag.toNat = fld e 32 32 ∧ c.op0.toNat = fld e 64 64 ∧
      c.op1.toNat = fld e 128 64 ∧ c.op2.toNat = fld e 192 64 ∧ c.op3.toNat = fld e 256 64 ∧ c.op4.toNat = fld e 320 64 ∧
      c.op5.toNat = fld e 384 64 ∧ ∃ d ∈ t.agenda, d.row = row ∧ s.cycle < d.cycle ∧ d.args = .host c) ∧
  (∀ (s : State) (v t0 : Nat), let r := s.ring v
    s.ev = .nats [v, r.handled] → r.enabled = true → r.error = false → r.entry = none → r.reading = some t0 → r.stamps = true →
    s.underReset v = false →
    r.handled % r.size ≠ r.tail % r.size → memKind (hostAddr (r.sqBase.toNat + 64 * (r.handled % r.size))) = some .host →
    fld (s.readN (hostAddr (r.sqBase.toNat + 64 * (r.handled % r.size))) 64) 496 16 ≠ r.handled % 65535 + 1 → s.cycle < t0 + 12000000 →
    ∃ t, exec .stampRetry s = .next t ∧ (t.ring v).reading = some t0 ∧ t.mem = s.mem ∧
      ∃ d ∈ t.agenda, d.row = .stampRetry ∧ d.cycle = s.cycle + 1200 ∧ d.args = .nats [v, r.handled]) ∧
  (∀ (s : State) (v t0 : Nat), s.ev = .nats [v, (s.ring v).handled] → (s.ring v).reading = some t0 → t0 + 12000000 ≤ s.cycle →
    ∃ t, exec .stampTimeout s = .next t ∧ (t.ring v).error = true ∧ (t.ring v).reason = 1 ∧ t.mem = s.mem) ∧
  (∀ (s : State) (v x : Nat), s.ev = .nats [v, x] → (s.ring v).held = [] → ∃ t, exec .eqheadWrite s = .next t ∧
    (t.ring v).eqHead = x % 4096 ∧ t.mem = s.mem) ∧
  (∀ (s : State) (c : HostCmd) (status detail index value n : Nat), let r := s.ring c.vi
    let a := hostAddr (r.cqBase.toNat + 16 * (r.completions % r.size))
    r.entry = some n → memKind a = some .host → (s.mediaRange a 16).Nodup → status < 256 →
    let t := s.finishCmd c status detail index value
    t.readN a 16 = c.tag.toNat + status * 2 ^ 32 + detail % 2 ^ 8 * 2 ^ 40 + index % 2 ^ 16 * 2 ^ 48 + value % 2 ^ 48 * 2 ^ 64 +
      (n % 65535 + 1) * 2 ^ 112 ∧ (t.ring c.vi).entry = none ∧ (t.ring c.vi).handled = n + 1 ∧
    (t.ring c.vi).completions = r.completions + 1 ∧ t.cores = s.cores) ∧
  (∀ (s : State) (c : HostCmd) (status detail index value n : Nat), let r := s.ring c.vi
    r.entry = some n → memKind (hostAddr (r.cqBase.toNat + 16 * (r.completions % r.size))) ≠ some .host →
    let t := s.finishCmd c status detail index value
    (t.ring c.vi).error = true ∧ (t.ring c.vi).reason = 3 ∧ (t.ring c.vi).entry = none ∧ t.mem = s.mem)

/-- Contexts (R302, R372, Table 25-4): what CTXCREATE, CTXDESTROY, ITINREG and CREAD do and the status and value they complete with. A
counter behind a disabled window of the own package gives status 7 (log entry 17). -/
def Sys2Proof.Claim.Contexts : Prop :=
  (∀ (s : State) (c : HostCmd), s.ev = .host c → c.op0 = 0 → c.op1.toNat % 4096 = 0 → 0 < c.op2.toNat → c.op2.toNat ≤ 2 ^ 20 →
    (memKind c.op1.toNat = some .hbm ∨ memKind c.op1.toNat = some .lpddr) →
    (s.ownRange c.vi c.op1.toNat (4096 * c.op2.toNat) = false → exec .ctxcreate s = .next (s.finishCmd c 3 0 0 0)) ∧
    (s.ownRange c.vi c.op1.toNat (4096 * c.op2.toNat) = true → (∀ e ∈ s.ctxs, e.1 / 65536 ≠ c.vi) →
      (∀ e ∈ s.ctxs, ∀ x, e.2 = some x → x.asid ≠ 1) → ∃ u : State, exec .ctxcreate s = .next (u.finishCmd c 0 0 0 65536) ∧
        u.ctx c.vi 0 = some { asid := 1, pool := c.op1.toNat, size := c.op2.toNat, used := [0], itin := [] } ∧
        u.root 1 = some c.op1.toNat ∧ ∀ i, i < 4096 → u.byte (c.op1.toNat + i) = 0)) ∧
  (∀ (s : State) (c : HostCmd), s.ev = .host c → (c.op0 ≠ 0 ∨ c.op1.toNat % 4096 ≠ 0 ∨ c.op2 = 0 ∨ 2 ^ 20 < c.op2.toNat) →
    exec .ctxcreate s = .next (s.finishCmd c 1 0 0 0)) ∧
  (∀ (s : State) (c : HostCmd) (x : Ctx), s.ev = .host c → c.op0.toNat < 2 ^ 16 → c.op1.toNat < 2 → s.ctx c.vi c.op0.toNat = some x →
    (∀ r, s.root x.asid = some r → c.op1 = 0 → s.nodesOf c.vi (fun m => decide (m = c.op0.toNat)) ≠ [] →
      exec .ctxdestroy s = .next (s.finishCmd c 5 0 0 0)) ∧
    (∀ r, s.root x.asid = some r → s.nodesOf c.vi (fun m => decide (m = c.op0.toNat)) = [] → ∃ t, exec .ctxdestroy s = .next t ∧
      t.root x.asid = none ∧ t.mem = s.mem ∧ ∃ d ∈ t.agenda, d.row = .ctxdestroy ∧ d.cycle = s.cycle + 1 ∧ d.args = .host c) ∧
    (s.root x.asid = none → s.cmdTickets c.vi = [] → ∃ u : State, exec .ctxdestroy s = .next (u.finishCmd c 0 0 0 0) ∧
      u.ctx c.vi c.op0.toNat = none)) ∧
  (∀ (s : State) (c : HostCmd) (n : Nat) (x : Ctx) (root : Nat), s.ev = .host c → c.op0.toNat < 2 ^ 16 →
    s.cmdCtx c = some (n, x, root) → c.op1.toNat % 65536 = 0 → c.op2.toNat % 65536 = 0 → c.op2 ≠ 0 →
    (c.op3 = 0 → s.ownRange c.vi c.op1.toNat c.op2.toNat = true → x.itin.length < 16 → ∃ u : State,
      exec .itinreg s = .next (u.finishCmd c 0 0 0 (x.itin.length + 1)) ∧
      u.ctx c.vi n = some { x with itin := x.itin ++ [(c.op1.toNat, c.op2.toNat)] } ∧ u.mem = s.mem) ∧
    (c.op3 = 0 → s.ownRange c.vi c.op1.toNat c.op2.toNat = false → exec .itinreg s = .next (s.finishCmd c 3 0 0 0)) ∧
    (c.op3 = 1 → x.itin.contains (c.op1.toNat, c.op2.toNat) = false → exec .itinreg s = .next (s.finishCmd c 1 0 0 0)) ∧
    (c.op3 = 1 → x.itin.contains (c.op1.toNat, c.op2.toNat) = true → ∃ u : State,
      exec .itinreg s = .next (u.finishCmd c 0 0 0 (x.itin.length - 1)) ∧
      u.ctx c.vi n = some { x with itin := x.itin.erase (c.op1.toNat, c.op2.toNat) } ∧ u.mem = s.mem)) ∧
  (∀ (s : State) (c : HostCmd) (n : Nat) (x : Ctx) (root : Nat) (e : TlbEntry), s.ev = .host c → c.op0.toNat < 2 ^ 16 →
    s.cmdCtx c = some (n, x, root) → s.check unitFirmware x.asid true .load c.op1.toNat = .ok e → pteC e.ent = true →
    c.op1.toNat % 8 = 0 →
    (∀ pa, s.target (e.pa c.op1.toNat) false = some pa →
      exec .creadCommand s = .next (s.finishCmd c 0 0 0 (s.readN pa 8 % 2 ^ 48))) ∧
    (s.target (e.pa c.op1.toNat) false = none → exec .creadCommand s = .next (s.finishCmd c 7 0 0 0)))

/-- MAP and UNMAP (R201, R245-R249, R267, R291, R373, Table 25-4). An invalid operand is status 1, before a context that is not held, status
3 (a range past the end of the address space is such an operand, log entry 62). MAP of a page whose table exists, where none was mapped,
completes with value 1; then every address of the page translates to its device-physical address with the attributes of op4, at the walk
and for every unit that caches nothing for it, no other byte of memory has changed, and with C = 1 the frames it maps have PIN set; while
one of these moves it waits (log entry 78). One that replaces a page waits for its invalidations. UNMAP of a page that is mapped removes
it: no address of the page translates any more; it invalidates the range, and completes with the number of pages once every unit has
acknowledged. -/
def Sys2Proof.Claim.Mappings : Prop :=
  (∀ p ∈ [Instr.map, .unmap], ∀ (s : State) (c : HostCmd), s.ev = .host c →
    (2 ^ 16 ≤ c.op0.toNat ∨ c.op1.toNat % 4096 ≠ 0 ∨ (p = .map ∧ (c.op2.toNat % 4096 ≠ 0 ∨ c.op3.toNat % 4096 ≠ 0 ∨
        2 ^ 48 < c.op1.toNat + c.op3.toNat ∨ 12 ≤ c.op4.toNat / 2 ^ 16 % 16)) ∨
      (p = .unmap ∧ (c.op2.toNat % 4096 ≠ 0 ∨ 2 ^ 48 < c.op1.toNat + c.op2.toNat)) → exec p s = .next (s.finishCmd c 1 0 0 0))) ∧
  (∀ (s : State) (c : HostCmd), s.ev = .host c → s.cmdCtx c = none →
    (mapBad c = false → exec .map s = .next (s.finishCmd c 3 0 0 0)) ∧
    (unmapBad c = false → exec .unmap s = .next (s.finishCmd c 3 0 0 0))) ∧
  (∀ (s : State) (c : HostCmd) (n l k node : Nat) (x : Ctx) (root : Nat), s.ev = .host c → s.cmdCtx c = some (n, x, root) →
    s.cmdTickets c.vi = [] → mapBad c = false → mapSize c = some (l, k) → let va := c.op1.toNat
    let pa := c.op2.toNat
    let len := 4096 * 512 ^ l * 4 ^ k
    c.op3.toNat = len → s.mapWaits c = false → s.mayMap c.vi pa len = true → s.tablesOk va (va + len) 3 root 0 = true →
    s.pagesIn root va (va + len) = [] → (va + len ≤ 0xFFFFF0000000 ∨ 0xFFFFF0100000 ≤ va) → Claim.hasTable s root va node l k →
    ∃ u : State, exec .map s = .next (u.finishCmd c 0 0 0 1) ∧ s.sameBytesBut u (Claim.replicas s va node l k) ∧ u.tlbs = s.tlbs ∧
      (∀ a, va ≤ a → a < va + len → ∃ t, u.walk x.asid a 3 root = some t ∧ t.pa a = pa + (a - va) ∧ t.vbase = va ∧ t.size = len ∧
        t.ent % 2 ^ 64 = 3 + 4 * k + c.op4.toNat / 2 ^ 5 % 2 ^ 10 * 2 ^ 5 + pa / 4096 * 2 ^ 24 ∧
        ∀ unit, (∀ y ∈ SMap.get [] s.tlbs unit, y.covers x.asid a = false) → u.lookup unit x.asid a = some t) ∧
      (c.op4.toNat.testBit 12 = true → ∀ i, i < len → viaDit (pa + i) = true → (u.ditEntry ((pa + i) / 65536)).pin = true)) ∧
  (∀ (s : State) (c : HostCmd) (n : Nat) (x : Ctx) (root : Nat), s.ev = .host c → s.cmdCtx c = some (n, x, root) →
    s.cmdTickets c.vi = [] → mapBad c = false → s.mapWaits c = true →
    exec .map s = .next (s.schedule (s.cycle + 1) .map (.host c))) ∧
  (∀ (s u : State) (c : HostCmd) (n : Nat) (x : Ctx) (root : Nat), s.ev = .host c → s.cmdCtx c = some (n, x, root) →
    s.cmdTickets c.vi = [] → s.nodes = [] → mapBad c = false → s.mapWaits c = false →
    (∀ e, s.doMap c n x root = .error e → exec .map s = .next (s.finishCmd c e 0 0 0)) ∧
    (s.doMap c n x root = .ok (u, true) → ∃ t, exec .map s = .next t ∧ t.mem = u.mem ∧
      (∃ k : Ticket, t.tickets = u.tickets ++ [k] ∧ k.asid = some x.asid ∧ k.lo = c.op1.toNat ∧ k.len = c.op3.toNat ∧ k.scope = 4) ∧
      ∃ d ∈ t.agenda, d.row = .map ∧ d.cycle = u.cycle + 1 ∧ d.args = .host c)) ∧
  (∀ (s : State) (c : HostCmd) (n l k node : Nat) (x : Ctx) (root : Nat) (e : TlbEntry), s.ev = .host c →
    s.cmdCtx c = some (n, x, root) → s.cmdTickets c.vi = [] → unmapBad c = false → let va := c.op1.toNat
    let len := c.op2.toNat
    s.tablesOk va (va + len) 3 root 0 = true → s.pagesIn root va (va + len) = [e] → e.vbase = va → e.size = len → pteK e.ent = k →
    len = 4096 * 512 ^ l * 4 ^ k → Claim.hasTable s root va node l k → ∃ t, exec .unmap s = .next t ∧
      (∀ a, va ≤ a → a < va + len → t.walk x.asid a 3 root = none) ∧ s.sameBytesBut t (Claim.replicas s va node l k) ∧
      (t.ring c.vi).result = 1 ∧ (∃ j : Ticket, t.tickets = s.tickets ++ [j] ∧ j.asid = some x.asid ∧ j.lo = va ∧ j.len = len ∧
        j.scope = 4) ∧ ∃ d ∈ t.agenda, d.row = .unmap ∧ d.cycle = s.cycle + 1 ∧ d.args = .host c) ∧
  (∀ (s : State) (c : HostCmd) (n : Nat) (x : Ctx) (root : Nat), s.ev = .host c → s.cmdCtx c = some (n, x, root) →
    s.cmdTickets c.vi = [] → unmapBad c = false → s.tablesOk c.op1.toNat (c.op1.toNat + c.op2.toNat) 3 root 0 = true →
    s.pagesIn root c.op1.toNat (c.op1.toNat + c.op2.toNat) = [] → ∃ t, exec .unmap s = .next t ∧ t.mem = s.mem ∧
      (t.ring c.vi).result = 0 ∧ ∃ k : Ticket, t.tickets = s.tickets ++ [k] ∧ k.asid = some x.asid ∧ k.lo = c.op1.toNat ∧
        k.len = c.op2.toNat ∧ k.scope = 4) ∧
  (∀ p ∈ [Instr.map, .unmap], ∀ (s : State) (c : HostCmd) (n l k : Nat) (x : Ctx) (root : Nat), s.ev = .host c →
    s.cmdCtx c = some (n, x, root) → s.cmdTickets c.vi ≠ [] → s.ticketsDone (s.cmdTickets c.vi) = true →
    (p = .map → mapBad c = false ∧ mapSize c = some (l, k)) → (p = .unmap → unmapBad c = false) →
    ∃ u : State, exec p s = .next (u.finishCmd c 0 0 0 (if p = .map then c.op3.toNat / (4096 * 512 ^ l * 4 ^ k) else (s.ring c.vi).result)) ∧
      u.mem = s.mem ∧ u.cmdTickets c.vi = [])

/-- Commands on contexts and pages (R201, R245-R249, R267, R302, R372, R373, Table 25-4). -/
def Obligations.HostContexts : Prop := Claim.Contexts ∧ Claim.Mappings

/-- Work and resources of an interface (R153, R340, R341, R345, R356-R358, Table 25-4): a graph is refused with its code and index or
accepted with its handle; a request joins its gather queue; a batch takes the oldest requests; resources, groups and mirror
pairs are set, cores that pass from no other interface at once; a reset interface has no queue, no ring and no group. That op3 of CORRAL
is a virtual address of the context, and that a batch whose context is gone frees its buffer, is log entry 63's reading. -/
def Obligations.HostWork : Prop :=
  (∀ (s : State) (c : HostCmd) (n : Nat) (x : Ctx) (root : Nat), s.ev = .host c → c.op0.toNat < 2 ^ 16 →
    s.cmdCtx c = some (n, x, root) →
    (∀ e, s.checkGraph c.vi x.asid c.op1.toNat = .error e → exec .submit s = .next (s.finishCmd c 4 e.1 e.2 0)) ∧
    (∀ p, s.checkGraph c.vi x.asid c.op1.toNat = .ok p → let r := s.enterGraph c.vi n p none
      exec .submit s = .next ((r.1.finishCmd c 0 0 0 r.2.2).settleGraph r.2.1))) ∧
  (∀ (s : State) (c : HostCmd) (n : Nat) (x : Ctx) (root : Nat) (bs : List Byte), s.ev = .host c → c.op0.toNat < 2 ^ 16 →
    s.cmdCtx c = some (n, x, root) → c.op1.toNat < 16 → c.op3.toNat % 4096 = 0 → c.op2.toNat % 64 = 0 →
    0 < fld c.op4.toNat 0 16 → fld c.op4.toNat 0 16 ≤ 4096 → fld c.op4.toNat 20 12 = 0 → 0 < fld c.op4.toNat 32 32 →
    fld c.op4.toNat 32 32 ≤ 1000000 → SMap.get none (s.vif c.vi).corrals c.op1.toNat = none →
    s.fwRead x.asid c.op2.toNat 64 = some bs → nrBad (leNat bs) = false → ∃ (u : State) (q : Corral), exec .corral s = .next (u.finishCmd c 0 0 0 0) ∧
      SMap.get none (u.vif c.vi).corrals c.op1.toNat = some q ∧ q.ctx = n ∧ q.record = leNat bs ∧ q.base = c.op3.toNat ∧
      q.n = fld c.op4.toNat 0 16 ∧ q.deadline = fld c.op4.toNat 32 32 ∧ q.pending = [] ∧ u.mem = s.mem) ∧
  (∀ (s : State) (c : HostCmd) (n : Nat) (x : Ctx) (root : Nat) (y : Corral), s.ev = .host c → s.cmdCtx c = some (n, x, root) →
    SMap.get none (s.vif c.vi).corrals (fld c.op0.toNat 16 4) = some y → y.ctx = n → y.removing = false →
    (65536 ≤ y.pending.length → exec .enqueue s = .next (s.finishCmd c 2 0 0 0)) ∧
    (y.pending.length < 65536 → ∃ (u : State) (r : Request), exec .enqueue s = .next (u.finishCmd c 0 0 0 (y.pending.length + 1)) ∧
      SMap.get none (u.vif c.vi).corrals (fld c.op0.toNat 16 4) = some { y with pending := y.pending ++ [r] } ∧ r.placed = s.cycle ∧
      r.tag = c.tag.toNat ∧ r.ops = [c.op0, c.op1, c.op2, c.op3, c.op4, c.op5] ∧ u.mem = s.mem)) ∧
  (∀ (s : State) (v n b : Nat) (q : Corral), s.ev = .nats [v, n] → SMap.get none (s.vif v).corrals n = some q → q.freeBuf = some b →
    q.forms s.cycle = true → q.removing = false → s.ctx v q.ctx = none → ∃ (t : State) (y : Corral), exec .batchForm s = .next t ∧
      SMap.get none (t.vif v).corrals n = some y ∧ y.pending = q.pending.drop ((q.ripe s.cycle).take q.n).length ∧ y.seq = q.seq + 1 ∧
      y.busy = q.busy ∧ y.nextBuf = (b + 1) % q.buffers) ∧
  (∀ (s u : State) (v n b : Nat) (q : Corral) (x : Ctx) (p : Parsed), s.ev = .nats [v, n] →
    SMap.get none (s.vif v).corrals n = some q → q.freeBuf = some b → q.forms s.cycle = true → s.ctx v q.ctx = some x →
    let rs := (q.ripe s.cycle).take q.n
    let w := s.modVif v fun x => { x with corrals := SMap.set none x.corrals n (some { q with
      pending := q.pending.drop rs.length, seq := q.seq + 1, nextBuf := (b + 1) % q.buffers, busy := q.busy ++ [b] }) }
    w.fwWrite x.asid (q.base + b * q.stride) (batchBytes q n s.cycle rs) = some u →
    u.checkNodes v x.asid { recs := [batchRecord q.record (q.base + b * q.stride)], edges := [], doneCtr := 0 } (some []) = .ok p →
    let r := u.enterGraph v q.ctx p (some (n, b, q.seq, rs.length))
    exec .batchForm s = .next (r.1.settleGraph r.2.1)) ∧
  (∀ (s : State) (c : HostCmd), s.ev = .host c → c.vi ≠ 0 →
    (c.op0 ≠ 0 → exec .vireset s = .next (s.finishCmd c 1 0 0 0)) ∧
    (c.op0 = 0 → s.tickets = [] → s.nodes = [] → s.ctxs = [] → (s.resetVif c.vi).vifQuiet c.vi = true → ∃ t, exec .vireset s = .next t ∧ (t.ring c.vi).enabled = false ∧
      (t.ring c.vi).entry = none ∧ (t.vif c.vi).corrals = [] ∧ (t.vif c.vi).nextHandle = 1 ∧
      ∀ g, g < 4096 → SMap.get none t.groups (4096 * c.vi + g) = none)) ∧
  (∀ (s : State) (c : HostCmd), s.ev = .host c → c.vi ≠ 0 → exec .assign s = .next (s.finishCmd c 3 0 0 0)) ∧
  (∀ (s : State) (c : HostCmd), s.ev = .host c → c.vi = 0 → c.op0.toNat < 64 → s.cmdTickets 0 = [] →
    (c.op1 = 0 → let set := c.op2.toNat + 2 ^ 64 * c.op3.toNat + 2 ^ 128 * c.op4.toNat
      s.assignCores c.op0.toNat set = 0 → s.passing c.op0.toNat set = [] → ∃ u : State, exec .assign s = .next (u.finishCmd c 0 0 0 0) ∧
        (u.vif c.op0.toNat).cores = set ∧ (∀ n, n < 176 → set.testBit n = true → SMap.get 0 u.owners n = c.op0.toNat + 1) ∧
        u.mem = s.mem ∧ ∀ v, v ≠ c.op0.toNat → u.vif v = s.vif v) ∧
    (c.op1 = 1 → 1 ≤ c.op2.toNat → c.op2.toNat ≤ 255 → ∃ u : State, exec .assign s = .next (u.finishCmd c 0 0 0 0) ∧
      (u.vif c.op0.toNat).weight = c.op2.toNat ∧ (u.vif c.op0.toNat).cores = (s.vif c.op0.toNat).cores ∧ u.mem = s.mem ∧
      ∀ v, v ≠ c.op0.toNat → u.vif v = s.vif v) ∧
    (c.op1 = 6 → 20 ≤ c.op2.toNat → c.op2.toNat ≤ 30 → ∃ u : State, exec .assign s = .next (u.finishCmd c 0 0 0 0) ∧
      (u.vif c.op0.toNat).watchdog = c.op2.toNat ∧ ∀ v, v ≠ c.op0.toNat → u.vif v = s.vif v)) ∧
  (∀ (s : State) (c : HostCmd) (x : Ctx), s.ev = .host c → c.op0 = 0 → c.op1.toNat < 2 → c.op2.toNat < 4096 → c.op3.toNat < 4096 →
    c.op4.toNat % 8 = 0 → c.op5.toNat < 65536 → s.ctx c.vi c.op5.toNat = some x → memKind (hostAddr c.op4.toNat) = some .host →
    memKind (hostAddr (c.op4.toNat + 511)) = some .host → let m := s.readN (hostAddr c.op4.toNat) 512
    ∃ u : State, exec .fabcfgGroup s = .next (u.finishCmd c 0 0 0 0) ∧ u.mem = s.mem ∧ SMap.get none u.groups (4096 * c.vi + c.op2.toNat) =
      if m = 0 then none else some { root := c.op3.toNat, members := m, ctx := c.op5.toNat }) ∧
  (∀ (s : State) (c : HostCmd), s.ev = .host c → c.op0 = 0 → c.op1.toNat < 2 → c.op2.toNat < 4096 → c.op3.toNat < 4096 → c.op4 = 0 →
    c.op2 ≠ c.op3 → let l := SMap.get [] s.mirrors c.vi
    (∀ q ∈ l, q.primary ≠ c.op2.toNat) →
    (16 ≤ l.length → exec .fabcfgMirror s = .next (s.finishCmd c 2 0 0 0)) ∧
    (l.length < 16 → ∃ u : State, exec .fabcfgMirror s = .next (u.finishCmd c 0 0 0 0) ∧ u.mem = s.mem ∧
      SMap.get [] u.mirrors c.vi = l ++ [{ primary := c.op2.toNat, secondary := c.op3.toNat, lostP := false, lostS := false }]))

/-! ### Reset, heat and management -/

/-- Reset and management (R359-R366): power-on reset begins with CYCLE 0 and nothing under way, and its steps follow one another; step 3
clears the scratchpads; a configuration request is answered from step 4 on; heat moves a die's level by one, and at 110 °C power is
removed; registers take their values, and the base addresses only while the rings are disabled. That every byte outside the scratchpads
keeps its value is log entry 61's reading, and how the firmware sets the torus and the windows log entry 82's. -/
def Obligations.Management : Prop :=
  (∀ p ∈ [(Instr.powerOnReset, EvArgs.nats [0]), (.rstctlReset, .none)], ∀ s : State, s.ev = p.2 → ∃ t, exec p.1 s = .next t ∧
    t.cycle = 0 ∧ t.power = true ∧ t.resetStep = 1 ∧ (∀ n, t.core n = Core.reset) ∧ t.mem = s.mem ∧
    ∃ d, t.agenda = [d] ∧ d.row = .powerOnReset ∧ 0 < d.cycle ∧ d.args = .nats [2]) ∧
  (∀ (s : State) (k : Nat), s.ev = .nats [k] → 0 < k → k = s.resetStep + 1 → k ≤ 5 → ∃ t, exec .powerOnReset s = .next t ∧
    t.resetStep = k ∧ (k < 5 → ∃ d ∈ t.agenda, d.row = .powerOnReset ∧ s.cycle < d.cycle ∧ d.args = .nats [k + 1]) ∧
    (k = 3 → (∀ n, t.core n = Core.reset) ∧ ∀ a, SMap.get memDefault t.mem a =
      if scratchBase ≤ a ∧ a < scratchBase + 176 * scratchSize then 0 else SMap.get memDefault s.mem a) ∧
    (k ≠ 3 → t.mem = s.mem)) ∧
  (∀ (s : State) (x y z a b c : Nat), s.ev = .nats [6, x, y, z, a, b, c] → s.resetStep = 5 → x ≤ 16 → y ≤ 16 → z ≤ 16 → a < x → b < y →
    c < z → exec .powerOnReset s = .next { s with torus := (x - 1, y - 1, z - 1), pkg := a + 16 * b + 256 * c }) ∧
  (∀ (s : State) (w b : Nat), s.ev = .nats [7, w, b] → s.resetStep = 5 → w < 8 → (b = 0 ∨ (b - 1) % 2 ^ 36 = 0) →
    exec .powerOnReset s = .next { s with windows := SMap.set 0 s.windows w b }) ∧
  (∀ s : State, exec .configurationRequest s = .next { s with cfgReply := some (decide (4 ≤ s.resetStep)) }) ∧
  (∀ s : State, exec .rstctlClearTrip s = .next { s with tripRec := 0 }) ∧
  (∀ (s : State) (d : Nat), s.ev = .nats [d] → d < 6 → s.cycle % 1200000 = 0 → ∃ t, exec .thermalUpdate s = .next t ∧
    SMap.get 0 t.thermal d = (if 95 ≤ SMap.get 0 s.temps d ∨ s.pwrCap < s.pwrNow then Min.min 7 (SMap.get 0 s.thermal d + 1)
      else if SMap.get 0 s.temps d ≤ 90 ∧ s.pwrNow + 100 ≤ s.pwrCap then SMap.get 0 s.thermal d - 1 else SMap.get 0 s.thermal d) ∧
    (∀ e, e ≠ d → SMap.get 0 t.thermal e = SMap.get 0 s.thermal e) ∧ t.mem = s.mem ∧ t.cores = s.cores) ∧
  (∀ (s : State) (d x : Nat), s.ev = .nats [d, x] →
    (110 ≤ x → exec .thermalTrip s = .next { s with tripRec := 1 + 2 * (d % 8), power := false }) ∧
    (x < 110 → exec .thermalTrip s = .next s)) ∧
  (∀ s : State, s.ev = .nats [1] → exec .dbgenWrite s = .next { s with dbgen := true }) ∧
  (∀ s : State, s.ev = .nats [0] → (∀ e ∈ s.cores, e.2.halted = false) → exec .dbgenWrite s = .next { s with dbgen := false }) ∧
  (∀ (s : State) (v x : Nat), s.ev = .nats [v, 0, x] → ∃ t, exec .registerWrite s = .next t ∧ t.mem = s.mem ∧
    (t.ring v).sqBase = (if (s.ring v).enabled = true then (s.ring v).sqBase else w64 x) ∧ ∀ w, w ≠ v → t.ring w = s.ring w) ∧
  (∀ (s : State) (v x : Nat), s.ev = .nats [v, 0x8018, x] → ∃ t, exec .registerWrite s = .next t ∧ t.mem = s.mem ∧
    t.pwrCap = if v = 0 ∧ 1500 ≤ x ∧ x ≤ 3400 then x else s.pwrCap)

/-! ### Frames -/

/-- The frame of the instructions that only compute on registers of their cluster: whatever they come to next, no trap aside, nothing
of the package changes but their core, of the core only their cluster and one result for the register that they name, of the
cluster only what every completion changes, and every byte of memory reads as before. -/
def Obligations.RegisterFrame : Prop :=
  ∀ (i : Instr) (s t : State), Claim.registerOnly i = true → s.issues i → exec i s = .next t → t.faults = s.faults →
    s.onlyMyCore t ∧ s.onlyMe t ∧ s.onlyFlow t ∧ s.sameBytes t ∧
    (t.myCore.inflight = s.myCore.inflight ∨ ∃ l : Landing, t.myCore.inflight = s.myCore.inflight ++ [l] ∧ l.cl = s.curCl ∧
      ∃ r v, l.w = .x r v ∧ 0 < r)

/-- The frame of a write to a tile register: nothing of the package changes but the core, of the core only the cluster and the results
in flight, which are tile elements and flags, and of the cluster only the generator and the operand latch. -/
def Sys2Proof.Claim.TileWriteFrame : Prop :=
  ∀ (l : Nat) (d : BitVec 5) (pred : BitVec 3) (mode : Rnd) (src : Option (BitVec 5)) (f : BitVec 32 → Nat → Nat → List Elem × FFlags)
    (s t : State), s.curCl < 4 → tileOp l d pred mode src f s = .done t →
    s.onlyMyCore t ∧ s.onlyMe t ∧ s.sameBytes t ∧ t.me = { s.me with srstate := t.me.srstate, latch := src } ∧
    (mode ≠ .sr → t.me.srstate = s.me.srstate) ∧
    ∃ new : List Landing, t.myCore.inflight = s.myCore.inflight ++ new ∧ ∀ x ∈ new, x.cl = s.curCl ∧ x.due = s.cycle + l - 1 ∧
      ((∃ cells, x.w = .tile cells ∧ ∀ c ∈ cells, c.1 / 1024 = d.toNat) ∨ ∃ fl, x.w = .flags fl)

/-- What a tile write is and what it leaves alone (R55-R57, R63, R122). -/
def Obligations.TileWrites : Prop := Claim.TileWriteEffect ∧ Claim.TileWriteFrame
end

