-- ==== Sys2Proof/Laws/Alu.lean ====
section
/-!
SUPPORT. The operations of the scalar ALU as arithmetic on integers (Table 11-1).
-/

namespace Sys2Proof.Machine

theorem aluAdd_eq (a b : Word) : aluAdd a b = BitVec.ofNat 64 (a.toNat + b.toNat) := by
  apply BitVec.eq_of_toNat_eq; simp [aluAdd]

theorem aluSub_eq (a b : Word) : aluSub a b = BitVec.ofInt 64 ((a.toNat : Int) - b.toNat) := by
  apply BitVec.eq_of_toNat_eq
  have := a.isLt
  have := b.isLt
  rw [aluSub, BitVec.toNat_sub, BitVec.toNat_ofInt]
  omega

theorem aluAnd_eq (a b : Word) : aluAnd a b = BitVec.ofNat 64 (a.toNat &&& b.toNat) := by
  apply BitVec.eq_of_toNat_eq; rw [aluAnd, BitVec.toNat_and, BitVec.toNat_ofNat, Nat.mod_eq_of_lt]; exact (a &&& b).isLt

theorem aluOr_eq (a b : Word) : aluOr a b = BitVec.ofNat 64 (a.toNat ||| b.toNat) := by
  apply BitVec.eq_of_toNat_eq; rw [aluOr, BitVec.toNat_or, BitVec.toNat_ofNat, Nat.mod_eq_of_lt]; exact (a ||| b).isLt

theorem aluXor_eq (a b : Word) : aluXor a b = BitVec.ofNat 64 (a.toNat ^^^ b.toNat) := by
  apply BitVec.eq_of_toNat_eq; rw [aluXor, BitVec.toNat_xor, BitVec.toNat_ofNat, Nat.mod_eq_of_lt]; exact (a ^^^ b).isLt

theorem aluShl_eq (a b : Word) : aluShl a b = BitVec.ofNat 64 (a.toNat * 2 ^ (b.toNat % 64)) := by
  apply BitVec.eq_of_toNat_eq; simp [aluShl, Nat.shiftLeft_eq]

theorem aluShr_eq (a b : Word) : aluShr a b = BitVec.ofNat 64 (a.toNat / 2 ^ (b.toNat % 64)) := by
  apply BitVec.eq_of_toNat_eq
  rw [aluShr, BitVec.toNat_ushiftRight, BitVec.toNat_ofNat, Nat.shiftRight_eq_div_pow]
  exact (Nat.mod_eq_of_lt (Nat.lt_of_le_of_lt (Nat.div_le_self _ _) a.isLt)).symm

theorem aluSar_eq (a b : Word) : aluSar a b = BitVec.ofInt 64 (a.toInt / 2 ^ (b.toNat % 64)) := by
  have : (a.sshiftRight (b.toNat % 64)) = BitVec.ofInt 64 (a.sshiftRight (b.toNat % 64)).toInt := (BitVec.ofInt_toInt).symm
  rw [aluSar, this, BitVec.toInt_sshiftRight, Int.shiftRight_eq_div_pow]
  norm_num

theorem aluMin_eq (a b : Word) : aluMin a b = BitVec.ofInt 64 (min a.toInt b.toInt) := by
  unfold aluMin; split
  · rename_i h; rw [BitVec.slt_iff_toInt_lt] at h; rw [min_eq_right (by omega), BitVec.ofInt_toInt]
  · rename_i h; rw [BitVec.slt_iff_toInt_lt] at h; rw [min_eq_left (by omega), BitVec.ofInt_toInt]

theorem aluMax_eq (a b : Word) : aluMax a b = BitVec.ofInt 64 (max a.toInt b.toInt) := by
  unfold aluMax; split
  · rename_i h; rw [BitVec.slt_iff_toInt_lt] at h; rw [max_eq_right (by omega), BitVec.ofInt_toInt]
  · rename_i h; rw [BitVec.slt_iff_toInt_lt] at h; rw [max_eq_left (by omega), BitVec.ofInt_toInt]

theorem aluMinu_eq (a b : Word) : aluMinu a b = BitVec.ofNat 64 (min a.toNat b.toNat) := by
  unfold aluMinu; split
  · rename_i h; rw [BitVec.lt_def] at h; rw [min_eq_right (by omega)]; simp
  · rename_i h; rw [BitVec.lt_def] at h; rw [min_eq_left (by omega)]; simp

theorem aluMaxu_eq (a b : Word) : aluMaxu a b = BitVec.ofNat 64 (max a.toNat b.toNat) := by
  unfold aluMaxu; split
  · rename_i h; rw [BitVec.lt_def] at h; rw [max_eq_right (by omega)]; simp
  · rename_i h; rw [BitVec.lt_def] at h; rw [max_eq_left (by omega)]; simp

theorem aluSeq_eq (a b : Word) : aluSeq a b = if a = b then 1 else 0 := by
  unfold aluSeq boolW; split <;> simp_all

theorem aluSne_eq (a b : Word) : aluSne a b = if a ≠ b then 1 else 0 := by
  unfold aluSne boolW; split <;> simp_all

theorem aluSlt_eq (a b : Word) : aluSlt a b = if a.toInt < b.toInt then 1 else 0 := by
  simp [aluSlt, boolW, BitVec.slt]

theorem aluSltu_eq (a b : Word) : aluSltu a b = if a.toNat < b.toNat then 1 else 0 := by
  simp [aluSltu, boolW, BitVec.lt_def]

theorem aluSge_eq (a b : Word) : aluSge a b = if b.toInt ≤ a.toInt then 1 else 0 := by
  simp [aluSge, boolW, BitVec.slt]

theorem aluSgeu_eq (a b : Word) : aluSgeu a b = if b.toNat ≤ a.toNat then 1 else 0 := by
  simp [aluSgeu, boolW, BitVec.lt_def]

theorem aluMul_eq (a b : Word) : aluMul a b = BitVec.ofInt 64 (a.toInt * b.toInt) := by
  apply BitVec.eq_of_toInt_eq
  simp [aluMul, BitVec.toInt_mul, BitVec.toInt_ofInt]

theorem aluDiv_eq (a b : Word) :
    aluDiv a b = if b = 0 then BitVec.ofInt 64 (-1) else BitVec.ofInt 64 (a.toInt.tdiv b.toInt) := by
  unfold aluDiv divS
  split
  · decide
  · split
    · rename_i h; rw [h.1, h.2]; decide
    · rfl

theorem aluRem_eq (a b : Word) :
    aluRem a b = if b = 0 then a else BitVec.ofInt 64 (a.toInt - a.toInt.tdiv b.toInt * b.toInt) := by
  unfold aluRem remS
  split
  · rfl
  · split
    · rename_i h; rw [h.1, h.2]; decide
    · rw [Int.tmod_def]; congr 2; ring

theorem aluDivu_eq (a b : Word) :
    aluDivu a b = if b = 0 then BitVec.ofInt 64 (-1) else BitVec.ofNat 64 (a.toNat / b.toNat) := by
  unfold aluDivu; split
  · decide
  · rfl

theorem aluRemu_eq (a b : Word) :
    aluRemu a b = if b = 0 then a else BitVec.ofNat 64 (a.toNat - a.toNat / b.toNat * b.toNat) := by
  unfold aluRemu; split
  · rfl
  · unfold w64
    congr 1
    have := Nat.div_add_mod a.toNat b.toNat
    rw [Nat.mul_comm] at this; omega

theorem aluLeaX1_eq (a b : Word) : aluLeaX1 a b = BitVec.ofNat 64 (a.toNat + b.toNat * 1) := by
  apply BitVec.eq_of_toNat_eq; simp [aluLeaX1]

theorem aluLeaX2_eq (a b : Word) : aluLeaX2 a b = BitVec.ofNat 64 (a.toNat + b.toNat * 2) := by
  apply BitVec.eq_of_toNat_eq; simp [aluLeaX2]

theorem aluLeaX4_eq (a b : Word) : aluLeaX4 a b = BitVec.ofNat 64 (a.toNat + b.toNat * 4) := by
  apply BitVec.eq_of_toNat_eq; simp [aluLeaX4]

theorem aluLeaX8_eq (a b : Word) : aluLeaX8 a b = BitVec.ofNat 64 (a.toNat + b.toNat * 8) := by
  apply BitVec.eq_of_toNat_eq; simp [aluLeaX8]

theorem clzN_spec (n : Nat) : ∀ v, v < 2 ^ n → clzN n v ≤ n ∧ v < 2 ^ (n - clzN n v) ∧ (clzN n v < n → 2 ^ (n - 1 - clzN n v) ≤ v) := by
  induction n with
  | zero => intro v h; simp [clzN] at *; exact h
  | succ n ih =>
    intro v h
    unfold clzN
    split
    · rename_i hh; simp; exact ⟨h, hh⟩
    · rename_i hh
      have := ih v (by omega)
      refine ⟨by omega, ?_, ?_⟩
      · rw [show n + 1 - (1 + clzN n v) = n - clzN n v by omega]; exact this.2.1
      · intro h2
        rw [show n + 1 - 1 - (1 + clzN n v) = n - 1 - clzN n v by omega]; exact this.2.2 (by omega)

theorem popN_eq (n : Nat) : ∀ v, popN n v = ((List.range n).filter fun i => v.testBit i).length := by
  induction n with
  | zero => intro v; rfl
  | succ n ih =>
    intro v
    rw [popN, ih, List.range_succ_eq_map, List.filter_cons]
    rw [List.filter_map, ]
    have e : (fun i => v.testBit i) ∘ Nat.succ = fun i => (v / 2).testBit i := by
      funext i; simp [Nat.testBit_succ]
    rw [e]
    have h0 : v.testBit 0 = decide (v % 2 = 1) := Nat.testBit_zero v
    rw [h0]
    rcases Nat.mod_two_eq_zero_or_one v with h | h <;> simp [h]
    omega

end Sys2Proof.Machine
end

