-- ==== Sys2Proof/Laws/SMap.lean ====
section
/-!
SUPPORT. The laws of the sparse map: what is read after a write, and that writes keep the canonical form.
-/

namespace Sys2Proof.SMap

theorem get_erase_same {α : Type} (d : α) (m : SMap α) (k : Nat) : get d (erase m k) k = d := by
  induction m with
  | nil => rfl
  | cons e t ih => by_cases h : e.1 = k <;> simp [erase, get, h, ih]

theorem get_erase_other {α : Type} (d : α) (m : SMap α) {k j : Nat} (h : j ≠ k) : get d (erase m k) j = get d m j := by
  induction m with
  | nil => rfl
  | cons e t ih =>
    by_cases hk : e.1 = k
    · have hj : e.1 ≠ j := fun x => h (x.symm.trans hk)
      simp only [erase, hk, if_true, ih, get]
      rw [if_neg (hk ▸ hj)]
    · simp only [erase, hk, if_false, get, ih]

theorem get_insert_same {α : Type} (d : α) (m : SMap α) (k : Nat) (v : α) : get d (insert m k v) k = v := by
  induction m with
  | nil => simp [insert, get]
  | cons e t ih =>
    by_cases h : e.1 < k
    · simp [insert, h, get, ih, Nat.ne_of_lt h]
    · simp [insert, h, get]

theorem get_insert_other {α : Type} (d : α) (m : SMap α) {k j : Nat} (v : α) (h : j ≠ k) :
    get d (insert m k v) j = get d m j := by
  induction m with
  | nil => simp [insert, get, h.symm]
  | cons e t ih =>
    by_cases hk : e.1 < k
    · simp only [insert, hk, if_true, get, ih]
    · simp only [insert, hk, if_false, get, h.symm]

variable {α : Type} [DecidableEq α]

/-- A read after a write of the same key gives the value written. -/
@[simp] theorem get_set_same (d : α) (m : SMap α) (k : Nat) (v : α) : get d (set d m k v) k = v := by
  by_cases h : v = d
  · simp [set, h, get_erase_same]
  · simp [set, h, get_insert_same]

/-- A write leaves every other key alone. -/
theorem get_set_other (d : α) (m : SMap α) {k j : Nat} (v : α) (h : j ≠ k) : get d (set d m k v) j = get d m j := by
  by_cases hv : v = d
  · simp [set, hv, get_erase_other d m h]
  · simp [set, hv, get_insert_other d _ v h, get_erase_other d m h]

/-- A read after a write. -/
theorem get_set (d : α) (m : SMap α) (k j : Nat) (v : α) : get d (set d m k v) j = if j = k then v else get d m j := by
  by_cases h : j = k
  · simp [h]
  · simp [h, get_set_other d m v h]

/-! ### The canonical form -/

theorem wf_nil (d : α) : wf d ([] : SMap α) = true := rfl

/-- The canonical form from its parts: the head is no default and lies below every later key. -/
theorem wf_cons {d : α} {e : Nat × α} {t : SMap α} :
    wf d (e :: t) = true ↔ e.2 ≠ d ∧ (∀ f ∈ t, e.1 < f.1) ∧ wf d t = true := by
  induction t generalizing e with
  | nil => simp [wf]
  | cons f t ih =>
    simp only [wf, Bool.and_eq_true, decide_eq_true_eq, List.mem_cons, forall_eq_or_imp]
    constructor
    · rintro ⟨⟨h1, h2⟩, h3⟩
      exact ⟨h1, ⟨h2, fun g hg => Nat.lt_trans h2 ((ih.mp h3).2.1 g hg)⟩, h3⟩
    · rintro ⟨h1, ⟨h2, _⟩, h3⟩
      exact ⟨⟨h1, h2⟩, h3⟩

theorem mem_erase {α : Type} {m : SMap α} {k : Nat} {f : Nat × α} (h : f ∈ erase m k) : f ∈ m ∧ f.1 ≠ k := by
  induction m with
  | nil => simp [erase] at h
  | cons e t ih =>
    by_cases hk : e.1 = k
    · simp only [erase, hk, if_true] at h
      exact ⟨List.mem_cons_of_mem _ (ih h).1, (ih h).2⟩
    · simp only [erase, hk, if_false, List.mem_cons] at h
      rcases h with rfl | h
      · exact ⟨List.mem_cons_self .., hk⟩
      · exact ⟨List.mem_cons_of_mem _ (ih h).1, (ih h).2⟩

theorem wf_erase {d : α} {m : SMap α} (k : Nat) (h : wf d m = true) : wf d (erase m k) = true := by
  induction m with
  | nil => rfl
  | cons e t ih =>
    rw [wf_cons] at h
    by_cases hk : e.1 = k
    · simpa [erase, hk] using ih h.2.2
    · simp only [erase, hk, if_false, wf_cons]
      exact ⟨h.1, fun f hf => h.2.1 f (mem_erase hf).1, ih h.2.2⟩

theorem mem_insert {α : Type} {m : SMap α} {k : Nat} {v : α} {f : Nat × α} (h : f ∈ insert m k v) : f = (k, v) ∨ f ∈ m := by
  induction m with
  | nil => simpa [insert] using h
  | cons e t ih =>
    by_cases hk : e.1 < k
    · simp only [insert, hk, if_true, List.mem_cons] at h
      rcases h with rfl | h
      · exact .inr (List.mem_cons_self ..)
      · exact (ih h).imp_right (List.mem_cons_of_mem _)
    · simpa only [insert, hk, if_false, List.mem_cons] using h

theorem wf_insert {d : α} {m : SMap α} {k : Nat} {v : α} (h : wf d m = true) (hv : v ≠ d) (hk : ∀ f ∈ m, f.1 ≠ k) :
    wf d (insert m k v) = true := by
  induction m with
  | nil => simpa [insert, wf] using hv
  | cons e t ih =>
    have hw := wf_cons.mp h
    by_cases hlt : e.1 < k
    · simp only [insert, hlt, if_true, wf_cons]
      refine ⟨hw.1, fun f hf => ?_, ih hw.2.2 fun f hf => hk f (List.mem_cons_of_mem _ hf)⟩
      rcases mem_insert hf with rfl | hf
      · exact hlt
      · exact hw.2.1 f hf
    · have hke : k < e.1 := Nat.lt_of_le_of_ne (Nat.le_of_not_lt hlt) (hk e (List.mem_cons_self ..)).symm
      simp only [insert, hlt, if_false]
      rw [wf_cons]
      refine ⟨hv, fun f hf => ?_, h⟩
      rcases List.mem_cons.mp hf with rfl | hf
      · exact hke
      · exact Nat.lt_trans hke (hw.2.1 f hf)

/-- A write keeps the canonical form. -/
theorem wf_set {d : α} {m : SMap α} (k : Nat) (v : α) (h : wf d m = true) : wf d (set d m k v) = true := by
  by_cases hv : v = d
  · simpa [set, hv] using wf_erase k h
  · simpa [set, hv] using wf_insert (wf_erase k h) hv fun f hf => (mem_erase hf).2

/-- Writes of a list keep the canonical form. -/
theorem wf_setAll {d : α} (l : List (Nat × α)) {m : SMap α} (h : wf d m = true) : wf d (setAll d m l) = true := by
  induction l generalizing m with
  | nil => exact h
  | cons e t ih => exact ih (wf_set e.1 e.2 h)

/-- Leaving entries out keeps the canonical form. -/
theorem wf_filter {d : α} (p : Nat × α → Bool) {m : SMap α} (h : wf d m = true) : wf d (m.filter p) = true := by
  induction m with
  | nil => rfl
  | cons e t ih =>
    rw [wf_cons] at h
    cases hp : p e
    · simpa [List.filter, hp] using ih h.2.2
    · simp only [List.filter, hp, wf_cons]
      exact ⟨h.1, fun f hf => h.2.1 f (List.mem_filter.mp hf).1, ih h.2.2⟩

/-- Two canonical maps that read alike at every key are one map. -/
theorem wf_ext {d : α} {m n : SMap α} (hm : wf d m = true) (hn : wf d n = true) (h : ∀ k, get d m k = get d n k) : m = n := by
  have low : ∀ {l : SMap α} {k : Nat}, (∀ f ∈ l, k < f.1) → get d l k = d := by
    intro l k hl
    induction l with
    | nil => rfl
    | cons e t ih =>
      simp [get, Nat.ne_of_gt (hl e (List.mem_cons_self ..)), ih fun f hf => hl f (List.mem_cons_of_mem _ hf)]
  induction m generalizing n with
  | nil =>
    cases n with
    | nil => rfl
    | cons f u =>
      exact absurd (by simpa [get] using (h f.1).symm) (wf_cons.mp hn).1
  | cons e t ih =>
    cases n with
    | nil => exact absurd (by simpa [get] using h e.1) (wf_cons.mp hm).1
    | cons f u =>
      have we := wf_cons.mp hm
      have wf' := wf_cons.mp hn
      have key : e.1 = f.1 := by
        rcases Nat.lt_trichotomy e.1 f.1 with hlt | heq | hgt
        · have := h e.1
          rw [low (l := f :: u) (fun g hg => by
            rcases List.mem_cons.mp hg with rfl | hg
            · exact hlt
            · exact Nat.lt_trans hlt (wf'.2.1 g hg))] at this
          exact absurd (by simpa [get] using this) we.1
        · exact heq
        · have := h f.1
          rw [low (l := e :: t) (fun g hg => by
            rcases List.mem_cons.mp hg with rfl | hg
            · exact hgt
            · exact Nat.lt_trans hgt (we.2.1 g hg))] at this
          exact absurd (by simpa [get] using this.symm) wf'.1
      have val : e.2 = f.2 := by simpa [get, key] using h e.1
      have tail : t = u := by
        refine ih we.2.2 wf'.2.2 fun k => ?_
        by_cases hk : e.1 = k
        · rw [low (fun g hg => hk ▸ we.2.1 g hg), low (fun g hg => hk ▸ key ▸ wf'.2.1 g hg)]
        · have hf : f.1 ≠ k := fun x => hk (key.trans x)
          have := h k
          simp only [get, if_neg hk, if_neg hf] at this
          exact this
      rw [tail, Prod.ext key val]

/-! ### Several keys at once -/

theorem get_setAll_other {α : Type} [DecidableEq α] (d : α) (l : List (Nat × α)) (m : SMap α) {k : Nat} (h : ∀ e ∈ l, e.1 ≠ k) :
    get d (setAll d m l) k = get d m k := by
  induction l generalizing m with
  | nil => rfl
  | cons e t ih =>
    have h1 := h e (by simp)
    refine (ih (set d m e.1 e.2) fun f hf => h f (by simp [hf])).trans ?_
    rw [get_set, if_neg (Ne.symm h1)]

theorem get_setAll_mem {α : Type} [DecidableEq α] (d : α) (l : List (Nat × α)) (m : SMap α) {k : Nat} {v : α}
    (hn : (l.map fun e => e.1).Nodup) (h : (k, v) ∈ l) : get d (setAll d m l) k = v := by
  induction l generalizing m with
  | nil => simp at h
  | cons e t ih =>
    simp only [List.map_cons, List.nodup_cons] at hn
    rcases List.mem_cons.1 h with h | h
    · subst h
      refine (get_setAll_other d t (set d m k v) fun f hf he => hn.1 (List.mem_map.2 ⟨f, hf, he⟩)).trans ?_
      rw [get_set, if_pos rfl]
    · exact ih (set d m e.1 e.2) hn.2 h

theorem get_of_mem {α : Type} [DecidableEq α] {d : α} {m : SMap α} (hw : wf d m = true) {k : Nat} {v : α} (h : (k, v) ∈ m) :
    get d m k = v := by
  induction m with
  | nil => simp at h
  | cons e t ih =>
    obtain ⟨_, h2, h3⟩ := wf_cons.1 hw
    rcases List.mem_cons.1 h with h | h
    · subst h; simp [get]
    · have := h2 _ h
      rw [get, if_neg (by simp at this ⊢; omega)]
      exact ih h3 h

theorem get_of_not_mem {α : Type} {d : α} {m : SMap α} {k : Nat} (h : ∀ e ∈ m, e.1 ≠ k) : get d m k = d := by
  induction m with
  | nil => rfl
  | cons e t ih =>
    rw [get, if_neg (h e (by simp))]
    exact ih fun f hf => h f (by simp [hf])

theorem nodup_of_wf {α : Type} [DecidableEq α] {d : α} {m : SMap α} (hw : wf d m = true) : (m.map fun e => e.1).Nodup := by
  induction m with
  | nil => simp
  | cons e t ih =>
    obtain ⟨_, h2, h3⟩ := wf_cons.1 hw
    simp only [List.map_cons, List.nodup_cons, List.mem_map, not_exists, not_and]
    exact ⟨fun f hf he => by have := h2 f hf; omega, ih h3⟩

end Sys2Proof.SMap
end

