-- ==== Sys2Proof/Laws/Memory.lean ====
section
/-!
SUPPORT. Memory: what is written reads back, every other byte stays, and every operation that writes memory keeps its canonical form.
-/

namespace Sys2Proof.Machine

/-! ### Reads after writes -/

theorem State.byte_setByte (s : State) (pa q : Nat) (b : Byte) : (s.setByte pa b).byte q = if s.media q = s.media pa then b else s.byte q := by
  unfold State.byte State.setByte
  simp only []
  exact SMap.get_set _ _ _ _ _

/-- A store changes nothing but memory. -/
theorem State.setBytes_eq (s : State) (pa : Nat) (bs : List Byte) : ∃ m, s.setBytes pa bs = { s with mem := m } := by
  induction bs generalizing s pa with
  | nil => exact ⟨s.mem, rfl⟩
  | cons b t ih => obtain ⟨m, hm⟩ := ih (s.setByte pa b) (pa + 1); exact ⟨m, by rw [State.setBytes, hm]; rfl⟩

theorem State.media_setBytes (s : State) (pa : Nat) (bs : List Byte) (q : Nat) : (s.setBytes pa bs).media q = s.media q := by
  obtain ⟨m, hm⟩ := State.setBytes_eq s pa bs; rw [hm]; rfl

theorem State.byte_setBytes_other (s : State) (pa : Nat) (bs : List Byte) (q : Nat) (h : s.media q ∉ s.mediaRange pa bs.length) :
    (s.setBytes pa bs).byte q = s.byte q := by
  induction bs generalizing s pa with
  | nil => rfl
  | cons b t ih =>
    have h1 : s.media q ≠ s.media pa ∧ s.media q ∉ s.mediaRange (pa + 1) t.length := by
      simp [State.mediaRange] at *
      refine ⟨fun e => h 0 (by omega) (by simp [e]), fun x hx e => h (x + 1) (by omega) (by rw [← e]; congr 1; omega)⟩
    rw [State.setBytes, ih]
    · rw [State.byte_setByte, if_neg h1.1]
    · exact h1.2

theorem State.bytes_setBytes (s : State) (pa : Nat) (bs : List Byte) (h : (s.mediaRange pa bs.length).Nodup) :
    (s.setBytes pa bs).bytes pa bs.length = bs := by
  induction bs generalizing s pa with
  | nil => rfl
  | cons b t ih =>
    have hr : s.mediaRange pa (t.length + 1) = s.media pa :: s.mediaRange (pa + 1) t.length := by
      simp only [State.mediaRange, List.range_succ_eq_map, List.map_cons, List.map_map, Nat.add_zero]
      congr 1
      exact List.map_congr_left fun x _ => by simp [Nat.add_assoc, Nat.add_comm 1 x]
    simp only [List.length_cons, hr, List.nodup_cons] at h
    simp only [State.setBytes, List.length_cons, State.bytes]
    rw [State.byte_setBytes_other]
    · rw [State.byte_setByte, if_pos rfl, ih]
      exact h.2
    · exact h.1

/-- Cells numbered from 0 are stored as bytes in a row. -/
theorem State.setCells_enum (s : State) (pa : Nat) (bs : List Byte) : s.setCells pa (enumBytes bs) = s.setBytes pa bs := by
  suffices h : ∀ (k : Nat) (s : State), (List.zip (List.range' k bs.length) bs).foldl (fun s c => s.setByte (pa + c.1) c.2) s = s.setBytes (pa + k) bs by
    have := h 0 s
    simpa [State.setCells, enumBytes, List.range_eq_range'] using this
  induction bs with
  | nil => intro k s; rfl
  | cons b t ih =>
    intro k s
    simp only [List.length_cons, List.range'_succ, List.zip_cons_cons, List.foldl_cons, State.setBytes]
    rw [ih]; rfl

/-! ### The canonical form -/

theorem State.reset_memOk : State.reset.memOk := rfl

theorem State.setByte_memOk {s : State} (pa : Nat) (b : Byte) (h : s.memOk) : (s.setByte pa b).memOk := SMap.wf_set _ _ h

theorem State.setBytes_memOk {s : State} (pa : Nat) (bs : List Byte) (h : s.memOk) : (s.setBytes pa bs).memOk := by
  induction bs generalizing s pa with
  | nil => exact h
  | cons b t ih => exact ih _ (State.setByte_memOk pa b h)

theorem State.writeN_memOk {s : State} (pa n v : Nat) (h : s.memOk) : (s.writeN pa n v).memOk := State.setBytes_memOk pa _ h

theorem State.setCells_memOk {s : State} (pa : Nat) (cells : List (Nat × Byte)) (h : s.memOk) : (s.setCells pa cells).memOk := by
  unfold State.setCells
  induction cells generalizing s with
  | nil => exact h
  | cons c t ih => exact ih (State.setByte_memOk _ _ h)

/-- Bytes that are cleared leave the form as it is: clearing a scratchpad, a step of reset, an interface's reset. -/
theorem State.filter_memOk {s : State} (p : Host.Cell → Bool) (h : s.memOk) : ({ s with mem := s.mem.filter p } : State).memOk :=
  SMap.wf_filter p h

theorem State.clearScratch_memOk {s : State} (cores : Nat) (h : s.memOk) : (s.clearScratch cores).memOk := SMap.wf_filter _ h

theorem State.resetStage_memOk {s : State} (k : Nat) (h : s.memOk) : (s.resetStage k).memOk := by
  unfold State.resetStage
  split
  any_goals exact h
  exact SMap.wf_filter _ h

/-- Writing saved cells over what is left of memory keeps the form: a gang that resumes. -/
theorem State.restore_memOk {s : State} (p : Host.Cell → Bool) (cells : List Host.Cell) (h : s.memOk) :
    ({ s with mem := SMap.setAll memDefault (s.mem.filter p) cells } : State).memOk :=
  SMap.wf_setAll cells (SMap.wf_filter p h)

theorem State.copyFrame_memOk {s : State} (src dst : Nat) (h : s.memOk) : (s.copyFrame src dst).memOk :=
  SMap.wf_setAll _ (SMap.wf_filter _ h)

theorem State.takeFrame_mem {s t : State} {key f : Nat} (h : s.takeFrame key = some (f, t)) : t.mem = s.mem := by
  unfold State.takeFrame at h
  split at h
  · cases h
  · simp only [Option.some.injEq, Prod.mk.injEq] at h
    rw [← h.2]

theorem State.makeShadow_memOk {s t : State} {pa : Nat} (h : s.memOk) (ht : s.makeShadow pa = some t) : t.memOk := by
  unfold State.makeShadow at ht
  simp only [] at ht
  split at ht
  · cases ht; exact h
  · split at ht
    · cases ht
    · split at ht
      · cases ht
      · rename_i heq
        cases ht
        have hm := State.takeFrame_mem heq
        refine State.copyFrame_memOk _ _ ?_
        unfold State.memOk at *
        rw [hm]
        exact h

theorem State.writeShadow_memOk {s : State} (pa : Nat) (bs : List Byte) (h : s.memOk) : (s.writeShadow pa bs).memOk :=
  SMap.wf_setAll _ h

theorem State.writeShadows_memOk {t : State} (bs : List Byte) (ps : List (Nat × Nat × Nat)) {s : State} (h : s.memOk)
    (ht : s.writeShadows bs ps = some t) : t.memOk := by
  induction ps generalizing s bs with
  | nil => cases ht; exact h
  | cons p r ih =>
    unfold State.writeShadows at ht
    split at ht
    · cases ht
    · rename_i heq
      exact ih _ (State.writeShadow_memOk _ _ (State.makeShadow_memOk h heq)) ht

theorem State.storeAll_memOk {s : State} (as : List Nat) (cells : List (Nat × Byte)) (h : s.memOk) : (s.storeAll as cells).memOk := by
  unfold State.storeAll
  induction as generalizing s with
  | nil => exact h
  | cons a t ih => exact ih (State.setCells_memOk _ _ h)

/-- A posted access keeps the form. -/
theorem State.postAs_memOk {s : State} (e : TlbEntry) (pa : Nat) (cells : List (Nat × Byte)) (va : Word)
    (reqs : Nat → List (Nat × PeerOp)) (sync : Bool) (h : s.memOk) : (s.postAs e pa cells va reqs sync).memOk := by
  unfold State.postAs
  split
  · exact State.setCells_memOk _ _ h
  · simp only []
    split
    · split
      · exact h
      · exact State.storeAll_memOk (s := s) _ cells h
    · exact h

/-- A scalar store that is posted keeps the form. -/
theorem State.post_memOk {s : State} (e : TlbEntry) (pa : Nat) (cells : List (Nat × Byte)) (va : Word) (sync : Bool) (h : s.memOk) :
    (s.post e pa cells va sync).memOk := State.postAs_memOk e pa cells va _ sync h

end Sys2Proof.Machine
end

