-- ==== Sys2Proof/Laws/Cells.lean ====
section
/-!
SUPPORT. Cells (R297): under one hash function no two media addresses select one cell, and a cell stays in its stack or channel.
-/

namespace Sys2Proof.Machine

theorem hashGran_cases (f : Nat) : hashGran f = 256 ∨ hashGran f = 1024 ∨ hashGran f = 4096 ∨ hashGran f = 65536 := by
  unfold hashGran; split <;> simp

theorem hashXor_hashXor (f m n rest : Nat) : hashXor f m (hashXor f m n rest) rest = n := by
  unfold hashXor; split
  · rw [Nat.xor_assoc, Nat.xor_self, Nat.xor_zero]
  · rfl

theorem hashXor_lt {f k n rest : Nat} (h : n < 2 ^ k) : hashXor f (2 ^ k) n rest < 2 ^ k := by
  unfold hashXor; split
  · exact Nat.xor_lt_two_pow h (Nat.mod_lt _ (Nat.two_pow_pos k))
  · exact h

/-- Division of a number written in places. -/
theorem place_div {p g r a c : Nat} (hp : 0 < p) (hg : 0 < g) (b : Nat) (ha : a < p) (hb : b < 16) (hc : c < g) :
    (((r * 16 + b) * p + a) * g + c) / g = (r * 16 + b) * p + a ∧ (((r * 16 + b) * p + a) * g + c) % g = c ∧
    ((r * 16 + b) * p + a) % p = a ∧ ((r * 16 + b) * p + a) / p = r * 16 + b ∧ (r * 16 + b) % 16 = b ∧
    ((r * 16 + b) * p + a) / (16 * p) = r := by
  have h1 : (((r * 16 + b) * p + a) * g + c) / g = (r * 16 + b) * p + a := by
    rw [Nat.mul_comm, Nat.mul_add_div hg, Nat.div_eq_of_lt hc, Nat.add_zero]
  have h2 : ((r * 16 + b) * p + a) / p = r * 16 + b := by
    rw [Nat.mul_comm, Nat.mul_add_div hp, Nat.div_eq_of_lt ha, Nat.add_zero]
  refine ⟨h1, ?_, ?_, h2, by omega, ?_⟩
  · rw [Nat.mul_comm, Nat.mul_add_mod, Nat.mod_eq_of_lt hc]
  · rw [Nat.mul_comm, Nat.mul_add_mod, Nat.mod_eq_of_lt ha]
  · rw [Nat.mul_comm 16 p, ← Nat.div_div_eq_div_mul, h2]; omega

theorem channelHash_channelOffset (f k : Nat) (c : Nat × Nat × Nat) (ha : c.1 < 2 ^ k) (hb : c.2.1 < 16) :
    channelHash f (2 ^ k) (channelOffset f (2 ^ k) c) = c := by
  obtain ⟨a, b, c⟩ := c
  have hg : 0 < hashGran f := by rcases hashGran_cases f with h | h | h | h <;> omega
  obtain ⟨h1, h2, h3, h4, h5, h6⟩ := place_div (r := c / hashGran f) (Nat.two_pow_pos k) hg (hashXor f 16 b (c / hashGran f / 2 ^ k))
    (hashXor_lt (f := f) (rest := c / hashGran f) ha) (hashXor_lt (k := 4) (f := f) (rest := c / hashGran f / 2 ^ k) hb) (Nat.mod_lt c hg)
  simp only [channelHash, channelOffset, h1, h2, h3, h4, h5, h6, hashXor_hashXor]
  rw [Nat.mul_comm, Nat.div_add_mod]

theorem channelOffset_channelHash (f k o : Nat) : channelOffset f (2 ^ k) (channelHash f (2 ^ k) o) = o := by
  have hg : 0 < hashGran f := by rcases hashGran_cases f with h | h | h | h <;> omega
  have h1 : (o / hashGran f / (16 * 2 ^ k) * hashGran f + o % hashGran f) / hashGran f = o / hashGran f / (16 * 2 ^ k) := by
    rw [Nat.mul_comm, Nat.mul_add_div hg, Nat.div_eq_of_lt (Nat.mod_lt _ hg), Nat.add_zero]
  have h2 : (o / hashGran f / (16 * 2 ^ k) * hashGran f + o % hashGran f) % hashGran f = o % hashGran f := by
    rw [Nat.mul_comm, Nat.mul_add_mod, Nat.mod_eq_of_lt (Nat.mod_lt _ hg)]
  simp only [channelHash, channelOffset, h1, h2, hashXor_hashXor]
  rw [Nat.mul_comm 16, ← Nat.div_div_eq_div_mul, Nat.mul_comm _ 16, Nat.div_add_mod, Nat.mul_comm _ (2 ^ k), Nat.div_add_mod,
    Nat.mul_comm, Nat.div_add_mod]

theorem channelHash_lt (f k o : Nat) : (channelHash f (2 ^ k) o).1 < 2 ^ k ∧ (channelHash f (2 ^ k) o).2.1 < 16 :=
  ⟨hashXor_lt (Nat.mod_lt _ (Nat.two_pow_pos k)), hashXor_lt (k := 4) (Nat.mod_lt _ (by omega))⟩

/-- Two functions select the same cell: going there and back gives the offset. -/
theorem rehash_rehash (f g k o : Nat) : rehash g f (2 ^ k) (rehash f g (2 ^ k) o) = o := by
  unfold rehash
  by_cases h : f = g
  · rw [if_pos h, if_pos h.symm]
  · have h' : ¬ g = f := fun e => h e.symm
    rw [if_neg h, if_neg h', channelHash_channelOffset _ _ _ (channelHash_lt f k o).1 (channelHash_lt f k o).2, channelOffset_channelHash]

theorem channelHash_place_lt (f k m o : Nat) (hm : hashGran f ∣ m) (h : o < m * (16 * 2 ^ k)) : (channelHash f (2 ^ k) o).2.2 < m := by
  have hg : 0 < hashGran f := by rcases hashGran_cases f with h | h | h | h <;> omega
  obtain ⟨q, rfl⟩ := hm
  have h1 : o / hashGran f / (16 * 2 ^ k) < q := by
    rw [Nat.div_div_eq_div_mul, Nat.div_lt_iff_lt_mul (Nat.mul_pos hg (Nat.mul_pos (by omega) (Nat.two_pow_pos k)))]
    calc o < _ := h
      _ = _ := by ac_rfl
  have h2 := Nat.mod_lt o hg
  calc o / hashGran f / (16 * 2 ^ k) * hashGran f + o % hashGran f < (o / hashGran f / (16 * 2 ^ k) + 1) * hashGran f := by
        rw [Nat.add_mul]; omega
    _ ≤ q * hashGran f := Nat.mul_le_mul_right _ h1
    _ = _ := Nat.mul_comm ..

theorem channelOffset_lt (f k m : Nat) (c : Nat × Nat × Nat) (hm : hashGran f ∣ m) (ha : c.1 < 2 ^ k) (hb : c.2.1 < 16) (hc : c.2.2 < m) :
    channelOffset f (2 ^ k) c < m * (16 * 2 ^ k) := by
  obtain ⟨a, b, c⟩ := c
  have hg : 0 < hashGran f := by rcases hashGran_cases f with h | h | h | h <;> omega
  obtain ⟨q, rfl⟩ := hm
  have hr : c / hashGran f < q := by rw [Nat.div_lt_iff_lt_mul hg]; rw [Nat.mul_comm]; exact hc
  have h1 := hashXor_lt (f := f) (rest := c / hashGran f) ha
  have h2 := hashXor_lt (k := 4) (f := f) (rest := c / hashGran f / 2 ^ k) hb
  have h3 := Nat.mod_lt c hg
  simp only [channelOffset]
  generalize hashXor f (2 ^ k) a (c / hashGran f) = a' at *
  generalize hashXor f 16 b (c / hashGran f / 2 ^ k) = b' at *
  generalize c / hashGran f = r at *
  generalize c % hashGran f = c' at *
  generalize hashGran f = g at *
  generalize 2 ^ k = p at *
  have e1 : (r * 16 + b') * p + a' < (r * 16 + b' + 1) * p := by rw [Nat.add_mul _ 1]; omega
  have e2 : (r * 16 + b' + 1) * p ≤ (q * 16) * p := Nat.mul_le_mul_right _ (by omega)
  have e3 : ((r * 16 + b') * p + a') * g + c' < ((r * 16 + b') * p + a' + 1) * g := by rw [Nat.add_mul _ 1]; omega
  have e4 : ((r * 16 + b') * p + a' + 1) * g ≤ (q * 16) * p * g := Nat.mul_le_mul_right _ (by omega)
  calc _ < _ := e3
    _ ≤ _ := e4
    _ = _ := by ac_rfl

theorem rehash_lt (f g k m o : Nat) (hf : hashGran f ∣ m) (hg : hashGran g ∣ m) (h : o < m * (16 * 2 ^ k)) : rehash f g (2 ^ k) o < m * (16 * 2 ^ k) := by
  unfold rehash
  split
  · exact h
  · exact channelOffset_lt g k m _ hg (channelHash_lt f k o).1 (channelHash_lt f k o).2 (channelHash_place_lt f k m o hf h)

theorem hashGran_dvd (f n : Nat) (h : 65536 ∣ n) : hashGran f ∣ n := by
  rcases hashGran_cases f with e | e | e | e <;> rw [e] <;> exact Nat.dvd_trans (by decide) h

theorem memKind_hbm {m : Nat} : memKind m = some .hbm ↔ m < 2 ^ 36 * 12 := by
  unfold memKind
  refine ⟨fun h => ?_, fun h => by rw [if_pos (by omega)]⟩
  split at h
  · omega
  · repeat' split at h
    all_goals cases h

theorem memKind_lpddr {m : Nat} : memKind m = some .lpddr ↔ 2 ^ 35 * 32 ≤ m ∧ m < 2 ^ 35 * 192 := by
  unfold memKind
  refine ⟨fun h => ?_, fun h => by rw [if_neg (by omega), if_pos (by omega)]⟩
  split at h
  · cases h
  · split at h
    · omega
    · repeat' split at h
      all_goals cases h

/-- A cell stays in its stack or channel. -/
theorem rehashMedia_hbm (f g : Nat) {m : Nat} (h : memKind m = some .hbm) :
    rehashMedia f g m / 2 ^ 36 = m / 2 ^ 36 ∧ rehashMedia f g m % 2 ^ 36 = rehash f g 64 (m % 2 ^ 36) ∧
    memKind (rehashMedia f g m) = some .hbm := by
  have := rehash_lt f g 6 (2 ^ 26) (m % 2 ^ 36) (hashGran_dvd _ _ (by decide)) (hashGran_dvd _ _ (by decide)) (by omega)
  rw [memKind_hbm]
  have h' := memKind_hbm.1 h
  simp only [rehashMedia, h]
  change rehash f g 64 _ < _ at this
  omega

theorem rehashMedia_lpddr (f g : Nat) {m : Nat} (h : memKind m = some .lpddr) :
    rehashMedia f g m / 2 ^ 35 = m / 2 ^ 35 ∧ rehashMedia f g m % 2 ^ 35 = rehash f g 2 (m % 2 ^ 35) ∧
    memKind (rehashMedia f g m) = some .lpddr := by
  have := rehash_lt f g 1 (2 ^ 30) (m % 2 ^ 35) (hashGran_dvd _ _ (by decide)) (hashGran_dvd _ _ (by decide)) (by omega)
  rw [memKind_lpddr]
  have h' := memKind_lpddr.1 h
  simp only [rehashMedia, h]
  change rehash f g 2 _ < _ at this
  omega

/-- No two media addresses select one cell under the same function: the address comes back. -/
theorem rehashMedia_rehashMedia (f g m : Nat) : rehashMedia g f (rehashMedia f g m) = m := by
  have key : ∀ x, rehashMedia g f x = match memKind x with
    | some .hbm => x / 2 ^ 36 * 2 ^ 36 + rehash g f 64 (x % 2 ^ 36)
    | some .lpddr => x / 2 ^ 35 * 2 ^ 35 + rehash g f 2 (x % 2 ^ 35)
    | _ => x := fun _ => rfl
  by_cases h : memKind m = some .hbm
  · obtain ⟨h1, h2, h3⟩ := rehashMedia_hbm f g h
    have h4 : rehash g f 64 (rehash f g 64 (m % 2 ^ 36)) = m % 2 ^ 36 := rehash_rehash f g 6 _
    rw [key, h3]
    simp only [h1, h2, h4]
    omega
  · by_cases h0 : memKind m = some .lpddr
    · obtain ⟨h1, h2, h3⟩ := rehashMedia_lpddr f g h0
      have h4 : rehash g f 2 (rehash f g 2 (m % 2 ^ 35)) = m % 2 ^ 35 := rehash_rehash f g 1 _
      rw [key, h3]
      simp only [h1, h2, h4]
      omega
    · have e : rehashMedia f g m = m := by
        unfold rehashMedia; split <;> simp_all
      rw [e]
      unfold rehashMedia; split <;> simp_all

/-! ### Copies of frames -/

/-- A frame lies in one range of the address space. -/
theorem memKind_frame (f i : Nat) (h : i < 65536) : memKind (f * 65536 + i) = memKind (f * 65536) := by
  have lo (c : Nat) : (f * 65536 + i < 65536 * c) = (f * 65536 < 65536 * c) := propext (by omega)
  have hi (c : Nat) : (65536 * c ≤ f * 65536 + i) = (65536 * c ≤ f * 65536) := propext (by omega)
  unfold memKind
  simp only [show (0xC000000000 : Nat) = 65536 * 0xC00000 from rfl, show (0x10000000000 : Nat) = 65536 * 0x1000000 from rfl,
    show (0x60000000000 : Nat) = 65536 * 0x6000000 from rfl, show (0x80000000000 : Nat) = 65536 * 0x8000000 from rfl,
    show (0x8002C000000 : Nat) = 65536 * 0x8002C00 from rfl, show (0xC0000000000 : Nat) = 65536 * 0xC000000 from rfl,
    show (0xC0000100000 : Nat) = 65536 * 0xC000010 from rfl, show (0x100000000000 : Nat) = 65536 * 0x10000000 from rfl,
    show (0x200000000000 : Nat) = 65536 * 0x20000000 from rfl, show (0x800000000000 : Nat) = 65536 * 0x80000000 from rfl,
    show (0x1000000000000 : Nat) = 65536 * 0x100000000 from rfl, show (0x8000000000000 : Nat) = 65536 * 0x800000000 from rfl,
    show (0x10000000000000 : Nat) = 65536 * 0x1000000000 from rfl, lo, hi]

theorem viaDit_frame (f i : Nat) (h : i < 65536) : viaDit (f * 65536 + i) = viaDit (f * 65536) := by
  unfold viaDit; rw [memKind_frame f i h]

/-- The offset at which a frame selects the cell of one of its bytes. -/
theorem State.frameOffset_cell (s : State) (f i : Nat) (h : i < 65536) : s.frameOffset f (s.mediaCell (f * 65536 + i)) = some i := by
  have e : (f * 65536 + i) / 65536 = f := by omega
  have r : (f * 65536 + i) % 65536 = i := by omega
  unfold State.frameOffset State.mediaCell State.cell
  rw [viaDit_frame f i h, e]
  cases hv : viaDit (f * 65536)
  · simp [e, r]
  · simp [rehashMedia_rehashMedia, e, r]

/-- The cell of the offset at which a frame selects it. -/
theorem State.frameOffset_some {s : State} {f c o : Nat} (h : s.frameOffset f c = some o) : o < 65536 ∧ s.mediaCell (f * 65536 + o) = c := by
  unfold State.frameOffset at h
  cases hv : viaDit (f * 65536)
  · rw [hv] at h
    simp only [Bool.false_eq_true, ↓reduceIte, Option.ite_none_right_eq_some, Option.some.injEq, forall_const] at h
    obtain ⟨⟨h1, h2⟩, h3⟩ := h
    refine ⟨by omega, ?_⟩
    unfold State.mediaCell
    rw [viaDit_frame f o (by omega), hv]
    simp only [Bool.false_eq_true, ↓reduceIte]
    omega
  · rw [hv] at h
    simp only [↓reduceIte, Option.ite_none_right_eq_some, Option.some.injEq] at h
    obtain ⟨⟨h1, -⟩, h3⟩ := h
    have h4 : f * 65536 + o = rehashMedia 4 (s.frameFn f) c := by omega
    refine ⟨by omega, ?_⟩
    unfold State.mediaCell State.cell
    rw [viaDit_frame f o (by omega), hv, h4, h1, rehashMedia_rehashMedia]
    rfl

/-- The cells of the destination hold after a copy what those of the source held, and every other cell stays. -/
theorem State.copyFrame_get {s : State} (src dst : Nat) (h : s.memOk) :
    (∀ i, i < 65536 → SMap.get memDefault (s.copyFrame src dst).mem (s.mediaCell (dst * 65536 + i)) =
      SMap.get memDefault s.mem (s.mediaCell (src * 65536 + i))) ∧
    (∀ a, (∀ i, i < 65536 → a ≠ s.mediaCell (dst * 65536 + i)) →
      SMap.get memDefault (s.copyFrame src dst).mem a = SMap.get memDefault s.mem a) := by
  let rest := s.mem.filter fun e => (s.frameOffset dst e.1).isNone
  let new := s.mem.filterMap fun e => (s.frameOffset src e.1).map fun o => (s.mediaCell (dst * 65536 + o), e.2)
  have hm : (s.copyFrame src dst).mem = SMap.setAll memDefault rest new := rfl
  have hnew : ∀ e ∈ new, ∃ f ∈ s.mem, ∃ o, s.frameOffset src f.1 = some o ∧ e = (s.mediaCell (dst * 65536 + o), f.2) := by
    intro e he
    obtain ⟨f, hf, hp⟩ := List.mem_filterMap.1 he
    obtain ⟨o, ho, rfl⟩ := Option.map_eq_some_iff.1 hp
    exact ⟨f, hf, o, ho, rfl⟩
  have hn : (new.map fun e => e.1).Nodup := by
    have h0 : (s.mem.map fun e => e.1).Nodup := SMap.nodup_of_wf h
    rw [List.Nodup, List.pairwise_map] at *
    refine List.pairwise_filterMap.2 (h0.imp fun {a b} hne x hx y hy he => hne ?_)
    obtain ⟨o, ho, rfl⟩ := Option.map_eq_some_iff.1 hx
    obtain ⟨q, hq, rfl⟩ := Option.map_eq_some_iff.1 hy
    obtain ⟨ho1, ho2⟩ := State.frameOffset_some ho
    obtain ⟨hq1, hq2⟩ := State.frameOffset_some hq
    have h1 := State.frameOffset_cell s dst o ho1
    have h2 := State.frameOffset_cell s dst q hq1
    simp only at he
    rw [he, h2] at h1
    cases h1
    rw [← ho2, ← hq2]
  rw [hm]
  constructor
  · intro i hi
    by_cases hx : ∃ v, (s.mediaCell (src * 65536 + i), v) ∈ s.mem
    · obtain ⟨v, hv⟩ := hx
      have hin : (s.mediaCell (dst * 65536 + i), v) ∈ new :=
        List.mem_filterMap.2 ⟨_, hv, by rw [State.frameOffset_cell s src i hi]; rfl⟩
      rw [SMap.get_setAll_mem memDefault new rest hn hin, SMap.get_of_mem h hv]
    · have h1 : ∀ e ∈ new, e.1 ≠ s.mediaCell (dst * 65536 + i) := by
        intro e he heq
        obtain ⟨f, hf, o, ho, rfl⟩ := hnew e he
        obtain ⟨ho1, ho2⟩ := State.frameOffset_some ho
        have h2 := State.frameOffset_cell s dst o ho1
        simp only at heq
        rw [heq, State.frameOffset_cell s dst i hi] at h2
        cases h2
        exact hx ⟨f.2, ho2 ▸ hf⟩
      rw [SMap.get_setAll_other memDefault new rest h1, SMap.get_of_not_mem, SMap.get_of_not_mem]
      · intro e he heq; exact hx ⟨e.2, heq ▸ he⟩
      · intro e he heq
        have := (List.mem_filter.1 he).2
        rw [heq, State.frameOffset_cell s dst i hi] at this
        cases this
  · intro a ha
    have h1 : ∀ e ∈ new, e.1 ≠ a := by
      intro e he heq
      obtain ⟨f, hf, o, ho, rfl⟩ := hnew e he
      exact ha o (State.frameOffset_some ho).1 heq.symm
    have h2 : (s.frameOffset dst a).isNone = true := by
      cases hc : s.frameOffset dst a with
      | none => rfl
      | some o =>
        obtain ⟨ho1, ho2⟩ := State.frameOffset_some hc
        exact absurd ho2.symm (ha o ho1)
    rw [SMap.get_setAll_other memDefault new rest h1]
    by_cases hx : ∃ v, (a, v) ∈ s.mem
    · obtain ⟨v, hv⟩ := hx
      have hr : (a, v) ∈ rest := List.mem_filter.2 ⟨hv, h2⟩
      have hw : SMap.wf memDefault rest = true := SMap.wf_filter _ h
      rw [SMap.get_of_mem h hv, SMap.get_of_mem hw hr]
    · rw [SMap.get_of_not_mem, SMap.get_of_not_mem]
      · intro e he heq; exact hx ⟨e.2, heq ▸ he⟩
      · intro e he heq; exact hx ⟨e.2, heq ▸ (List.mem_filter.1 he).1⟩

end Sys2Proof.Machine
end

