-- ==== Sys2Proof/Laws/State.lean ====
section
/-!
SUPPORT. What the updates of the state leave alone, one lemma for each field, and what is read after a write of a core, a cluster, a
register or a byte.
-/

namespace Sys2Proof.Machine

/-! ### Fields that an update of a core leaves alone -/

@[simp] theorem State.setCore_cycle (s : State) (n : Nat) (c : Core) : (s.setCore n c).cycle = s.cycle := rfl
@[simp] theorem State.setCore_mem (s : State) (n : Nat) (c : Core) : (s.setCore n c).mem = s.mem := rfl
@[simp] theorem State.setCore_dit (s : State) (n : Nat) (c : Core) : (s.setCore n c).dit = s.dit := rfl
@[simp] theorem State.setCore_tlbs (s : State) (n : Nat) (c : Core) : (s.setCore n c).tlbs = s.tlbs := rfl
@[simp] theorem State.setCore_roots (s : State) (n : Nat) (c : Core) : (s.setCore n c).roots = s.roots := rfl
@[simp] theorem State.setCore_atomCounts (s : State) (n : Nat) (c : Core) : (s.setCore n c).atomCounts = s.atomCounts := rfl
@[simp] theorem State.setCore_cycleSkew (s : State) (n : Nat) (c : Core) : (s.setCore n c).cycleSkew = s.cycleSkew := rfl
@[simp] theorem State.setCore_crsts (s : State) (n : Nat) (c : Core) : (s.setCore n c).crsts = s.crsts := rfl
@[simp] theorem State.setCore_adds (s : State) (n : Nat) (c : Core) : (s.setCore n c).adds = s.adds := rfl
@[simp] theorem State.setCore_after (s : State) (n : Nat) (c : Core) : (s.setCore n c).after = s.after := rfl
@[simp] theorem State.setCore_later (s : State) (n : Nat) (c : Core) : (s.setCore n c).later = s.later := rfl
@[simp] theorem State.setCore_faults (s : State) (n : Nat) (c : Core) : (s.setCore n c).faults = s.faults := rfl
@[simp] theorem State.setCore_pkg (s : State) (n : Nat) (c : Core) : (s.setCore n c).pkg = s.pkg := rfl
@[simp] theorem State.setCore_windows (s : State) (n : Nat) (c : Core) : (s.setCore n c).windows = s.windows := rfl
@[simp] theorem State.setCore_mirrors (s : State) (n : Nat) (c : Core) : (s.setCore n c).mirrors = s.mirrors := rfl
@[simp] theorem State.setCore_dbgen (s : State) (n : Nat) (c : Core) : (s.setCore n c).dbgen = s.dbgen := rfl
@[simp] theorem State.setCore_power (s : State) (n : Nat) (c : Core) : (s.setCore n c).power = s.power := rfl
@[simp] theorem State.setCore_resetStep (s : State) (n : Nat) (c : Core) : (s.setCore n c).resetStep = s.resetStep := rfl
@[simp] theorem State.setCore_cfgReply (s : State) (n : Nat) (c : Core) : (s.setCore n c).cfgReply = s.cfgReply := rfl
@[simp] theorem State.setCore_tripRec (s : State) (n : Nat) (c : Core) : (s.setCore n c).tripRec = s.tripRec := rfl
@[simp] theorem State.setCore_pwrCap (s : State) (n : Nat) (c : Core) : (s.setCore n c).pwrCap = s.pwrCap := rfl
@[simp] theorem State.setCore_pwrNow (s : State) (n : Nat) (c : Core) : (s.setCore n c).pwrNow = s.pwrNow := rfl
@[simp] theorem State.setCore_temps (s : State) (n : Nat) (c : Core) : (s.setCore n c).temps = s.temps := rfl
@[simp] theorem State.setCore_thermal (s : State) (n : Nat) (c : Core) : (s.setCore n c).thermal = s.thermal := rfl
@[simp] theorem State.setCore_flog (s : State) (n : Nat) (c : Core) : (s.setCore n c).flog = s.flog := rfl
@[simp] theorem State.setCore_flogCnt (s : State) (n : Nat) (c : Core) : (s.setCore n c).flogCnt = s.flogCnt := rfl
@[simp] theorem State.setCore_torus (s : State) (n : Nat) (c : Core) : (s.setCore n c).torus = s.torus := rfl
@[simp] theorem State.setCore_linksDown (s : State) (n : Nat) (c : Core) : (s.setCore n c).linksDown = s.linksDown := rfl
@[simp] theorem State.setCore_lost (s : State) (n : Nat) (c : Core) : (s.setCore n c).lost = s.lost := rfl
@[simp] theorem State.setCore_packets (s : State) (n : Nat) (c : Core) : (s.setCore n c).packets = s.packets := rfl
@[simp] theorem State.setCore_seqs (s : State) (n : Nat) (c : Core) : (s.setCore n c).seqs = s.seqs := rfl
@[simp] theorem State.setCore_portTurn (s : State) (n : Nat) (c : Core) : (s.setCore n c).portTurn = s.portTurn := rfl
@[simp] theorem State.setCore_meshFree (s : State) (n : Nat) (c : Core) : (s.setCore n c).meshFree = s.meshFree := rfl
@[simp] theorem State.setCore_meshQueue (s : State) (n : Nat) (c : Core) : (s.setCore n c).meshQueue = s.meshQueue := rfl
@[simp] theorem State.setCore_groups (s : State) (n : Nat) (c : Core) : (s.setCore n c).groups = s.groups := rfl
@[simp] theorem State.setCore_mcRows (s : State) (n : Nat) (c : Core) : (s.setCore n c).mcRows = s.mcRows := rfl
@[simp] theorem State.setCore_pools (s : State) (n : Nat) (c : Core) : (s.setCore n c).pools = s.pools := rfl
@[simp] theorem State.setCore_hits (s : State) (n : Nat) (c : Core) : (s.setCore n c).hits = s.hits := rfl
@[simp] theorem State.setCore_hitSeen (s : State) (n : Nat) (c : Core) : (s.setCore n c).hitSeen = s.hitSeen := rfl
@[simp] theorem State.setCore_hpt (s : State) (n : Nat) (c : Core) : (s.setCore n c).hpt = s.hpt := rfl
@[simp] theorem State.setCore_hptNext (s : State) (n : Nat) (c : Core) : (s.setCore n c).hptNext = s.hptNext := rfl
@[simp] theorem State.setCore_trackStart (s : State) (n : Nat) (c : Core) : (s.setCore n c).trackStart = s.trackStart := rfl
@[simp] theorem State.setCore_moves (s : State) (n : Nat) (c : Core) : (s.setCore n c).moves = s.moves := rfl
@[simp] theorem State.setCore_poolNew (s : State) (n : Nat) (c : Core) : (s.setCore n c).poolNew = s.poolNew := rfl
@[simp] theorem State.setCore_chanCtrs (s : State) (n : Nat) (c : Core) : (s.setCore n c).chanCtrs = s.chanCtrs := rfl
@[simp] theorem State.setCore_sleepNext (s : State) (n : Nat) (c : Core) : (s.setCore n c).sleepNext = s.sleepNext := rfl
@[simp] theorem State.setCore_tierLanes (s : State) (n : Nat) (c : Core) : (s.setCore n c).tierLanes = s.tierLanes := rfl
@[simp] theorem State.setCore_chans (s : State) (n : Nat) (c : Core) : (s.setCore n c).chans = s.chans := rfl
@[simp] theorem State.setCore_nodes (s : State) (n : Nat) (c : Core) : (s.setCore n c).nodes = s.nodes := rfl
@[simp] theorem State.setCore_graphs (s : State) (n : Nat) (c : Core) : (s.setCore n c).graphs = s.graphs := rfl
@[simp] theorem State.setCore_ctxs (s : State) (n : Nat) (c : Core) : (s.setCore n c).ctxs = s.ctxs := rfl
@[simp] theorem State.setCore_owners (s : State) (n : Nat) (c : Core) : (s.setCore n c).owners = s.owners := rfl
@[simp] theorem State.setCore_reports (s : State) (n : Nat) (c : Core) : (s.setCore n c).reports = s.reports := rfl
@[simp] theorem State.setCore_vifs (s : State) (n : Nat) (c : Core) : (s.setCore n c).vifs = s.vifs := rfl
@[simp] theorem State.setCore_rings (s : State) (n : Nat) (c : Core) : (s.setCore n c).rings = s.rings := rfl
@[simp] theorem State.setCore_served (s : State) (n : Nat) (c : Core) : (s.setCore n c).served = s.served := rfl
@[simp] theorem State.setCore_dispatches (s : State) (n : Nat) (c : Core) : (s.setCore n c).dispatches = s.dispatches := rfl
@[simp] theorem State.setCore_lates (s : State) (n : Nat) (c : Core) : (s.setCore n c).lates = s.lates := rfl
@[simp] theorem State.setCore_clears (s : State) (n : Nat) (c : Core) : (s.setCore n c).clears = s.clears := rfl
@[simp] theorem State.setCore_tickets (s : State) (n : Nat) (c : Core) : (s.setCore n c).tickets = s.tickets := rfl
@[simp] theorem State.setCore_curCore (s : State) (n : Nat) (c : Core) : (s.setCore n c).curCore = s.curCore := rfl
@[simp] theorem State.setCore_curCl (s : State) (n : Nat) (c : Core) : (s.setCore n c).curCl = s.curCl := rfl
@[simp] theorem State.setCore_curQueue (s : State) (n : Nat) (c : Core) : (s.setCore n c).curQueue = s.curQueue := rfl
@[simp] theorem State.setCore_ir (s : State) (n : Nat) (c : Core) : (s.setCore n c).ir = s.ir := rfl
@[simp] theorem State.setCore_ev (s : State) (n : Nat) (c : Core) : (s.setCore n c).ev = s.ev := rfl
@[simp] theorem State.setCore_turn (s : State) (n : Nat) (c : Core) : (s.setCore n c).turn = s.turn := rfl
@[simp] theorem State.setCore_agenda (s : State) (n : Nat) (c : Core) : (s.setCore n c).agenda = s.agenda := rfl
@[simp] theorem State.setCore_times (s : State) (n : Nat) (c : Core) : (s.setCore n c).times = s.times := rfl
@[simp] theorem State.setCore_nextId (s : State) (n : Nat) (c : Core) : (s.setCore n c).nextId = s.nextId := rfl
@[simp] theorem State.setCore_freeCtr (s : State) (n : Nat) (c : Core) : (s.setCore n c).freeCtr = s.freeCtr := rfl

@[simp] theorem State.modCore_cycle (s : State) (n : Nat) (f : Core → Core) : (s.modCore n f).cycle = s.cycle := rfl
@[simp] theorem State.modCore_mem (s : State) (n : Nat) (f : Core → Core) : (s.modCore n f).mem = s.mem := rfl
@[simp] theorem State.modCore_dit (s : State) (n : Nat) (f : Core → Core) : (s.modCore n f).dit = s.dit := rfl
@[simp] theorem State.modCore_tlbs (s : State) (n : Nat) (f : Core → Core) : (s.modCore n f).tlbs = s.tlbs := rfl
@[simp] theorem State.modCore_roots (s : State) (n : Nat) (f : Core → Core) : (s.modCore n f).roots = s.roots := rfl
@[simp] theorem State.modCore_atomCounts (s : State) (n : Nat) (f : Core → Core) : (s.modCore n f).atomCounts = s.atomCounts := rfl
@[simp] theorem State.modCore_cycleSkew (s : State) (n : Nat) (f : Core → Core) : (s.modCore n f).cycleSkew = s.cycleSkew := rfl
@[simp] theorem State.modCore_crsts (s : State) (n : Nat) (f : Core → Core) : (s.modCore n f).crsts = s.crsts := rfl
@[simp] theorem State.modCore_adds (s : State) (n : Nat) (f : Core → Core) : (s.modCore n f).adds = s.adds := rfl
@[simp] theorem State.modCore_after (s : State) (n : Nat) (f : Core → Core) : (s.modCore n f).after = s.after := rfl
@[simp] theorem State.modCore_later (s : State) (n : Nat) (f : Core → Core) : (s.modCore n f).later = s.later := rfl
@[simp] theorem State.modCore_faults (s : State) (n : Nat) (f : Core → Core) : (s.modCore n f).faults = s.faults := rfl
@[simp] theorem State.modCore_pkg (s : State) (n : Nat) (f : Core → Core) : (s.modCore n f).pkg = s.pkg := rfl
@[simp] theorem State.modCore_windows (s : State) (n : Nat) (f : Core → Core) : (s.modCore n f).windows = s.windows := rfl
@[simp] theorem State.modCore_mirrors (s : State) (n : Nat) (f : Core → Core) : (s.modCore n f).mirrors = s.mirrors := rfl
@[simp] theorem State.modCore_dbgen (s : State) (n : Nat) (f : Core → Core) : (s.modCore n f).dbgen = s.dbgen := rfl
@[simp] theorem State.modCore_power (s : State) (n : Nat) (f : Core → Core) : (s.modCore n f).power = s.power := rfl
@[simp] theorem State.modCore_resetStep (s : State) (n : Nat) (f : Core → Core) : (s.modCore n f).resetStep = s.resetStep := rfl
@[simp] theorem State.modCore_cfgReply (s : State) (n : Nat) (f : Core → Core) : (s.modCore n f).cfgReply = s.cfgReply := rfl
@[simp] theorem State.modCore_tripRec (s : State) (n : Nat) (f : Core → Core) : (s.modCore n f).tripRec = s.tripRec := rfl
@[simp] theorem State.modCore_pwrCap (s : State) (n : Nat) (f : Core → Core) : (s.modCore n f).pwrCap = s.pwrCap := rfl
@[simp] theorem State.modCore_pwrNow (s : State) (n : Nat) (f : Core → Core) : (s.modCore n f).pwrNow = s.pwrNow := rfl
@[simp] theorem State.modCore_temps (s : State) (n : Nat) (f : Core → Core) : (s.modCore n f).temps = s.temps := rfl
@[simp] theorem State.modCore_thermal (s : State) (n : Nat) (f : Core → Core) : (s.modCore n f).thermal = s.thermal := rfl
@[simp] theorem State.modCore_flog (s : State) (n : Nat) (f : Core → Core) : (s.modCore n f).flog = s.flog := rfl
@[simp] theorem State.modCore_flogCnt (s : State) (n : Nat) (f : Core → Core) : (s.modCore n f).flogCnt = s.flogCnt := rfl
@[simp] theorem State.modCore_torus (s : State) (n : Nat) (f : Core → Core) : (s.modCore n f).torus = s.torus := rfl
@[simp] theorem State.modCore_linksDown (s : State) (n : Nat) (f : Core → Core) : (s.modCore n f).linksDown = s.linksDown := rfl
@[simp] theorem State.modCore_lost (s : State) (n : Nat) (f : Core → Core) : (s.modCore n f).lost = s.lost := rfl
@[simp] theorem State.modCore_packets (s : State) (n : Nat) (f : Core → Core) : (s.modCore n f).packets = s.packets := rfl
@[simp] theorem State.modCore_seqs (s : State) (n : Nat) (f : Core → Core) : (s.modCore n f).seqs = s.seqs := rfl
@[simp] theorem State.modCore_portTurn (s : State) (n : Nat) (f : Core → Core) : (s.modCore n f).portTurn = s.portTurn := rfl
@[simp] theorem State.modCore_meshFree (s : State) (n : Nat) (f : Core → Core) : (s.modCore n f).meshFree = s.meshFree := rfl
@[simp] theorem State.modCore_meshQueue (s : State) (n : Nat) (f : Core → Core) : (s.modCore n f).meshQueue = s.meshQueue := rfl
@[simp] theorem State.modCore_groups (s : State) (n : Nat) (f : Core → Core) : (s.modCore n f).groups = s.groups := rfl
@[simp] theorem State.modCore_mcRows (s : State) (n : Nat) (f : Core → Core) : (s.modCore n f).mcRows = s.mcRows := rfl
@[simp] theorem State.modCore_pools (s : State) (n : Nat) (f : Core → Core) : (s.modCore n f).pools = s.pools := rfl
@[simp] theorem State.modCore_hits (s : State) (n : Nat) (f : Core → Core) : (s.modCore n f).hits = s.hits := rfl
@[simp] theorem State.modCore_hitSeen (s : State) (n : Nat) (f : Core → Core) : (s.modCore n f).hitSeen = s.hitSeen := rfl
@[simp] theorem State.modCore_hpt (s : State) (n : Nat) (f : Core → Core) : (s.modCore n f).hpt = s.hpt := rfl
@[simp] theorem State.modCore_hptNext (s : State) (n : Nat) (f : Core → Core) : (s.modCore n f).hptNext = s.hptNext := rfl
@[simp] theorem State.modCore_trackStart (s : State) (n : Nat) (f : Core → Core) : (s.modCore n f).trackStart = s.trackStart := rfl
@[simp] theorem State.modCore_moves (s : State) (n : Nat) (f : Core → Core) : (s.modCore n f).moves = s.moves := rfl
@[simp] theorem State.modCore_poolNew (s : State) (n : Nat) (f : Core → Core) : (s.modCore n f).poolNew = s.poolNew := rfl
@[simp] theorem State.modCore_chanCtrs (s : State) (n : Nat) (f : Core → Core) : (s.modCore n f).chanCtrs = s.chanCtrs := rfl
@[simp] theorem State.modCore_sleepNext (s : State) (n : Nat) (f : Core → Core) : (s.modCore n f).sleepNext = s.sleepNext := rfl
@[simp] theorem State.modCore_tierLanes (s : State) (n : Nat) (f : Core → Core) : (s.modCore n f).tierLanes = s.tierLanes := rfl
@[simp] theorem State.modCore_chans (s : State) (n : Nat) (f : Core → Core) : (s.modCore n f).chans = s.chans := rfl
@[simp] theorem State.modCore_nodes (s : State) (n : Nat) (f : Core → Core) : (s.modCore n f).nodes = s.nodes := rfl
@[simp] theorem State.modCore_graphs (s : State) (n : Nat) (f : Core → Core) : (s.modCore n f).graphs = s.graphs := rfl
@[simp] theorem State.modCore_ctxs (s : State) (n : Nat) (f : Core → Core) : (s.modCore n f).ctxs = s.ctxs := rfl
@[simp] theorem State.modCore_owners (s : State) (n : Nat) (f : Core → Core) : (s.modCore n f).owners = s.owners := rfl
@[simp] theorem State.modCore_reports (s : State) (n : Nat) (f : Core → Core) : (s.modCore n f).reports = s.reports := rfl
@[simp] theorem State.modCore_vifs (s : State) (n : Nat) (f : Core → Core) : (s.modCore n f).vifs = s.vifs := rfl
@[simp] theorem State.modCore_rings (s : State) (n : Nat) (f : Core → Core) : (s.modCore n f).rings = s.rings := rfl
@[simp] theorem State.modCore_served (s : State) (n : Nat) (f : Core → Core) : (s.modCore n f).served = s.served := rfl
@[simp] theorem State.modCore_dispatches (s : State) (n : Nat) (f : Core → Core) : (s.modCore n f).dispatches = s.dispatches := rfl
@[simp] theorem State.modCore_lates (s : State) (n : Nat) (f : Core → Core) : (s.modCore n f).lates = s.lates := rfl
@[simp] theorem State.modCore_clears (s : State) (n : Nat) (f : Core → Core) : (s.modCore n f).clears = s.clears := rfl
@[simp] theorem State.modCore_tickets (s : State) (n : Nat) (f : Core → Core) : (s.modCore n f).tickets = s.tickets := rfl
@[simp] theorem State.modCore_curCore (s : State) (n : Nat) (f : Core → Core) : (s.modCore n f).curCore = s.curCore := rfl
@[simp] theorem State.modCore_curCl (s : State) (n : Nat) (f : Core → Core) : (s.modCore n f).curCl = s.curCl := rfl
@[simp] theorem State.modCore_curQueue (s : State) (n : Nat) (f : Core → Core) : (s.modCore n f).curQueue = s.curQueue := rfl
@[simp] theorem State.modCore_ir (s : State) (n : Nat) (f : Core → Core) : (s.modCore n f).ir = s.ir := rfl
@[simp] theorem State.modCore_ev (s : State) (n : Nat) (f : Core → Core) : (s.modCore n f).ev = s.ev := rfl
@[simp] theorem State.modCore_turn (s : State) (n : Nat) (f : Core → Core) : (s.modCore n f).turn = s.turn := rfl
@[simp] theorem State.modCore_agenda (s : State) (n : Nat) (f : Core → Core) : (s.modCore n f).agenda = s.agenda := rfl
@[simp] theorem State.modCore_times (s : State) (n : Nat) (f : Core → Core) : (s.modCore n f).times = s.times := rfl
@[simp] theorem State.modCore_nextId (s : State) (n : Nat) (f : Core → Core) : (s.modCore n f).nextId = s.nextId := rfl
@[simp] theorem State.modCore_freeCtr (s : State) (n : Nat) (f : Core → Core) : (s.modCore n f).freeCtr = s.freeCtr := rfl

@[simp] theorem State.modCluster_cycle (s : State) (n c : Nat) (f : Cluster → Cluster) : (s.modCluster n c f).cycle = s.cycle := rfl
@[simp] theorem State.modCluster_mem (s : State) (n c : Nat) (f : Cluster → Cluster) : (s.modCluster n c f).mem = s.mem := rfl
@[simp] theorem State.modCluster_dit (s : State) (n c : Nat) (f : Cluster → Cluster) : (s.modCluster n c f).dit = s.dit := rfl
@[simp] theorem State.modCluster_tlbs (s : State) (n c : Nat) (f : Cluster → Cluster) : (s.modCluster n c f).tlbs = s.tlbs := rfl
@[simp] theorem State.modCluster_roots (s : State) (n c : Nat) (f : Cluster → Cluster) : (s.modCluster n c f).roots = s.roots := rfl
@[simp] theorem State.modCluster_atomCounts (s : State) (n c : Nat) (f : Cluster → Cluster) : (s.modCluster n c f).atomCounts = s.atomCounts := rfl
@[simp] theorem State.modCluster_cycleSkew (s : State) (n c : Nat) (f : Cluster → Cluster) : (s.modCluster n c f).cycleSkew = s.cycleSkew := rfl
@[simp] theorem State.modCluster_crsts (s : State) (n c : Nat) (f : Cluster → Cluster) : (s.modCluster n c f).crsts = s.crsts := rfl
@[simp] theorem State.modCluster_adds (s : State) (n c : Nat) (f : Cluster → Cluster) : (s.modCluster n c f).adds = s.adds := rfl
@[simp] theorem State.modCluster_after (s : State) (n c : Nat) (f : Cluster → Cluster) : (s.modCluster n c f).after = s.after := rfl
@[simp] theorem State.modCluster_later (s : State) (n c : Nat) (f : Cluster → Cluster) : (s.modCluster n c f).later = s.later := rfl
@[simp] theorem State.modCluster_faults (s : State) (n c : Nat) (f : Cluster → Cluster) : (s.modCluster n c f).faults = s.faults := rfl
@[simp] theorem State.modCluster_pkg (s : State) (n c : Nat) (f : Cluster → Cluster) : (s.modCluster n c f).pkg = s.pkg := rfl
@[simp] theorem State.modCluster_windows (s : State) (n c : Nat) (f : Cluster → Cluster) : (s.modCluster n c f).windows = s.windows := rfl
@[simp] theorem State.modCluster_mirrors (s : State) (n c : Nat) (f : Cluster → Cluster) : (s.modCluster n c f).mirrors = s.mirrors := rfl
@[simp] theorem State.modCluster_dbgen (s : State) (n c : Nat) (f : Cluster → Cluster) : (s.modCluster n c f).dbgen = s.dbgen := rfl
@[simp] theorem State.modCluster_power (s : State) (n c : Nat) (f : Cluster → Cluster) : (s.modCluster n c f).power = s.power := rfl
@[simp] theorem State.modCluster_resetStep (s : State) (n c : Nat) (f : Cluster → Cluster) : (s.modCluster n c f).resetStep = s.resetStep := rfl
@[simp] theorem State.modCluster_cfgReply (s : State) (n c : Nat) (f : Cluster → Cluster) : (s.modCluster n c f).cfgReply = s.cfgReply := rfl
@[simp] theorem State.modCluster_tripRec (s : State) (n c : Nat) (f : Cluster → Cluster) : (s.modCluster n c f).tripRec = s.tripRec := rfl
@[simp] theorem State.modCluster_pwrCap (s : State) (n c : Nat) (f : Cluster → Cluster) : (s.modCluster n c f).pwrCap = s.pwrCap := rfl
@[simp] theorem State.modCluster_pwrNow (s : State) (n c : Nat) (f : Cluster → Cluster) : (s.modCluster n c f).pwrNow = s.pwrNow := rfl
@[simp] theorem State.modCluster_temps (s : State) (n c : Nat) (f : Cluster → Cluster) : (s.modCluster n c f).temps = s.temps := rfl
@[simp] theorem State.modCluster_thermal (s : State) (n c : Nat) (f : Cluster → Cluster) : (s.modCluster n c f).thermal = s.thermal := rfl
@[simp] theorem State.modCluster_flog (s : State) (n c : Nat) (f : Cluster → Cluster) : (s.modCluster n c f).flog = s.flog := rfl
@[simp] theorem State.modCluster_flogCnt (s : State) (n c : Nat) (f : Cluster → Cluster) : (s.modCluster n c f).flogCnt = s.flogCnt := rfl
@[simp] theorem State.modCluster_torus (s : State) (n c : Nat) (f : Cluster → Cluster) : (s.modCluster n c f).torus = s.torus := rfl
@[simp] theorem State.modCluster_linksDown (s : State) (n c : Nat) (f : Cluster → Cluster) : (s.modCluster n c f).linksDown = s.linksDown := rfl
@[simp] theorem State.modCluster_lost (s : State) (n c : Nat) (f : Cluster → Cluster) : (s.modCluster n c f).lost = s.lost := rfl
@[simp] theorem State.modCluster_packets (s : State) (n c : Nat) (f : Cluster → Cluster) : (s.modCluster n c f).packets = s.packets := rfl
@[simp] theorem State.modCluster_seqs (s : State) (n c : Nat) (f : Cluster → Cluster) : (s.modCluster n c f).seqs = s.seqs := rfl
@[simp] theorem State.modCluster_portTurn (s : State) (n c : Nat) (f : Cluster → Cluster) : (s.modCluster n c f).portTurn = s.portTurn := rfl
@[simp] theorem State.modCluster_meshFree (s : State) (n c : Nat) (f : Cluster → Cluster) : (s.modCluster n c f).meshFree = s.meshFree := rfl
@[simp] theorem State.modCluster_meshQueue (s : State) (n c : Nat) (f : Cluster → Cluster) : (s.modCluster n c f).meshQueue = s.meshQueue := rfl
@[simp] theorem State.modCluster_groups (s : State) (n c : Nat) (f : Cluster → Cluster) : (s.modCluster n c f).groups = s.groups := rfl
@[simp] theorem State.modCluster_mcRows (s : State) (n c : Nat) (f : Cluster → Cluster) : (s.modCluster n c f).mcRows = s.mcRows := rfl
@[simp] theorem State.modCluster_pools (s : State) (n c : Nat) (f : Cluster → Cluster) : (s.modCluster n c f).pools = s.pools := rfl
@[simp] theorem State.modCluster_hits (s : State) (n c : Nat) (f : Cluster → Cluster) : (s.modCluster n c f).hits = s.hits := rfl
@[simp] theorem State.modCluster_hitSeen (s : State) (n c : Nat) (f : Cluster → Cluster) : (s.modCluster n c f).hitSeen = s.hitSeen := rfl
@[simp] theorem State.modCluster_hpt (s : State) (n c : Nat) (f : Cluster → Cluster) : (s.modCluster n c f).hpt = s.hpt := rfl
@[simp] theorem State.modCluster_hptNext (s : State) (n c : Nat) (f : Cluster → Cluster) : (s.modCluster n c f).hptNext = s.hptNext := rfl
@[simp] theorem State.modCluster_trackStart (s : State) (n c : Nat) (f : Cluster → Cluster) : (s.modCluster n c f).trackStart = s.trackStart := rfl
@[simp] theorem State.modCluster_moves (s : State) (n c : Nat) (f : Cluster → Cluster) : (s.modCluster n c f).moves = s.moves := rfl
@[simp] theorem State.modCluster_poolNew (s : State) (n c : Nat) (f : Cluster → Cluster) : (s.modCluster n c f).poolNew = s.poolNew := rfl
@[simp] theorem State.modCluster_chanCtrs (s : State) (n c : Nat) (f : Cluster → Cluster) : (s.modCluster n c f).chanCtrs = s.chanCtrs := rfl
@[simp] theorem State.modCluster_sleepNext (s : State) (n c : Nat) (f : Cluster → Cluster) : (s.modCluster n c f).sleepNext = s.sleepNext := rfl
@[simp] theorem State.modCluster_tierLanes (s : State) (n c : Nat) (f : Cluster → Cluster) : (s.modCluster n c f).tierLanes = s.tierLanes := rfl
@[simp] theorem State.modCluster_chans (s : State) (n c : Nat) (f : Cluster → Cluster) : (s.modCluster n c f).chans = s.chans := rfl
@[simp] theorem State.modCluster_nodes (s : State) (n c : Nat) (f : Cluster → Cluster) : (s.modCluster n c f).nodes = s.nodes := rfl
@[simp] theorem State.modCluster_graphs (s : State) (n c : Nat) (f : Cluster → Cluster) : (s.modCluster n c f).graphs = s.graphs := rfl
@[simp] theorem State.modCluster_ctxs (s : State) (n c : Nat) (f : Cluster → Cluster) : (s.modCluster n c f).ctxs = s.ctxs := rfl
@[simp] theorem State.modCluster_owners (s : State) (n c : Nat) (f : Cluster → Cluster) : (s.modCluster n c f).owners = s.owners := rfl
@[simp] theorem State.modCluster_reports (s : State) (n c : Nat) (f : Cluster → Cluster) : (s.modCluster n c f).reports = s.reports := rfl
@[simp] theorem State.modCluster_vifs (s : State) (n c : Nat) (f : Cluster → Cluster) : (s.modCluster n c f).vifs = s.vifs := rfl
@[simp] theorem State.modCluster_rings (s : State) (n c : Nat) (f : Cluster → Cluster) : (s.modCluster n c f).rings = s.rings := rfl
@[simp] theorem State.modCluster_served (s : State) (n c : Nat) (f : Cluster → Cluster) : (s.modCluster n c f).served = s.served := rfl
@[simp] theorem State.modCluster_dispatches (s : State) (n c : Nat) (f : Cluster → Cluster) : (s.modCluster n c f).dispatches = s.dispatches := rfl
@[simp] theorem State.modCluster_lates (s : State) (n c : Nat) (f : Cluster → Cluster) : (s.modCluster n c f).lates = s.lates := rfl
@[simp] theorem State.modCluster_clears (s : State) (n c : Nat) (f : Cluster → Cluster) : (s.modCluster n c f).clears = s.clears := rfl
@[simp] theorem State.modCluster_tickets (s : State) (n c : Nat) (f : Cluster → Cluster) : (s.modCluster n c f).tickets = s.tickets := rfl
@[simp] theorem State.modCluster_curCore (s : State) (n c : Nat) (f : Cluster → Cluster) : (s.modCluster n c f).curCore = s.curCore := rfl
@[simp] theorem State.modCluster_curCl (s : State) (n c : Nat) (f : Cluster → Cluster) : (s.modCluster n c f).curCl = s.curCl := rfl
@[simp] theorem State.modCluster_curQueue (s : State) (n c : Nat) (f : Cluster → Cluster) : (s.modCluster n c f).curQueue = s.curQueue := rfl
@[simp] theorem State.modCluster_ir (s : State) (n c : Nat) (f : Cluster → Cluster) : (s.modCluster n c f).ir = s.ir := rfl
@[simp] theorem State.modCluster_ev (s : State) (n c : Nat) (f : Cluster → Cluster) : (s.modCluster n c f).ev = s.ev := rfl
@[simp] theorem State.modCluster_turn (s : State) (n c : Nat) (f : Cluster → Cluster) : (s.modCluster n c f).turn = s.turn := rfl
@[simp] theorem State.modCluster_agenda (s : State) (n c : Nat) (f : Cluster → Cluster) : (s.modCluster n c f).agenda = s.agenda := rfl
@[simp] theorem State.modCluster_times (s : State) (n c : Nat) (f : Cluster → Cluster) : (s.modCluster n c f).times = s.times := rfl
@[simp] theorem State.modCluster_nextId (s : State) (n c : Nat) (f : Cluster → Cluster) : (s.modCluster n c f).nextId = s.nextId := rfl
@[simp] theorem State.modCluster_freeCtr (s : State) (n c : Nat) (f : Cluster → Cluster) : (s.modCluster n c f).freeCtr = s.freeCtr := rfl

@[simp] theorem State.modMe_cycle (s : State) (f : Cluster → Cluster) : (s.modMe f).cycle = s.cycle := rfl
@[simp] theorem State.modMe_mem (s : State) (f : Cluster → Cluster) : (s.modMe f).mem = s.mem := rfl
@[simp] theorem State.modMe_dit (s : State) (f : Cluster → Cluster) : (s.modMe f).dit = s.dit := rfl
@[simp] theorem State.modMe_tlbs (s : State) (f : Cluster → Cluster) : (s.modMe f).tlbs = s.tlbs := rfl
@[simp] theorem State.modMe_roots (s : State) (f : Cluster → Cluster) : (s.modMe f).roots = s.roots := rfl
@[simp] theorem State.modMe_atomCounts (s : State) (f : Cluster → Cluster) : (s.modMe f).atomCounts = s.atomCounts := rfl
@[simp] theorem State.modMe_cycleSkew (s : State) (f : Cluster → Cluster) : (s.modMe f).cycleSkew = s.cycleSkew := rfl
@[simp] theorem State.modMe_crsts (s : State) (f : Cluster → Cluster) : (s.modMe f).crsts = s.crsts := rfl
@[simp] theorem State.modMe_adds (s : State) (f : Cluster → Cluster) : (s.modMe f).adds = s.adds := rfl
@[simp] theorem State.modMe_after (s : State) (f : Cluster → Cluster) : (s.modMe f).after = s.after := rfl
@[simp] theorem State.modMe_later (s : State) (f : Cluster → Cluster) : (s.modMe f).later = s.later := rfl
@[simp] theorem State.modMe_faults (s : State) (f : Cluster → Cluster) : (s.modMe f).faults = s.faults := rfl
@[simp] theorem State.modMe_pkg (s : State) (f : Cluster → Cluster) : (s.modMe f).pkg = s.pkg := rfl
@[simp] theorem State.modMe_windows (s : State) (f : Cluster → Cluster) : (s.modMe f).windows = s.windows := rfl
@[simp] theorem State.modMe_mirrors (s : State) (f : Cluster → Cluster) : (s.modMe f).mirrors = s.mirrors := rfl
@[simp] theorem State.modMe_dbgen (s : State) (f : Cluster → Cluster) : (s.modMe f).dbgen = s.dbgen := rfl
@[simp] theorem State.modMe_power (s : State) (f : Cluster → Cluster) : (s.modMe f).power = s.power := rfl
@[simp] theorem State.modMe_resetStep (s : State) (f : Cluster → Cluster) : (s.modMe f).resetStep = s.resetStep := rfl
@[simp] theorem State.modMe_cfgReply (s : State) (f : Cluster → Cluster) : (s.modMe f).cfgReply = s.cfgReply := rfl
@[simp] theorem State.modMe_tripRec (s : State) (f : Cluster → Cluster) : (s.modMe f).tripRec = s.tripRec := rfl
@[simp] theorem State.modMe_pwrCap (s : State) (f : Cluster → Cluster) : (s.modMe f).pwrCap = s.pwrCap := rfl
@[simp] theorem State.modMe_pwrNow (s : State) (f : Cluster → Cluster) : (s.modMe f).pwrNow = s.pwrNow := rfl
@[simp] theorem State.modMe_temps (s : State) (f : Cluster → Cluster) : (s.modMe f).temps = s.temps := rfl
@[simp] theorem State.modMe_thermal (s : State) (f : Cluster → Cluster) : (s.modMe f).thermal = s.thermal := rfl
@[simp] theorem State.modMe_flog (s : State) (f : Cluster → Cluster) : (s.modMe f).flog = s.flog := rfl
@[simp] theorem State.modMe_flogCnt (s : State) (f : Cluster → Cluster) : (s.modMe f).flogCnt = s.flogCnt := rfl
@[simp] theorem State.modMe_torus (s : State) (f : Cluster → Cluster) : (s.modMe f).torus = s.torus := rfl
@[simp] theorem State.modMe_linksDown (s : State) (f : Cluster → Cluster) : (s.modMe f).linksDown = s.linksDown := rfl
@[simp] theorem State.modMe_lost (s : State) (f : Cluster → Cluster) : (s.modMe f).lost = s.lost := rfl
@[simp] theorem State.modMe_packets (s : State) (f : Cluster → Cluster) : (s.modMe f).packets = s.packets := rfl
@[simp] theorem State.modMe_seqs (s : State) (f : Cluster → Cluster) : (s.modMe f).seqs = s.seqs := rfl
@[simp] theorem State.modMe_portTurn (s : State) (f : Cluster → Cluster) : (s.modMe f).portTurn = s.portTurn := rfl
@[simp] theorem State.modMe_meshFree (s : State) (f : Cluster → Cluster) : (s.modMe f).meshFree = s.meshFree := rfl
@[simp] theorem State.modMe_meshQueue (s : State) (f : Cluster → Cluster) : (s.modMe f).meshQueue = s.meshQueue := rfl
@[simp] theorem State.modMe_groups (s : State) (f : Cluster → Cluster) : (s.modMe f).groups = s.groups := rfl
@[simp] theorem State.modMe_mcRows (s : State) (f : Cluster → Cluster) : (s.modMe f).mcRows = s.mcRows := rfl
@[simp] theorem State.modMe_pools (s : State) (f : Cluster → Cluster) : (s.modMe f).pools = s.pools := rfl
@[simp] theorem State.modMe_hits (s : State) (f : Cluster → Cluster) : (s.modMe f).hits = s.hits := rfl
@[simp] theorem State.modMe_hitSeen (s : State) (f : Cluster → Cluster) : (s.modMe f).hitSeen = s.hitSeen := rfl
@[simp] theorem State.modMe_hpt (s : State) (f : Cluster → Cluster) : (s.modMe f).hpt = s.hpt := rfl
@[simp] theorem State.modMe_hptNext (s : State) (f : Cluster → Cluster) : (s.modMe f).hptNext = s.hptNext := rfl
@[simp] theorem State.modMe_trackStart (s : State) (f : Cluster → Cluster) : (s.modMe f).trackStart = s.trackStart := rfl
@[simp] theorem State.modMe_moves (s : State) (f : Cluster → Cluster) : (s.modMe f).moves = s.moves := rfl
@[simp] theorem State.modMe_poolNew (s : State) (f : Cluster → Cluster) : (s.modMe f).poolNew = s.poolNew := rfl
@[simp] theorem State.modMe_chanCtrs (s : State) (f : Cluster → Cluster) : (s.modMe f).chanCtrs = s.chanCtrs := rfl
@[simp] theorem State.modMe_sleepNext (s : State) (f : Cluster → Cluster) : (s.modMe f).sleepNext = s.sleepNext := rfl
@[simp] theorem State.modMe_tierLanes (s : State) (f : Cluster → Cluster) : (s.modMe f).tierLanes = s.tierLanes := rfl
@[simp] theorem State.modMe_chans (s : State) (f : Cluster → Cluster) : (s.modMe f).chans = s.chans := rfl
@[simp] theorem State.modMe_nodes (s : State) (f : Cluster → Cluster) : (s.modMe f).nodes = s.nodes := rfl
@[simp] theorem State.modMe_graphs (s : State) (f : Cluster → Cluster) : (s.modMe f).graphs = s.graphs := rfl
@[simp] theorem State.modMe_ctxs (s : State) (f : Cluster → Cluster) : (s.modMe f).ctxs = s.ctxs := rfl
@[simp] theorem State.modMe_owners (s : State) (f : Cluster → Cluster) : (s.modMe f).owners = s.owners := rfl
@[simp] theorem State.modMe_reports (s : State) (f : Cluster → Cluster) : (s.modMe f).reports = s.reports := rfl
@[simp] theorem State.modMe_vifs (s : State) (f : Cluster → Cluster) : (s.modMe f).vifs = s.vifs := rfl
@[simp] theorem State.modMe_rings (s : State) (f : Cluster → Cluster) : (s.modMe f).rings = s.rings := rfl
@[simp] theorem State.modMe_served (s : State) (f : Cluster → Cluster) : (s.modMe f).served = s.served := rfl
@[simp] theorem State.modMe_dispatches (s : State) (f : Cluster → Cluster) : (s.modMe f).dispatches = s.dispatches := rfl
@[simp] theorem State.modMe_lates (s : State) (f : Cluster → Cluster) : (s.modMe f).lates = s.lates := rfl
@[simp] theorem State.modMe_clears (s : State) (f : Cluster → Cluster) : (s.modMe f).clears = s.clears := rfl
@[simp] theorem State.modMe_tickets (s : State) (f : Cluster → Cluster) : (s.modMe f).tickets = s.tickets := rfl
@[simp] theorem State.modMe_curCore (s : State) (f : Cluster → Cluster) : (s.modMe f).curCore = s.curCore := rfl
@[simp] theorem State.modMe_curCl (s : State) (f : Cluster → Cluster) : (s.modMe f).curCl = s.curCl := rfl
@[simp] theorem State.modMe_curQueue (s : State) (f : Cluster → Cluster) : (s.modMe f).curQueue = s.curQueue := rfl
@[simp] theorem State.modMe_ir (s : State) (f : Cluster → Cluster) : (s.modMe f).ir = s.ir := rfl
@[simp] theorem State.modMe_ev (s : State) (f : Cluster → Cluster) : (s.modMe f).ev = s.ev := rfl
@[simp] theorem State.modMe_turn (s : State) (f : Cluster → Cluster) : (s.modMe f).turn = s.turn := rfl
@[simp] theorem State.modMe_agenda (s : State) (f : Cluster → Cluster) : (s.modMe f).agenda = s.agenda := rfl
@[simp] theorem State.modMe_times (s : State) (f : Cluster → Cluster) : (s.modMe f).times = s.times := rfl
@[simp] theorem State.modMe_nextId (s : State) (f : Cluster → Cluster) : (s.modMe f).nextId = s.nextId := rfl
@[simp] theorem State.modMe_freeCtr (s : State) (f : Cluster → Cluster) : (s.modMe f).freeCtr = s.freeCtr := rfl

@[simp] theorem State.modMyCore_cycle (s : State) (f : Core → Core) : (s.modMyCore f).cycle = s.cycle := rfl
@[simp] theorem State.modMyCore_mem (s : State) (f : Core → Core) : (s.modMyCore f).mem = s.mem := rfl
@[simp] theorem State.modMyCore_dit (s : State) (f : Core → Core) : (s.modMyCore f).dit = s.dit := rfl
@[simp] theorem State.modMyCore_tlbs (s : State) (f : Core → Core) : (s.modMyCore f).tlbs = s.tlbs := rfl
@[simp] theorem State.modMyCore_roots (s : State) (f : Core → Core) : (s.modMyCore f).roots = s.roots := rfl
@[simp] theorem State.modMyCore_atomCounts (s : State) (f : Core → Core) : (s.modMyCore f).atomCounts = s.atomCounts := rfl
@[simp] theorem State.modMyCore_cycleSkew (s : State) (f : Core → Core) : (s.modMyCore f).cycleSkew = s.cycleSkew := rfl
@[simp] theorem State.modMyCore_crsts (s : State) (f : Core → Core) : (s.modMyCore f).crsts = s.crsts := rfl
@[simp] theorem State.modMyCore_adds (s : State) (f : Core → Core) : (s.modMyCore f).adds = s.adds := rfl
@[simp] theorem State.modMyCore_after (s : State) (f : Core → Core) : (s.modMyCore f).after = s.after := rfl
@[simp] theorem State.modMyCore_later (s : State) (f : Core → Core) : (s.modMyCore f).later = s.later := rfl
@[simp] theorem State.modMyCore_faults (s : State) (f : Core → Core) : (s.modMyCore f).faults = s.faults := rfl
@[simp] theorem State.modMyCore_pkg (s : State) (f : Core → Core) : (s.modMyCore f).pkg = s.pkg := rfl
@[simp] theorem State.modMyCore_windows (s : State) (f : Core → Core) : (s.modMyCore f).windows = s.windows := rfl
@[simp] theorem State.modMyCore_mirrors (s : State) (f : Core → Core) : (s.modMyCore f).mirrors = s.mirrors := rfl
@[simp] theorem State.modMyCore_dbgen (s : State) (f : Core → Core) : (s.modMyCore f).dbgen = s.dbgen := rfl
@[simp] theorem State.modMyCore_power (s : State) (f : Core → Core) : (s.modMyCore f).power = s.power := rfl
@[simp] theorem State.modMyCore_resetStep (s : State) (f : Core → Core) : (s.modMyCore f).resetStep = s.resetStep := rfl
@[simp] theorem State.modMyCore_cfgReply (s : State) (f : Core → Core) : (s.modMyCore f).cfgReply = s.cfgReply := rfl
@[simp] theorem State.modMyCore_tripRec (s : State) (f : Core → Core) : (s.modMyCore f).tripRec = s.tripRec := rfl
@[simp] theorem State.modMyCore_pwrCap (s : State) (f : Core → Core) : (s.modMyCore f).pwrCap = s.pwrCap := rfl
@[simp] theorem State.modMyCore_pwrNow (s : State) (f : Core → Core) : (s.modMyCore f).pwrNow = s.pwrNow := rfl
@[simp] theorem State.modMyCore_temps (s : State) (f : Core → Core) : (s.modMyCore f).temps = s.temps := rfl
@[simp] theorem State.modMyCore_thermal (s : State) (f : Core → Core) : (s.modMyCore f).thermal = s.thermal := rfl
@[simp] theorem State.modMyCore_flog (s : State) (f : Core → Core) : (s.modMyCore f).flog = s.flog := rfl
@[simp] theorem State.modMyCore_flogCnt (s : State) (f : Core → Core) : (s.modMyCore f).flogCnt = s.flogCnt := rfl
@[simp] theorem State.modMyCore_torus (s : State) (f : Core → Core) : (s.modMyCore f).torus = s.torus := rfl
@[simp] theorem State.modMyCore_linksDown (s : State) (f : Core → Core) : (s.modMyCore f).linksDown = s.linksDown := rfl
@[simp] theorem State.modMyCore_lost (s : State) (f : Core → Core) : (s.modMyCore f).lost = s.lost := rfl
@[simp] theorem State.modMyCore_packets (s : State) (f : Core → Core) : (s.modMyCore f).packets = s.packets := rfl
@[simp] theorem State.modMyCore_seqs (s : State) (f : Core → Core) : (s.modMyCore f).seqs = s.seqs := rfl
@[simp] theorem State.modMyCore_portTurn (s : State) (f : Core → Core) : (s.modMyCore f).portTurn = s.portTurn := rfl
@[simp] theorem State.modMyCore_meshFree (s : State) (f : Core → Core) : (s.modMyCore f).meshFree = s.meshFree := rfl
@[simp] theorem State.modMyCore_meshQueue (s : State) (f : Core → Core) : (s.modMyCore f).meshQueue = s.meshQueue := rfl
@[simp] theorem State.modMyCore_groups (s : State) (f : Core → Core) : (s.modMyCore f).groups = s.groups := rfl
@[simp] theorem State.modMyCore_mcRows (s : State) (f : Core → Core) : (s.modMyCore f).mcRows = s.mcRows := rfl
@[simp] theorem State.modMyCore_pools (s : State) (f : Core → Core) : (s.modMyCore f).pools = s.pools := rfl
@[simp] theorem State.modMyCore_hits (s : State) (f : Core → Core) : (s.modMyCore f).hits = s.hits := rfl
@[simp] theorem State.modMyCore_hitSeen (s : State) (f : Core → Core) : (s.modMyCore f).hitSeen = s.hitSeen := rfl
@[simp] theorem State.modMyCore_hpt (s : State) (f : Core → Core) : (s.modMyCore f).hpt = s.hpt := rfl
@[simp] theorem State.modMyCore_hptNext (s : State) (f : Core → Core) : (s.modMyCore f).hptNext = s.hptNext := rfl
@[simp] theorem State.modMyCore_trackStart (s : State) (f : Core → Core) : (s.modMyCore f).trackStart = s.trackStart := rfl
@[simp] theorem State.modMyCore_moves (s : State) (f : Core → Core) : (s.modMyCore f).moves = s.moves := rfl
@[simp] theorem State.modMyCore_poolNew (s : State) (f : Core → Core) : (s.modMyCore f).poolNew = s.poolNew := rfl
@[simp] theorem State.modMyCore_chanCtrs (s : State) (f : Core → Core) : (s.modMyCore f).chanCtrs = s.chanCtrs := rfl
@[simp] theorem State.modMyCore_sleepNext (s : State) (f : Core → Core) : (s.modMyCore f).sleepNext = s.sleepNext := rfl
@[simp] theorem State.modMyCore_tierLanes (s : State) (f : Core → Core) : (s.modMyCore f).tierLanes = s.tierLanes := rfl
@[simp] theorem State.modMyCore_chans (s : State) (f : Core → Core) : (s.modMyCore f).chans = s.chans := rfl
@[simp] theorem State.modMyCore_nodes (s : State) (f : Core → Core) : (s.modMyCore f).nodes = s.nodes := rfl
@[simp] theorem State.modMyCore_graphs (s : State) (f : Core → Core) : (s.modMyCore f).graphs = s.graphs := rfl
@[simp] theorem State.modMyCore_ctxs (s : State) (f : Core → Core) : (s.modMyCore f).ctxs = s.ctxs := rfl
@[simp] theorem State.modMyCore_owners (s : State) (f : Core → Core) : (s.modMyCore f).owners = s.owners := rfl
@[simp] theorem State.modMyCore_reports (s : State) (f : Core → Core) : (s.modMyCore f).reports = s.reports := rfl
@[simp] theorem State.modMyCore_vifs (s : State) (f : Core → Core) : (s.modMyCore f).vifs = s.vifs := rfl
@[simp] theorem State.modMyCore_rings (s : State) (f : Core → Core) : (s.modMyCore f).rings = s.rings := rfl
@[simp] theorem State.modMyCore_served (s : State) (f : Core → Core) : (s.modMyCore f).served = s.served := rfl
@[simp] theorem State.modMyCore_dispatches (s : State) (f : Core → Core) : (s.modMyCore f).dispatches = s.dispatches := rfl
@[simp] theorem State.modMyCore_lates (s : State) (f : Core → Core) : (s.modMyCore f).lates = s.lates := rfl
@[simp] theorem State.modMyCore_clears (s : State) (f : Core → Core) : (s.modMyCore f).clears = s.clears := rfl
@[simp] theorem State.modMyCore_tickets (s : State) (f : Core → Core) : (s.modMyCore f).tickets = s.tickets := rfl
@[simp] theorem State.modMyCore_curCore (s : State) (f : Core → Core) : (s.modMyCore f).curCore = s.curCore := rfl
@[simp] theorem State.modMyCore_curCl (s : State) (f : Core → Core) : (s.modMyCore f).curCl = s.curCl := rfl
@[simp] theorem State.modMyCore_curQueue (s : State) (f : Core → Core) : (s.modMyCore f).curQueue = s.curQueue := rfl
@[simp] theorem State.modMyCore_ir (s : State) (f : Core → Core) : (s.modMyCore f).ir = s.ir := rfl
@[simp] theorem State.modMyCore_ev (s : State) (f : Core → Core) : (s.modMyCore f).ev = s.ev := rfl
@[simp] theorem State.modMyCore_turn (s : State) (f : Core → Core) : (s.modMyCore f).turn = s.turn := rfl
@[simp] theorem State.modMyCore_agenda (s : State) (f : Core → Core) : (s.modMyCore f).agenda = s.agenda := rfl
@[simp] theorem State.modMyCore_times (s : State) (f : Core → Core) : (s.modMyCore f).times = s.times := rfl
@[simp] theorem State.modMyCore_nextId (s : State) (f : Core → Core) : (s.modMyCore f).nextId = s.nextId := rfl
@[simp] theorem State.modMyCore_freeCtr (s : State) (f : Core → Core) : (s.modMyCore f).freeCtr = s.freeCtr := rfl

@[simp] theorem State.land_cycle (s : State) (n c due : Nat) (w : Write) : (s.land n c due w).cycle = s.cycle := rfl
@[simp] theorem State.land_mem (s : State) (n c due : Nat) (w : Write) : (s.land n c due w).mem = s.mem := rfl
@[simp] theorem State.land_dit (s : State) (n c due : Nat) (w : Write) : (s.land n c due w).dit = s.dit := rfl
@[simp] theorem State.land_tlbs (s : State) (n c due : Nat) (w : Write) : (s.land n c due w).tlbs = s.tlbs := rfl
@[simp] theorem State.land_roots (s : State) (n c due : Nat) (w : Write) : (s.land n c due w).roots = s.roots := rfl
@[simp] theorem State.land_atomCounts (s : State) (n c due : Nat) (w : Write) : (s.land n c due w).atomCounts = s.atomCounts := rfl
@[simp] theorem State.land_cycleSkew (s : State) (n c due : Nat) (w : Write) : (s.land n c due w).cycleSkew = s.cycleSkew := rfl
@[simp] theorem State.land_crsts (s : State) (n c due : Nat) (w : Write) : (s.land n c due w).crsts = s.crsts := rfl
@[simp] theorem State.land_adds (s : State) (n c due : Nat) (w : Write) : (s.land n c due w).adds = s.adds := rfl
@[simp] theorem State.land_after (s : State) (n c due : Nat) (w : Write) : (s.land n c due w).after = s.after := rfl
@[simp] theorem State.land_later (s : State) (n c due : Nat) (w : Write) : (s.land n c due w).later = s.later := rfl
@[simp] theorem State.land_faults (s : State) (n c due : Nat) (w : Write) : (s.land n c due w).faults = s.faults := rfl
@[simp] theorem State.land_pkg (s : State) (n c due : Nat) (w : Write) : (s.land n c due w).pkg = s.pkg := rfl
@[simp] theorem State.land_windows (s : State) (n c due : Nat) (w : Write) : (s.land n c due w).windows = s.windows := rfl
@[simp] theorem State.land_mirrors (s : State) (n c due : Nat) (w : Write) : (s.land n c due w).mirrors = s.mirrors := rfl
@[simp] theorem State.land_dbgen (s : State) (n c due : Nat) (w : Write) : (s.land n c due w).dbgen = s.dbgen := rfl
@[simp] theorem State.land_power (s : State) (n c due : Nat) (w : Write) : (s.land n c due w).power = s.power := rfl
@[simp] theorem State.land_resetStep (s : State) (n c due : Nat) (w : Write) : (s.land n c due w).resetStep = s.resetStep := rfl
@[simp] theorem State.land_cfgReply (s : State) (n c due : Nat) (w : Write) : (s.land n c due w).cfgReply = s.cfgReply := rfl
@[simp] theorem State.land_tripRec (s : State) (n c due : Nat) (w : Write) : (s.land n c due w).tripRec = s.tripRec := rfl
@[simp] theorem State.land_pwrCap (s : State) (n c due : Nat) (w : Write) : (s.land n c due w).pwrCap = s.pwrCap := rfl
@[simp] theorem State.land_pwrNow (s : State) (n c due : Nat) (w : Write) : (s.land n c due w).pwrNow = s.pwrNow := rfl
@[simp] theorem State.land_temps (s : State) (n c due : Nat) (w : Write) : (s.land n c due w).temps = s.temps := rfl
@[simp] theorem State.land_thermal (s : State) (n c due : Nat) (w : Write) : (s.land n c due w).thermal = s.thermal := rfl
@[simp] theorem State.land_flog (s : State) (n c due : Nat) (w : Write) : (s.land n c due w).flog = s.flog := rfl
@[simp] theorem State.land_flogCnt (s : State) (n c due : Nat) (w : Write) : (s.land n c due w).flogCnt = s.flogCnt := rfl
@[simp] theorem State.land_torus (s : State) (n c due : Nat) (w : Write) : (s.land n c due w).torus = s.torus := rfl
@[simp] theorem State.land_linksDown (s : State) (n c due : Nat) (w : Write) : (s.land n c due w).linksDown = s.linksDown := rfl
@[simp] theorem State.land_lost (s : State) (n c due : Nat) (w : Write) : (s.land n c due w).lost = s.lost := rfl
@[simp] theorem State.land_packets (s : State) (n c due : Nat) (w : Write) : (s.land n c due w).packets = s.packets := rfl
@[simp] theorem State.land_seqs (s : State) (n c due : Nat) (w : Write) : (s.land n c due w).seqs = s.seqs := rfl
@[simp] theorem State.land_portTurn (s : State) (n c due : Nat) (w : Write) : (s.land n c due w).portTurn = s.portTurn := rfl
@[simp] theorem State.land_meshFree (s : State) (n c due : Nat) (w : Write) : (s.land n c due w).meshFree = s.meshFree := rfl
@[simp] theorem State.land_meshQueue (s : State) (n c due : Nat) (w : Write) : (s.land n c due w).meshQueue = s.meshQueue := rfl
@[simp] theorem State.land_groups (s : State) (n c due : Nat) (w : Write) : (s.land n c due w).groups = s.groups := rfl
@[simp] theorem State.land_mcRows (s : State) (n c due : Nat) (w : Write) : (s.land n c due w).mcRows = s.mcRows := rfl
@[simp] theorem State.land_pools (s : State) (n c due : Nat) (w : Write) : (s.land n c due w).pools = s.pools := rfl
@[simp] theorem State.land_hits (s : State) (n c due : Nat) (w : Write) : (s.land n c due w).hits = s.hits := rfl
@[simp] theorem State.land_hitSeen (s : State) (n c due : Nat) (w : Write) : (s.land n c due w).hitSeen = s.hitSeen := rfl
@[simp] theorem State.land_hpt (s : State) (n c due : Nat) (w : Write) : (s.land n c due w).hpt = s.hpt := rfl
@[simp] theorem State.land_hptNext (s : State) (n c due : Nat) (w : Write) : (s.land n c due w).hptNext = s.hptNext := rfl
@[simp] theorem State.land_trackStart (s : State) (n c due : Nat) (w : Write) : (s.land n c due w).trackStart = s.trackStart := rfl
@[simp] theorem State.land_moves (s : State) (n c due : Nat) (w : Write) : (s.land n c due w).moves = s.moves := rfl
@[simp] theorem State.land_poolNew (s : State) (n c due : Nat) (w : Write) : (s.land n c due w).poolNew = s.poolNew := rfl
@[simp] theorem State.land_chanCtrs (s : State) (n c due : Nat) (w : Write) : (s.land n c due w).chanCtrs = s.chanCtrs := rfl
@[simp] theorem State.land_sleepNext (s : State) (n c due : Nat) (w : Write) : (s.land n c due w).sleepNext = s.sleepNext := rfl
@[simp] theorem State.land_tierLanes (s : State) (n c due : Nat) (w : Write) : (s.land n c due w).tierLanes = s.tierLanes := rfl
@[simp] theorem State.land_chans (s : State) (n c due : Nat) (w : Write) : (s.land n c due w).chans = s.chans := rfl
@[simp] theorem State.land_nodes (s : State) (n c due : Nat) (w : Write) : (s.land n c due w).nodes = s.nodes := rfl
@[simp] theorem State.land_graphs (s : State) (n c due : Nat) (w : Write) : (s.land n c due w).graphs = s.graphs := rfl
@[simp] theorem State.land_ctxs (s : State) (n c due : Nat) (w : Write) : (s.land n c due w).ctxs = s.ctxs := rfl
@[simp] theorem State.land_owners (s : State) (n c due : Nat) (w : Write) : (s.land n c due w).owners = s.owners := rfl
@[simp] theorem State.land_reports (s : State) (n c due : Nat) (w : Write) : (s.land n c due w).reports = s.reports := rfl
@[simp] theorem State.land_vifs (s : State) (n c due : Nat) (w : Write) : (s.land n c due w).vifs = s.vifs := rfl
@[simp] theorem State.land_rings (s : State) (n c due : Nat) (w : Write) : (s.land n c due w).rings = s.rings := rfl
@[simp] theorem State.land_served (s : State) (n c due : Nat) (w : Write) : (s.land n c due w).served = s.served := rfl
@[simp] theorem State.land_dispatches (s : State) (n c due : Nat) (w : Write) : (s.land n c due w).dispatches = s.dispatches := rfl
@[simp] theorem State.land_lates (s : State) (n c due : Nat) (w : Write) : (s.land n c due w).lates = s.lates := rfl
@[simp] theorem State.land_clears (s : State) (n c due : Nat) (w : Write) : (s.land n c due w).clears = s.clears := rfl
@[simp] theorem State.land_tickets (s : State) (n c due : Nat) (w : Write) : (s.land n c due w).tickets = s.tickets := rfl
@[simp] theorem State.land_curCore (s : State) (n c due : Nat) (w : Write) : (s.land n c due w).curCore = s.curCore := rfl
@[simp] theorem State.land_curCl (s : State) (n c due : Nat) (w : Write) : (s.land n c due w).curCl = s.curCl := rfl
@[simp] theorem State.land_curQueue (s : State) (n c due : Nat) (w : Write) : (s.land n c due w).curQueue = s.curQueue := rfl
@[simp] theorem State.land_ir (s : State) (n c due : Nat) (w : Write) : (s.land n c due w).ir = s.ir := rfl
@[simp] theorem State.land_ev (s : State) (n c due : Nat) (w : Write) : (s.land n c due w).ev = s.ev := rfl
@[simp] theorem State.land_turn (s : State) (n c due : Nat) (w : Write) : (s.land n c due w).turn = s.turn := rfl
@[simp] theorem State.land_agenda (s : State) (n c due : Nat) (w : Write) : (s.land n c due w).agenda = s.agenda := rfl
@[simp] theorem State.land_times (s : State) (n c due : Nat) (w : Write) : (s.land n c due w).times = s.times := rfl
@[simp] theorem State.land_nextId (s : State) (n c due : Nat) (w : Write) : (s.land n c due w).nextId = s.nextId := rfl
@[simp] theorem State.land_freeCtr (s : State) (n c due : Nat) (w : Write) : (s.land n c due w).freeCtr = s.freeCtr := rfl

@[simp] theorem State.result_cycle (s : State) (l : Nat) (w : Write) : (s.result l w).cycle = s.cycle := rfl
@[simp] theorem State.result_mem (s : State) (l : Nat) (w : Write) : (s.result l w).mem = s.mem := rfl
@[simp] theorem State.result_dit (s : State) (l : Nat) (w : Write) : (s.result l w).dit = s.dit := rfl
@[simp] theorem State.result_tlbs (s : State) (l : Nat) (w : Write) : (s.result l w).tlbs = s.tlbs := rfl
@[simp] theorem State.result_roots (s : State) (l : Nat) (w : Write) : (s.result l w).roots = s.roots := rfl
@[simp] theorem State.result_atomCounts (s : State) (l : Nat) (w : Write) : (s.result l w).atomCounts = s.atomCounts := rfl
@[simp] theorem State.result_cycleSkew (s : State) (l : Nat) (w : Write) : (s.result l w).cycleSkew = s.cycleSkew := rfl
@[simp] theorem State.result_crsts (s : State) (l : Nat) (w : Write) : (s.result l w).crsts = s.crsts := rfl
@[simp] theorem State.result_adds (s : State) (l : Nat) (w : Write) : (s.result l w).adds = s.adds := rfl
@[simp] theorem State.result_after (s : State) (l : Nat) (w : Write) : (s.result l w).after = s.after := rfl
@[simp] theorem State.result_later (s : State) (l : Nat) (w : Write) : (s.result l w).later = s.later := rfl
@[simp] theorem State.result_faults (s : State) (l : Nat) (w : Write) : (s.result l w).faults = s.faults := rfl
@[simp] theorem State.result_pkg (s : State) (l : Nat) (w : Write) : (s.result l w).pkg = s.pkg := rfl
@[simp] theorem State.result_windows (s : State) (l : Nat) (w : Write) : (s.result l w).windows = s.windows := rfl
@[simp] theorem State.result_mirrors (s : State) (l : Nat) (w : Write) : (s.result l w).mirrors = s.mirrors := rfl
@[simp] theorem State.result_dbgen (s : State) (l : Nat) (w : Write) : (s.result l w).dbgen = s.dbgen := rfl
@[simp] theorem State.result_power (s : State) (l : Nat) (w : Write) : (s.result l w).power = s.power := rfl
@[simp] theorem State.result_resetStep (s : State) (l : Nat) (w : Write) : (s.result l w).resetStep = s.resetStep := rfl
@[simp] theorem State.result_cfgReply (s : State) (l : Nat) (w : Write) : (s.result l w).cfgReply = s.cfgReply := rfl
@[simp] theorem State.result_tripRec (s : State) (l : Nat) (w : Write) : (s.result l w).tripRec = s.tripRec := rfl
@[simp] theorem State.result_pwrCap (s : State) (l : Nat) (w : Write) : (s.result l w).pwrCap = s.pwrCap := rfl
@[simp] theorem State.result_pwrNow (s : State) (l : Nat) (w : Write) : (s.result l w).pwrNow = s.pwrNow := rfl
@[simp] theorem State.result_temps (s : State) (l : Nat) (w : Write) : (s.result l w).temps = s.temps := rfl
@[simp] theorem State.result_thermal (s : State) (l : Nat) (w : Write) : (s.result l w).thermal = s.thermal := rfl
@[simp] theorem State.result_flog (s : State) (l : Nat) (w : Write) : (s.result l w).flog = s.flog := rfl
@[simp] theorem State.result_flogCnt (s : State) (l : Nat) (w : Write) : (s.result l w).flogCnt = s.flogCnt := rfl
@[simp] theorem State.result_torus (s : State) (l : Nat) (w : Write) : (s.result l w).torus = s.torus := rfl
@[simp] theorem State.result_linksDown (s : State) (l : Nat) (w : Write) : (s.result l w).linksDown = s.linksDown := rfl
@[simp] theorem State.result_lost (s : State) (l : Nat) (w : Write) : (s.result l w).lost = s.lost := rfl
@[simp] theorem State.result_packets (s : State) (l : Nat) (w : Write) : (s.result l w).packets = s.packets := rfl
@[simp] theorem State.result_seqs (s : State) (l : Nat) (w : Write) : (s.result l w).seqs = s.seqs := rfl
@[simp] theorem State.result_portTurn (s : State) (l : Nat) (w : Write) : (s.result l w).portTurn = s.portTurn := rfl
@[simp] theorem State.result_meshFree (s : State) (l : Nat) (w : Write) : (s.result l w).meshFree = s.meshFree := rfl
@[simp] theorem State.result_meshQueue (s : State) (l : Nat) (w : Write) : (s.result l w).meshQueue = s.meshQueue := rfl
@[simp] theorem State.result_groups (s : State) (l : Nat) (w : Write) : (s.result l w).groups = s.groups := rfl
@[simp] theorem State.result_mcRows (s : State) (l : Nat) (w : Write) : (s.result l w).mcRows = s.mcRows := rfl
@[simp] theorem State.result_pools (s : State) (l : Nat) (w : Write) : (s.result l w).pools = s.pools := rfl
@[simp] theorem State.result_hits (s : State) (l : Nat) (w : Write) : (s.result l w).hits = s.hits := rfl
@[simp] theorem State.result_hitSeen (s : State) (l : Nat) (w : Write) : (s.result l w).hitSeen = s.hitSeen := rfl
@[simp] theorem State.result_hpt (s : State) (l : Nat) (w : Write) : (s.result l w).hpt = s.hpt := rfl
@[simp] theorem State.result_hptNext (s : State) (l : Nat) (w : Write) : (s.result l w).hptNext = s.hptNext := rfl
@[simp] theorem State.result_trackStart (s : State) (l : Nat) (w : Write) : (s.result l w).trackStart = s.trackStart := rfl
@[simp] theorem State.result_moves (s : State) (l : Nat) (w : Write) : (s.result l w).moves = s.moves := rfl
@[simp] theorem State.result_poolNew (s : State) (l : Nat) (w : Write) : (s.result l w).poolNew = s.poolNew := rfl
@[simp] theorem State.result_chanCtrs (s : State) (l : Nat) (w : Write) : (s.result l w).chanCtrs = s.chanCtrs := rfl
@[simp] theorem State.result_sleepNext (s : State) (l : Nat) (w : Write) : (s.result l w).sleepNext = s.sleepNext := rfl
@[simp] theorem State.result_tierLanes (s : State) (l : Nat) (w : Write) : (s.result l w).tierLanes = s.tierLanes := rfl
@[simp] theorem State.result_chans (s : State) (l : Nat) (w : Write) : (s.result l w).chans = s.chans := rfl
@[simp] theorem State.result_nodes (s : State) (l : Nat) (w : Write) : (s.result l w).nodes = s.nodes := rfl
@[simp] theorem State.result_graphs (s : State) (l : Nat) (w : Write) : (s.result l w).graphs = s.graphs := rfl
@[simp] theorem State.result_ctxs (s : State) (l : Nat) (w : Write) : (s.result l w).ctxs = s.ctxs := rfl
@[simp] theorem State.result_owners (s : State) (l : Nat) (w : Write) : (s.result l w).owners = s.owners := rfl
@[simp] theorem State.result_reports (s : State) (l : Nat) (w : Write) : (s.result l w).reports = s.reports := rfl
@[simp] theorem State.result_vifs (s : State) (l : Nat) (w : Write) : (s.result l w).vifs = s.vifs := rfl
@[simp] theorem State.result_rings (s : State) (l : Nat) (w : Write) : (s.result l w).rings = s.rings := rfl
@[simp] theorem State.result_served (s : State) (l : Nat) (w : Write) : (s.result l w).served = s.served := rfl
@[simp] theorem State.result_dispatches (s : State) (l : Nat) (w : Write) : (s.result l w).dispatches = s.dispatches := rfl
@[simp] theorem State.result_lates (s : State) (l : Nat) (w : Write) : (s.result l w).lates = s.lates := rfl
@[simp] theorem State.result_clears (s : State) (l : Nat) (w : Write) : (s.result l w).clears = s.clears := rfl
@[simp] theorem State.result_tickets (s : State) (l : Nat) (w : Write) : (s.result l w).tickets = s.tickets := rfl
@[simp] theorem State.result_curCore (s : State) (l : Nat) (w : Write) : (s.result l w).curCore = s.curCore := rfl
@[simp] theorem State.result_curCl (s : State) (l : Nat) (w : Write) : (s.result l w).curCl = s.curCl := rfl
@[simp] theorem State.result_curQueue (s : State) (l : Nat) (w : Write) : (s.result l w).curQueue = s.curQueue := rfl
@[simp] theorem State.result_ir (s : State) (l : Nat) (w : Write) : (s.result l w).ir = s.ir := rfl
@[simp] theorem State.result_ev (s : State) (l : Nat) (w : Write) : (s.result l w).ev = s.ev := rfl
@[simp] theorem State.result_turn (s : State) (l : Nat) (w : Write) : (s.result l w).turn = s.turn := rfl
@[simp] theorem State.result_agenda (s : State) (l : Nat) (w : Write) : (s.result l w).agenda = s.agenda := rfl
@[simp] theorem State.result_times (s : State) (l : Nat) (w : Write) : (s.result l w).times = s.times := rfl
@[simp] theorem State.result_nextId (s : State) (l : Nat) (w : Write) : (s.result l w).nextId = s.nextId := rfl
@[simp] theorem State.result_freeCtr (s : State) (l : Nat) (w : Write) : (s.result l w).freeCtr = s.freeCtr := rfl

@[simp] theorem State.markIssued_cycle (s : State) : s.markIssued.cycle = s.cycle := rfl
@[simp] theorem State.markIssued_mem (s : State) : s.markIssued.mem = s.mem := rfl
@[simp] theorem State.markIssued_dit (s : State) : s.markIssued.dit = s.dit := rfl
@[simp] theorem State.markIssued_tlbs (s : State) : s.markIssued.tlbs = s.tlbs := rfl
@[simp] theorem State.markIssued_roots (s : State) : s.markIssued.roots = s.roots := rfl
@[simp] theorem State.markIssued_atomCounts (s : State) : s.markIssued.atomCounts = s.atomCounts := rfl
@[simp] theorem State.markIssued_cycleSkew (s : State) : s.markIssued.cycleSkew = s.cycleSkew := rfl
@[simp] theorem State.markIssued_crsts (s : State) : s.markIssued.crsts = s.crsts := rfl
@[simp] theorem State.markIssued_adds (s : State) : s.markIssued.adds = s.adds := rfl
@[simp] theorem State.markIssued_after (s : State) : s.markIssued.after = s.after := rfl
@[simp] theorem State.markIssued_later (s : State) : s.markIssued.later = s.later := rfl
@[simp] theorem State.markIssued_faults (s : State) : s.markIssued.faults = s.faults := rfl
@[simp] theorem State.markIssued_pkg (s : State) : s.markIssued.pkg = s.pkg := rfl
@[simp] theorem State.markIssued_windows (s : State) : s.markIssued.windows = s.windows := rfl
@[simp] theorem State.markIssued_mirrors (s : State) : s.markIssued.mirrors = s.mirrors := rfl
@[simp] theorem State.markIssued_dbgen (s : State) : s.markIssued.dbgen = s.dbgen := rfl
@[simp] theorem State.markIssued_power (s : State) : s.markIssued.power = s.power := rfl
@[simp] theorem State.markIssued_resetStep (s : State) : s.markIssued.resetStep = s.resetStep := rfl
@[simp] theorem State.markIssued_cfgReply (s : State) : s.markIssued.cfgReply = s.cfgReply := rfl
@[simp] theorem State.markIssued_tripRec (s : State) : s.markIssued.tripRec = s.tripRec := rfl
@[simp] theorem State.markIssued_pwrCap (s : State) : s.markIssued.pwrCap = s.pwrCap := rfl
@[simp] theorem State.markIssued_pwrNow (s : State) : s.markIssued.pwrNow = s.pwrNow := rfl
@[simp] theorem State.markIssued_temps (s : State) : s.markIssued.temps = s.temps := rfl
@[simp] theorem State.markIssued_thermal (s : State) : s.markIssued.thermal = s.thermal := rfl
@[simp] theorem State.markIssued_flog (s : State) : s.markIssued.flog = s.flog := rfl
@[simp] theorem State.markIssued_flogCnt (s : State) : s.markIssued.flogCnt = s.flogCnt := rfl
@[simp] theorem State.markIssued_torus (s : State) : s.markIssued.torus = s.torus := rfl
@[simp] theorem State.markIssued_linksDown (s : State) : s.markIssued.linksDown = s.linksDown := rfl
@[simp] theorem State.markIssued_lost (s : State) : s.markIssued.lost = s.lost := rfl
@[simp] theorem State.markIssued_packets (s : State) : s.markIssued.packets = s.packets := rfl
@[simp] theorem State.markIssued_seqs (s : State) : s.markIssued.seqs = s.seqs := rfl
@[simp] theorem State.markIssued_portTurn (s : State) : s.markIssued.portTurn = s.portTurn := rfl
@[simp] theorem State.markIssued_meshFree (s : State) : s.markIssued.meshFree = s.meshFree := rfl
@[simp] theorem State.markIssued_meshQueue (s : State) : s.markIssued.meshQueue = s.meshQueue := rfl
@[simp] theorem State.markIssued_groups (s : State) : s.markIssued.groups = s.groups := rfl
@[simp] theorem State.markIssued_mcRows (s : State) : s.markIssued.mcRows = s.mcRows := rfl
@[simp] theorem State.markIssued_pools (s : State) : s.markIssued.pools = s.pools := rfl
@[simp] theorem State.markIssued_hits (s : State) : s.markIssued.hits = s.hits := rfl
@[simp] theorem State.markIssued_hitSeen (s : State) : s.markIssued.hitSeen = s.hitSeen := rfl
@[simp] theorem State.markIssued_hpt (s : State) : s.markIssued.hpt = s.hpt := rfl
@[simp] theorem State.markIssued_hptNext (s : State) : s.markIssued.hptNext = s.hptNext := rfl
@[simp] theorem State.markIssued_trackStart (s : State) : s.markIssued.trackStart = s.trackStart := rfl
@[simp] theorem State.markIssued_moves (s : State) : s.markIssued.moves = s.moves := rfl
@[simp] theorem State.markIssued_poolNew (s : State) : s.markIssued.poolNew = s.poolNew := rfl
@[simp] theorem State.markIssued_chanCtrs (s : State) : s.markIssued.chanCtrs = s.chanCtrs := rfl
@[simp] theorem State.markIssued_sleepNext (s : State) : s.markIssued.sleepNext = s.sleepNext := rfl
@[simp] theorem State.markIssued_tierLanes (s : State) : s.markIssued.tierLanes = s.tierLanes := rfl
@[simp] theorem State.markIssued_chans (s : State) : s.markIssued.chans = s.chans := rfl
@[simp] theorem State.markIssued_nodes (s : State) : s.markIssued.nodes = s.nodes := rfl
@[simp] theorem State.markIssued_graphs (s : State) : s.markIssued.graphs = s.graphs := rfl
@[simp] theorem State.markIssued_ctxs (s : State) : s.markIssued.ctxs = s.ctxs := rfl
@[simp] theorem State.markIssued_owners (s : State) : s.markIssued.owners = s.owners := rfl
@[simp] theorem State.markIssued_reports (s : State) : s.markIssued.reports = s.reports := rfl
@[simp] theorem State.markIssued_vifs (s : State) : s.markIssued.vifs = s.vifs := rfl
@[simp] theorem State.markIssued_rings (s : State) : s.markIssued.rings = s.rings := rfl
@[simp] theorem State.markIssued_served (s : State) : s.markIssued.served = s.served := rfl
@[simp] theorem State.markIssued_dispatches (s : State) : s.markIssued.dispatches = s.dispatches := rfl
@[simp] theorem State.markIssued_lates (s : State) : s.markIssued.lates = s.lates := rfl
@[simp] theorem State.markIssued_clears (s : State) : s.markIssued.clears = s.clears := rfl
@[simp] theorem State.markIssued_tickets (s : State) : s.markIssued.tickets = s.tickets := rfl
@[simp] theorem State.markIssued_curCore (s : State) : s.markIssued.curCore = s.curCore := rfl
@[simp] theorem State.markIssued_curCl (s : State) : s.markIssued.curCl = s.curCl := rfl
@[simp] theorem State.markIssued_curQueue (s : State) : s.markIssued.curQueue = s.curQueue := rfl
@[simp] theorem State.markIssued_ir (s : State) : s.markIssued.ir = s.ir := rfl
@[simp] theorem State.markIssued_ev (s : State) : s.markIssued.ev = s.ev := rfl
@[simp] theorem State.markIssued_turn (s : State) : s.markIssued.turn = s.turn := rfl
@[simp] theorem State.markIssued_agenda (s : State) : s.markIssued.agenda = s.agenda := rfl
@[simp] theorem State.markIssued_times (s : State) : s.markIssued.times = s.times := rfl
@[simp] theorem State.markIssued_nextId (s : State) : s.markIssued.nextId = s.nextId := rfl
@[simp] theorem State.markIssued_freeCtr (s : State) : s.markIssued.freeCtr = s.freeCtr := rfl

@[simp] theorem State.advance_cycle (s : State) : s.advance.cycle = s.cycle := rfl
@[simp] theorem State.advance_mem (s : State) : s.advance.mem = s.mem := rfl
@[simp] theorem State.advance_dit (s : State) : s.advance.dit = s.dit := rfl
@[simp] theorem State.advance_tlbs (s : State) : s.advance.tlbs = s.tlbs := rfl
@[simp] theorem State.advance_roots (s : State) : s.advance.roots = s.roots := rfl
@[simp] theorem State.advance_atomCounts (s : State) : s.advance.atomCounts = s.atomCounts := rfl
@[simp] theorem State.advance_cycleSkew (s : State) : s.advance.cycleSkew = s.cycleSkew := rfl
@[simp] theorem State.advance_crsts (s : State) : s.advance.crsts = s.crsts := rfl
@[simp] theorem State.advance_adds (s : State) : s.advance.adds = s.adds := rfl
@[simp] theorem State.advance_after (s : State) : s.advance.after = s.after := rfl
@[simp] theorem State.advance_later (s : State) : s.advance.later = s.later := rfl
@[simp] theorem State.advance_faults (s : State) : s.advance.faults = s.faults := rfl
@[simp] theorem State.advance_pkg (s : State) : s.advance.pkg = s.pkg := rfl
@[simp] theorem State.advance_windows (s : State) : s.advance.windows = s.windows := rfl
@[simp] theorem State.advance_mirrors (s : State) : s.advance.mirrors = s.mirrors := rfl
@[simp] theorem State.advance_dbgen (s : State) : s.advance.dbgen = s.dbgen := rfl
@[simp] theorem State.advance_power (s : State) : s.advance.power = s.power := rfl
@[simp] theorem State.advance_resetStep (s : State) : s.advance.resetStep = s.resetStep := rfl
@[simp] theorem State.advance_cfgReply (s : State) : s.advance.cfgReply = s.cfgReply := rfl
@[simp] theorem State.advance_tripRec (s : State) : s.advance.tripRec = s.tripRec := rfl
@[simp] theorem State.advance_pwrCap (s : State) : s.advance.pwrCap = s.pwrCap := rfl
@[simp] theorem State.advance_pwrNow (s : State) : s.advance.pwrNow = s.pwrNow := rfl
@[simp] theorem State.advance_temps (s : State) : s.advance.temps = s.temps := rfl
@[simp] theorem State.advance_thermal (s : State) : s.advance.thermal = s.thermal := rfl
@[simp] theorem State.advance_flog (s : State) : s.advance.flog = s.flog := rfl
@[simp] theorem State.advance_flogCnt (s : State) : s.advance.flogCnt = s.flogCnt := rfl
@[simp] theorem State.advance_torus (s : State) : s.advance.torus = s.torus := rfl
@[simp] theorem State.advance_linksDown (s : State) : s.advance.linksDown = s.linksDown := rfl
@[simp] theorem State.advance_lost (s : State) : s.advance.lost = s.lost := rfl
@[simp] theorem State.advance_packets (s : State) : s.advance.packets = s.packets := rfl
@[simp] theorem State.advance_seqs (s : State) : s.advance.seqs = s.seqs := rfl
@[simp] theorem State.advance_portTurn (s : State) : s.advance.portTurn = s.portTurn := rfl
@[simp] theorem State.advance_meshFree (s : State) : s.advance.meshFree = s.meshFree := rfl
@[simp] theorem State.advance_meshQueue (s : State) : s.advance.meshQueue = s.meshQueue := rfl
@[simp] theorem State.advance_groups (s : State) : s.advance.groups = s.groups := rfl
@[simp] theorem State.advance_mcRows (s : State) : s.advance.mcRows = s.mcRows := rfl
@[simp] theorem State.advance_pools (s : State) : s.advance.pools = s.pools := rfl
@[simp] theorem State.advance_hits (s : State) : s.advance.hits = s.hits := rfl
@[simp] theorem State.advance_hitSeen (s : State) : s.advance.hitSeen = s.hitSeen := rfl
@[simp] theorem State.advance_hpt (s : State) : s.advance.hpt = s.hpt := rfl
@[simp] theorem State.advance_hptNext (s : State) : s.advance.hptNext = s.hptNext := rfl
@[simp] theorem State.advance_trackStart (s : State) : s.advance.trackStart = s.trackStart := rfl
@[simp] theorem State.advance_moves (s : State) : s.advance.moves = s.moves := rfl
@[simp] theorem State.advance_poolNew (s : State) : s.advance.poolNew = s.poolNew := rfl
@[simp] theorem State.advance_chanCtrs (s : State) : s.advance.chanCtrs = s.chanCtrs := rfl
@[simp] theorem State.advance_sleepNext (s : State) : s.advance.sleepNext = s.sleepNext := rfl
@[simp] theorem State.advance_tierLanes (s : State) : s.advance.tierLanes = s.tierLanes := rfl
@[simp] theorem State.advance_chans (s : State) : s.advance.chans = s.chans := rfl
@[simp] theorem State.advance_nodes (s : State) : s.advance.nodes = s.nodes := rfl
@[simp] theorem State.advance_graphs (s : State) : s.advance.graphs = s.graphs := rfl
@[simp] theorem State.advance_ctxs (s : State) : s.advance.ctxs = s.ctxs := rfl
@[simp] theorem State.advance_owners (s : State) : s.advance.owners = s.owners := rfl
@[simp] theorem State.advance_reports (s : State) : s.advance.reports = s.reports := rfl
@[simp] theorem State.advance_vifs (s : State) : s.advance.vifs = s.vifs := rfl
@[simp] theorem State.advance_rings (s : State) : s.advance.rings = s.rings := rfl
@[simp] theorem State.advance_served (s : State) : s.advance.served = s.served := rfl
@[simp] theorem State.advance_dispatches (s : State) : s.advance.dispatches = s.dispatches := rfl
@[simp] theorem State.advance_lates (s : State) : s.advance.lates = s.lates := rfl
@[simp] theorem State.advance_clears (s : State) : s.advance.clears = s.clears := rfl
@[simp] theorem State.advance_tickets (s : State) : s.advance.tickets = s.tickets := rfl
@[simp] theorem State.advance_curCore (s : State) : s.advance.curCore = s.curCore := rfl
@[simp] theorem State.advance_curCl (s : State) : s.advance.curCl = s.curCl := rfl
@[simp] theorem State.advance_curQueue (s : State) : s.advance.curQueue = s.curQueue := rfl
@[simp] theorem State.advance_ir (s : State) : s.advance.ir = s.ir := rfl
@[simp] theorem State.advance_ev (s : State) : s.advance.ev = s.ev := rfl
@[simp] theorem State.advance_turn (s : State) : s.advance.turn = s.turn := rfl
@[simp] theorem State.advance_agenda (s : State) : s.advance.agenda = s.agenda := rfl
@[simp] theorem State.advance_times (s : State) : s.advance.times = s.times := rfl
@[simp] theorem State.advance_nextId (s : State) : s.advance.nextId = s.nextId := rfl
@[simp] theorem State.advance_freeCtr (s : State) : s.advance.freeCtr = s.freeCtr := rfl

/-! ### Results in X -/

/-- A result for X[r] touches nothing but the core under way. -/
theorem State.resultX_eq (s : State) (l : Nat) (r : BitVec 5) (v : Word) :
    s.resultX l r v = { s with cores := (s.resultX l r v).cores } := by
  unfold State.resultX
  split <;> rfl

@[simp] theorem State.resultX_mem (s : State) (l : Nat) (r : BitVec 5) (v : Word) : (s.resultX l r v).mem = s.mem := by
  rw [State.resultX_eq]

@[simp] theorem State.resultX_cycle (s : State) (l : Nat) (r : BitVec 5) (v : Word) : (s.resultX l r v).cycle = s.cycle := by
  rw [State.resultX_eq]

@[simp] theorem State.resultX_curCore (s : State) (l : Nat) (r : BitVec 5) (v : Word) :
    (s.resultX l r v).curCore = s.curCore := by
  rw [State.resultX_eq]

@[simp] theorem State.resultX_curCl (s : State) (l : Nat) (r : BitVec 5) (v : Word) : (s.resultX l r v).curCl = s.curCl := by
  rw [State.resultX_eq]

@[simp] theorem State.resultX_ir (s : State) (l : Nat) (r : BitVec 5) (v : Word) : (s.resultX l r v).ir = s.ir := by
  rw [State.resultX_eq]

/-! ### Cores and clusters after a write -/

@[simp] theorem State.core_setCore (s : State) (n : Nat) (c : Core) : (s.setCore n c).core n = c := by
  simp [State.core, State.setCore]

theorem State.core_setCore_other (s : State) {n m : Nat} (c : Core) (h : m ≠ n) : (s.setCore n c).core m = s.core m := by
  simp [State.core, State.setCore, SMap.get_set_other _ _ _ h]

@[simp] theorem State.core_modCore (s : State) (n : Nat) (f : Core → Core) : (s.modCore n f).core n = f (s.core n) := by
  simp [State.modCore]

theorem State.core_modCore_other (s : State) {n m : Nat} (f : Core → Core) (h : m ≠ n) : (s.modCore n f).core m = s.core m :=
  s.core_setCore_other _ h

@[simp] theorem Core.cluster_setCluster (k : Core) (c : Nat) (v : Cluster) : (k.setCluster c v).cluster c = v := by
  simp [Core.cluster, Core.setCluster]

theorem Core.cluster_setCluster_other (k : Core) {c d : Nat} (v : Cluster) (h : d ≠ c) :
    (k.setCluster c v).cluster d = k.cluster d := by
  simp [Core.cluster, Core.setCluster, SMap.get_set_other _ _ _ h]

@[simp] theorem State.cluster_modCluster (s : State) (n c : Nat) (f : Cluster → Cluster) :
    (s.modCluster n c f).cluster n c = f (s.cluster n c) := by
  simp [State.modCluster, State.cluster]

/-- A change of one cluster leaves every other cluster alone. -/
theorem State.cluster_modCluster_other (s : State) {n c m d : Nat} (f : Cluster → Cluster) (h : (m, d) ≠ (n, c)) :
    (s.modCluster n c f).cluster m d = s.cluster m d := by
  by_cases hm : m = n
  · subst hm
    have hd : d ≠ c := fun x => h (by rw [x])
    simp [State.modCluster, State.cluster, Core.cluster_setCluster_other _ _ hd]
  · simp [State.modCluster, State.cluster, State.core_modCore_other _ _ hm]

@[simp] theorem State.me_modMe (s : State) (f : Cluster → Cluster) : (s.modMe f).me = f s.me := by
  simp [State.me, State.modMe]

@[simp] theorem State.myCore_modMyCore (s : State) (f : Core → Core) : (s.modMyCore f).myCore = f s.myCore := by
  simp [State.myCore, State.modMyCore]

@[simp] theorem State.myCore_modMe (s : State) (f : Cluster → Cluster) :
    (s.modMe f).myCore = s.myCore.setCluster s.curCl (f s.me) := by
  simp [State.modMe, State.modCluster, State.myCore, State.me, State.cluster]

@[simp] theorem State.me_modMyCore (s : State) (f : Core → Core) : (s.modMyCore f).me = (f s.myCore).cluster s.curCl := by
  simp [State.me, State.cluster, State.modMyCore, State.myCore]

theorem State.me_eq (s : State) : s.me = s.myCore.cluster s.curCl := rfl

/-! ### Registers after a write -/

@[simp] theorem Cluster.readX_zero (c : Cluster) : c.readX 0 = 0 := rfl

@[simp] theorem Cluster.readX_writeX (c : Cluster) {r : Nat} (v : Word) (h : r ≠ 0) : (c.writeX r v).readX r = v := by
  simp [Cluster.readX, Cluster.writeX, h]

theorem Cluster.readX_writeX_other (c : Cluster) {r q : Nat} (v : Word) (h : q ≠ r) : (c.writeX r v).readX q = c.readX q := by
  by_cases hr : r = 0
  · simp [Cluster.writeX, hr]
  · simp [Cluster.readX, Cluster.writeX, hr, SMap.get_set_other _ _ _ h]

@[simp] theorem Cluster.readP_zero (c : Cluster) : c.readP 0 = BitVec.allOnes 16 := rfl

@[simp] theorem Cluster.readP_writeP (c : Cluster) {r : Nat} (v : BitVec 16) (h : r ≠ 0) : (c.writeP r v).readP r = v := by
  simp [Cluster.readP, Cluster.writeP, h]

theorem Cluster.readP_writeP_other (c : Cluster) {r q : Nat} (v : BitVec 16) (h : q ≠ r) :
    (c.writeP r v).readP q = c.readP q := by
  by_cases hr : r = 0
  · simp [Cluster.writeP, hr]
  · simp [Cluster.readP, Cluster.writeP, hr, SMap.get_set_other _ _ _ h]

end Sys2Proof.Machine
end

