-- ==== Sys2Proof/Laws/Issue.lean ====
section
/-!
SUPPORT. What the issue of an instruction comes to: one lemma for each thing that can happen.
-/

namespace Sys2Proof.Machine

/-- An instruction that issues alone comes to what its body says. -/
theorem State.issue_of_issues {s : State} {i : Instr} (body : State → Res) (h : s.issues i) :
    s.issue i body = .next (s.settle (body s.fresh)) := by
  obtain ⟨h1, h2, h3⟩ := h
  have hp : (Instr.privileged i && !s.me.super) = false := by
    cases hi : Instr.privileged i
    · rfl
    · simp [h1 hi]
  unfold State.issue
  rw [hp, h2]
  simp only [h3, Bool.false_eq_true, if_false, Bool.false_and]
  all_goals rfl

/-- An instruction whose body is done completes in sequence. -/
theorem State.issue_done {s t : State} {i : Instr} {body : State → Res} (h : s.issues i) (hb : body s.fresh = .done t) :
    s.issue i body = .next t.inSequence := by
  rw [State.issue_of_issues body h, hb]
  rfl

/-- An instruction whose body goes elsewhere jumps. -/
theorem State.issue_goto {s t : State} {i : Instr} {body : State → Res} {pc : Word} (h : s.issues i)
    (hb : body s.fresh = .goto t pc) : s.issue i body = .next (t.jumpTo pc) := by
  rw [State.issue_of_issues body h, hb]
  rfl

/-- An instruction whose body traps takes the trap, and nothing else happens. -/
theorem State.issue_trap {s : State} {i : Instr} {body : State → Res} {cause : Nat} {info : Word} (h : s.issues i)
    (hb : body s.fresh = .trap cause info) : s.issue i body = .next (s.trap cause info) := by
  rw [State.issue_of_issues body h, hb]
  rfl

/-- A blocking instruction holds its cluster. -/
theorem State.issue_hold {s t : State} {i : Instr} {body : State → Res} {w : Hold} (h : s.issues i)
    (hb : body s.fresh = .hold t w) : s.issue i body = .next (t.holding w) := by
  rw [State.issue_of_issues body h, hb]
  simp [State.settle, State.holding, h.2.2]

/-- An instruction that cannot issue yet waits. -/
theorem State.issue_stall {s : State} {i : Instr} {body : State → Res} {k : WaitKind} (h : s.issues i)
    (hb : body s.fresh = .stall k) : s.issue i body = .next (s.stalled k) := by
  rw [State.issue_of_issues body h, hb]
  simp only [State.settle, State.stalled, h.2.2, Bool.false_eq_true, if_false]
  all_goals rfl

/-- An instruction that itself decides what its cluster does next. -/
theorem State.issue_ends {s t : State} {i : Instr} {body : State → Res} (h : s.issues i) (hb : body s.fresh = .ends t) :
    s.issue i body = .next t := by
  rw [State.issue_of_issues body h, hb]
  rfl

/-- A privileged instruction in user mode takes the trap PRIV. -/
theorem State.issue_priv {s : State} {i : Instr} (body : State → Res) (hi : Instr.privileged i = true)
    (hs : s.me.super = false) : s.issue i body = .next (s.trap cPRIV 0) := by
  simp [State.issue, hi, hs]

/-- Issue answers a next state whatever the body. -/
theorem State.issue_next (s : State) (i : Instr) (body : State → Res) : ∃ t, s.issue i body = .next t := by
  unfold State.issue
  split
  · exact ⟨_, rfl⟩
  · split
    · exact ⟨_, rfl⟩
    · split
      · exact ⟨_, rfl⟩
      · exact ⟨_, rfl⟩

end Sys2Proof.Machine
end

