-- ==== Sys2Proof/Laws/Ops.lean ====
section
/-!
SUPPORT. The shared operations: for each one what it can do, said once.
-/

namespace Sys2Proof.Machine

/-! ### Parts of the state that change one at a time -/

theorem State.ring_modRing (s : State) (v w : Nat) (f : Ring → Ring) :
    (s.modRing v f).ring w = if w = v then f (s.ring v) else s.ring w := by
  simp [State.modRing, State.ring, SMap.get_set]

theorem State.vif_modVif (s : State) (v w : Nat) (f : Vif → Vif) :
    (s.modVif v f).vif w = if w = v then f (s.vif v) else s.vif w := by
  simp [State.modVif, State.vif, SMap.get_set]

theorem State.chan_modChan (s : State) (v w : Nat) (f : Chan → Chan) :
    (s.modChan v f).chan w = if w = v then f (s.chan v) else s.chan w := by
  simp [State.modChan, State.setChan, State.chan, SMap.get_set]

/-! ### The agenda -/

theorem mem_insertDue {d x : Due} {l : List Due} : x ∈ insertDue d l ↔ x = d ∨ x ∈ l := by
  induction l with
  | nil => simp [insertDue]
  | cons e t ih =>
    simp only [insertDue]
    split
    · simp only [List.mem_cons, ih]; tauto
    · simp

/-- A step is scheduled for its cycle. -/
theorem State.due_schedule (s : State) (c : Nat) (r : Instr) (a : EvArgs) :
    ({ cycle := c, row := r, args := a } : Due) ∈ (s.schedule c r a).agenda := by
  simp [State.schedule, mem_insertDue]

/-- A step after an open time comes later than this cycle. -/
theorem State.due_scheduleOpen (s : State) {least : Nat} (h : 0 < least) (r : Instr) (a : EvArgs) :
    ∃ d ∈ (s.scheduleOpen least r a).agenda, d.row = r ∧ s.cycle < d.cycle ∧ d.args = a := by
  refine ⟨{ cycle := s.cycle + max least s.time, row := r, args := a }, ?_, rfl, ?_, rfl⟩
  · simp [State.scheduleOpen, State.schedule, State.useTime, mem_insertDue]
  · show s.cycle < s.cycle + max least s.time
    omega

/-! ### Translation and checks (R125, R249) -/

/-- A burst changes only the pseudo-channels. -/
theorem State.burst_eq (s : State) (k : Traffic) (b : Nat) : s.burst k b = { s with chanCtrs := (s.burst k b).chanCtrs } := by
  unfold State.burst
  split <;> rfl

theorem State.foldl_burst_eq (l : List Nat) (k : Traffic) (s : State) :
    l.foldl (fun (s : State) b => s.burst k b) s =
      { s with chanCtrs := (l.foldl (fun (s : State) b => s.burst k b) s).chanCtrs } := by
  induction l generalizing s with
  | nil => rfl
  | cons b t ih =>
    simp only [List.foldl_cons]
    rw [ih (s.burst k b), State.burst_eq s k b]

/-- The bursts of an access change only the pseudo-channels and, for a write, the dirty maps of the frames that move. -/
theorem State.bursts_eq (s : State) (pa n : Nat) (k : Traffic) :
    s.bursts pa n k = { s with chanCtrs := (s.bursts pa n k).chanCtrs, moves := (s.bursts pa n k).moves } := by
  unfold State.bursts
  split
  · rfl
  · simp only []
    rw [State.foldl_burst_eq]
    split <;> rfl

theorem State.bursts_read_eq (s : State) (pa n : Nat) :
    s.bursts pa n .read = { s with chanCtrs := (s.bursts pa n .read).chanCtrs } := by
  unfold State.bursts
  split
  · rfl
  · simp only [true_or, ↓reduceIte]
    rw [State.foldl_burst_eq]

theorem State.foldl_walk_eq (l : List Nat) (s : State) :
    l.foldl (fun (s : State) a => s.bursts a 8 .read) s =
      { s with chanCtrs := (l.foldl (fun (s : State) a => s.bursts a 8 .read) s).chanCtrs } := by
  induction l generalizing s with
  | nil => rfl
  | cons b t ih =>
    simp only [List.foldl_cons]
    rw [ih (s.bursts b 8 .read), State.bursts_read_eq s b 8]

theorem State.walkBursts_eq (s : State) (asid va : Nat) : s.walkBursts asid va = { s with chanCtrs := (s.walkBursts asid va).chanCtrs } := by
  unfold State.walkBursts
  split
  · rfl
  · exact State.foldl_walk_eq _ s

/-- A cached translation changes only its unit's cache, and the pseudo-channels that its walk has read. -/
theorem State.fill_eq (s : State) (u : Nat) (e : TlbEntry) :
    s.fill u e = { s with tlbs := (s.fill u e).tlbs, chanCtrs := (s.fill u e).chanCtrs } := by
  unfold State.fill
  dsimp only
  split
  · rfl
  · rw [State.walkBursts_eq]

/-- The tracker changes only its counts. -/
theorem State.hit_eq (s : State) (a n : Nat) : s.hit a n = { s with hits := (s.hit a n).hits, hitSeen := (s.hit a n).hitSeen } := by
  unfold State.hit
  dsimp only
  split <;> rfl

/-- An access falls behind atomic messages of its cluster: only the agenda changes. -/
theorem State.hasten_eq (s : State) (f : Due → Bool) : s.hasten f = { s with agenda := (s.hasten f).agenda } := by
  unfold State.hasten
  split <;> rfl

/-- What an access of the cluster under way touches changes no memory and no mapping. -/
theorem State.touch_kept (s : State) (pa n : Nat) :
    (s.touch pa n).mem = s.mem ∧ (s.touch pa n).dit = s.dit ∧ (s.touch pa n).hpt = s.hpt ∧ (s.touch pa n).cycle = s.cycle ∧
      (s.touch pa n).curCore = s.curCore ∧ (s.touch pa n).curCl = s.curCl := by
  have e : s.landOwn pa n = { s with agenda := (s.landOwn pa n).agenda } := State.hasten_eq s _
  unfold State.touch
  dsimp only
  split <;>
  · rw [State.hit_eq, e]
    exact ⟨rfl, rfl, rfl, rfl, rfl, rfl⟩

/-- A data access changes no memory and no mapping. -/
theorem State.reach_kept (s : State) (pa n : Nat) (k : Traffic) :
    (s.reach pa n k).mem = s.mem ∧ (s.reach pa n k).dit = s.dit ∧ (s.reach pa n k).hpt = s.hpt ∧ (s.reach pa n k).cycle = s.cycle ∧
      (s.reach pa n k).curCore = s.curCore ∧ (s.reach pa n k).curCl = s.curCl := by
  unfold State.reach State.traffic
  rw [State.bursts_eq]
  exact State.touch_kept s pa n

/-- What an access that passes the checks of R125 has met, and what it has changed. -/
theorem State.accessChecks_ok {s u : State} {need : Need} {align pa : Nat} {ea : Word} {e : TlbEntry}
    (h : s.accessChecks need align ea = .ok (u, e, pa)) :
    ea.toNat % align = 0 ∧ pa = e.pa ea.toNat ∧ s.check (unitCore s.curCore) s.myCore.asid.toNat s.me.super need ea.toNat = .ok e ∧
      u = s.fill (unitCore s.curCore) e := by
  unfold State.accessChecks at h
  split at h
  · cases h
  · split at h
    · cases h
    · rename_i h1 _ e' h2
      simp only [Except.ok.injEq, Prod.mk.injEq] at h
      obtain ⟨rfl, rfl, rfl⟩ := h
      exact ⟨by simpa using h1, rfl, h2, rfl⟩

/-- What an access that may be made has met (R125, R253), and what it has changed. -/
theorem State.access_ok {s u : State} {need : Need} {align pa : Nat} {ea : Word} {e : TlbEntry}
    (h : s.access need align ea = .ok (u, e, pa)) :
    ea.toNat % align = 0 ∧ pa = e.pa ea.toNat ∧ s.check (unitCore s.curCore) s.myCore.asid.toNat s.me.super need ea.toNat = .ok e ∧
      u = s.fill (unitCore s.curCore) e ∧ (pteKind e.ent = 1 → pteC e.ent = false → s.soOpen = false) := by
  unfold State.access at h
  split at h
  · cases h
  · rename_i r hr
    split at h
    · cases h
    · rename_i hso
      cases h
      obtain ⟨h1, h2, h3, h4⟩ := State.accessChecks_ok hr
      exact ⟨h1, h2, h3, h4, fun hk hc => by simpa [hk, hc] using hso⟩

/-! ### Traps (R70, R71) -/

/-- A trap changes its cluster and records the fault. -/
theorem State.cluster_trapAt (s : State) (n c cause : Nat) (info ret : Word) (sync forced : Bool) :
    (s.trapAt n c cause info ret sync forced).cluster n c =
      if (s.cluster n c).nested then (s.cluster n c).stopTrap s.cycle cause info
      else (s.cluster n c).enterTrap s.cycle cause info ret sync forced :=
  State.cluster_modCluster s n c fun k =>
    if k.nested then k.stopTrap s.cycle cause info else k.enterTrap s.cycle cause info ret sync forced

theorem State.cluster_trapAt_other (s : State) {n c m d : Nat} (cause : Nat) (info ret : Word) (sync forced : Bool)
    (h : (m, d) ≠ (n, c)) : (s.trapAt n c cause info ret sync forced).cluster m d = s.cluster m d :=
  State.cluster_modCluster_other s
    (fun k => if k.nested then k.stopTrap s.cycle cause info else k.enterTrap s.cycle cause info ret sync forced) h

@[simp] theorem State.trapAt_mem (s : State) (n c cause : Nat) (info ret : Word) (sync forced : Bool) :
    (s.trapAt n c cause info ret sync forced).mem = s.mem := rfl

/-! ### Completions of held instructions (R59) -/

/-- The state in which the completion of a held instruction is performed. -/
def State.resumed (s : State) : State := { s with curCore := s.ev.nat 0, curCl := s.ev.nat 1, hitSeen := [] }

/-- BLOCKING_COMPLETION of the instruction that its cluster still holds. -/
theorem blockingCompletion_eq {s : State} {h : Hold} (hw : s.resumed.me.act = .waiting h) (hs : h.since = s.ev.nat 2) :
    exec .blockingCompletion s = .next (complete h s.resumed) := by
  show execBlockingCompletion s = _
  unfold execBlockingCompletion
  show (match s.resumed.me.hold? with | none => _ | some h => _) = _
  have : s.resumed.me.hold? = some h := by simp [Cluster.hold?, hw]
  rw [this]
  exact if_pos hs

/-! ### Tile and distribution writes (R55-R57, R63) -/

/-- A tile write waits for the lock of its destination, or is done. -/
theorem tileOp_cases (l : Nat) (d : BitVec 5) (pred : BitVec 3) (mode : Rnd) (src : Option (BitVec 5))
    (f : BitVec 32 → Nat → Nat → List Elem × FFlags) (s : State) :
    (s.myCore.locked d.toNat = true ∧ tileOp l d pred mode src f s = .stall (.lock d.toNat)) ∨
      (s.myCore.locked d.toNat = false ∧ ∃ t, tileOp l d pred mode src f s = .done t) := by
  unfold tileOp
  cases h : s.myCore.locked d.toNat
  · exact .inr ⟨rfl, _, rfl⟩
  · exact .inl ⟨rfl, rfl⟩

/-! ### Steps -/

/-- Every row answers a next state. -/
theorem exec_issue_next (i : Instr) (s : State) (body : State → Res) (h : exec i s = s.issue i body) : ∃ t, exec i s = .next t := by
  rw [h]; exact s.issue_next i body

end Sys2Proof.Machine
end

