-- ==== Sys2Proof/Laws/PerInstr.lean ====
section
/-!
SUPPORT. Statements about every instruction as syntax, one lemma a constructor.
-/

namespace Sys2Proof.Laws.Encoded

/-- The fields of its encoding fill its words (R74): their widths add up to 32 bits for each word. -/
def Statement (i : Instr) : Prop := ∀ (s : Bool) (code : Nat), ((encFields s code i).map Prod.fst).sum = 32 * i.words

theorem encReg3_sum (maj x1 : Nat) (s : Bool) (o : Reg3) : ((encReg3 maj x1 s o).map Prod.fst).sum = 32 := by
  simp [encReg3, encHead]

theorem encReg2_sum (maj x1 : Nat) (s : Bool) (o : Reg2) : ((encReg2 maj x1 s o).map Prod.fst).sum = 32 := by
  simp [encReg2, encHead]

theorem encImm_sum (maj : Nat) (s : Bool) (o : Imm) : ((encImm maj s o).map Prod.fst).sum = 32 := by
  simp [encImm, encHead]

theorem encShImm_sum (maj : Nat) (s : Bool) (o : ShImm) : ((encShImm maj s o).map Prod.fst).sum = 32 := by
  simp [encShImm, encHead]

theorem encLitOps_sum (maj : Nat) (s : Bool) (o : LitOps) : ((encLitOps maj s o).map Prod.fst).sum = 96 := by
  simp [encLitOps, encHead]

theorem encSLit_sum (maj x1 : Nat) (s : Bool) (o : SLit) : ((encSLit maj x1 s o).map Prod.fst).sum = 96 := by
  simp [encSLit, encHead]

theorem encLdqOps_sum (maj : Nat) (s : Bool) (o : LdqOps) : ((encLdqOps maj s o).map Prod.fst).sum = 32 := by
  simp [encLdqOps, encHead]

theorem encQRead_sum (maj x1 : Nat) (s : Bool) (o : QRead) : ((encQRead maj x1 s o).map Prod.fst).sum = 32 := by
  simp [encQRead, encHead]

theorem encQPushOps_sum (maj x1 : Nat) (s : Bool) (o : QPushOps) : ((encQPushOps maj x1 s o).map Prod.fst).sum = 32 := by
  simp [encQPushOps, encHead]

theorem encBr_sum (maj : Nat) (s : Bool) (o : Br) : ((encBr maj s o).map Prod.fst).sum = 32 := by
  simp [encBr, encHead]

theorem encJmpOps_sum (maj : Nat) (s : Bool) (o : JmpOps) : ((encJmpOps maj s o).map Prod.fst).sum = 32 := by
  simp [encJmpOps, encHead]

theorem encJalOps_sum (maj : Nat) (s : Bool) (o : JalOps) : ((encJalOps maj s o).map Prod.fst).sum = 32 := by
  simp [encJalOps, encHead]

theorem encLoopOps_sum (maj : Nat) (s : Bool) (o : LoopOps) : ((encLoopOps maj s o).map Prod.fst).sum = 32 := by
  simp [encLoopOps, encHead]

theorem encLoopiOps_sum (maj : Nat) (s : Bool) (o : LoopiOps) : ((encLoopiOps maj s o).map Prod.fst).sum = 32 := by
  simp [encLoopiOps, encHead]

theorem encCntOwn_sum (maj : Nat) (s : Bool) (o : CntOwn) : ((encCntOwn maj s o).map Prod.fst).sum = 32 := by
  simp [encCntOwn, encHead]

theorem encCntRemote_sum (maj x1 : Nat) (s : Bool) (o : CntRemote) : ((encCntRemote maj x1 s o).map Prod.fst).sum = 32 := by
  simp [encCntRemote, encHead]

theorem encCntPage_sum (maj x1 : Nat) (s : Bool) (o : CntPage) : ((encCntPage maj x1 s o).map Prod.fst).sum = 32 := by
  simp [encCntPage, encHead]

theorem encCWaitOwn_sum (maj : Nat) (s : Bool) (o : CWaitOwn) : ((encCWaitOwn maj s o).map Prod.fst).sum = 32 := by
  simp [encCWaitOwn, encHead]

theorem encCWaitPage_sum (maj x1 : Nat) (s : Bool) (o : CWaitPage) : ((encCWaitPage maj x1 s o).map Prod.fst).sum = 32 := by
  simp [encCWaitPage, encHead]

theorem encPlain_sum (maj : Nat) (s : Bool) : ((encPlain maj s).map Prod.fst).sum = 32 := by
  simp [encPlain, encHead]

theorem encFenceOps_sum (maj : Nat) (s : Bool) (o : FenceOps) : ((encFenceOps maj s o).map Prod.fst).sum = 32 := by
  simp [encFenceOps, encHead]

theorem encAtomOps_sum (maj x1 x2 : Nat) (s : Bool) (o : AtomOps) : ((encAtomOps maj x1 x2 s o).map Prod.fst).sum = 32 := by
  simp [encAtomOps, encHead]

theorem encPred3_sum (maj x1 : Nat) (s : Bool) (o : Pred3) : ((encPred3 maj x1 s o).map Prod.fst).sum = 32 := by
  simp [encPred3, encHead]

theorem encPred2_sum (maj x1 : Nat) (s : Bool) (o : Pred2) : ((encPred2 maj x1 s o).map Prod.fst).sum = 32 := by
  simp [encPred2, encHead]

theorem encPSetOps_sum (maj : Nat) (s : Bool) (o : PSetOps) : ((encPSetOps maj s o).map Prod.fst).sum = 32 := by
  simp [encPSetOps, encHead]

theorem encMov2_sum (maj x1 : Nat) (s : Bool) (o : Mov2) : ((encMov2 maj x1 s o).map Prod.fst).sum = 32 := by
  simp [encMov2, encHead]

theorem encMov3_sum (maj x1 : Nat) (s : Bool) (o : Mov3) : ((encMov3 maj x1 s o).map Prod.fst).sum = 32 := by
  simp [encMov3, encHead]

theorem encVextOps_sum (maj x1 : Nat) (s : Bool) (o : VextOps) : ((encVextOps maj x1 s o).map Prod.fst).sum = 32 := by
  simp [encVextOps, encHead]

theorem encRenqOps_sum (maj : Nat) (s : Bool) (o : RenqOps) : ((encRenqOps maj s o).map Prod.fst).sum = 32 := by
  simp [encRenqOps, encHead]

theorem encReg22_sum (maj : Nat) (s : Bool) (o : Reg2) : ((encReg22 maj s o).map Prod.fst).sum = 32 := by
  simp [encReg22, encHead]

theorem encCode16_sum (maj : Nat) (s : Bool) (code : Nat) : ((encCode16 maj s code).map Prod.fst).sum = 32 := by
  simp [encCode16, encHead]

theorem encSysOps_sum (maj : Nat) (s : Bool) (o : SysOps) : ((encSysOps maj s o).map Prod.fst).sum = 32 := by
  simp [encSysOps, encHead]

theorem encCode162_sum (maj : Nat) (s : Bool) (code : Nat) : ((encCode162 maj s code).map Prod.fst).sum = 32 := by
  simp [encCode162, encHead]

theorem encGuardOps_sum (maj : Nat) (s : Bool) (o : GuardOps) : ((encGuardOps maj s o).map Prod.fst).sum = 32 := by
  simp [encGuardOps, encHead]

theorem encTlbiOps_sum (maj : Nat) (s : Bool) (o : TlbiOps) : ((encTlbiOps maj s o).map Prod.fst).sum = 96 := by
  simp [encTlbiOps, encHead]

theorem encT2_sum (maj x1 : Nat) (s : Bool) (o : T2) : ((encT2 maj x1 s o).map Prod.fst).sum = 64 := by
  simp [encT2, encHead, encMods]

theorem encT3_sum (maj x1 : Nat) (s : Bool) (o : T3) : ((encT3 maj x1 s o).map Prod.fst).sum = 64 := by
  simp [encT3, encHead, encMods]

theorem encT2L_sum (maj x1 : Nat) (s : Bool) (o : T2L) : ((encT2L maj x1 s o).map Prod.fst).sum = 96 := by
  simp [encT2L, encHead, encMods]

theorem encT3L_sum (maj x1 : Nat) (s : Bool) (o : T3L) : ((encT3L maj x1 s o).map Prod.fst).sum = 96 := by
  simp [encT3L, encHead, encMods]

theorem encSelOps_sum (maj x1 : Nat) (s : Bool) (o : SelOps) : ((encSelOps maj x1 s o).map Prod.fst).sum = 64 := by
  simp [encSelOps, encHead, encMods]

theorem encCmpOps_sum (maj x1 : Nat) (s : Bool) (o : CmpOps) : ((encCmpOps maj x1 s o).map Prod.fst).sum = 64 := by
  simp [encCmpOps, encHead, encMods]

theorem encSelLOps_sum (maj x1 : Nat) (s : Bool) (o : SelLOps) : ((encSelLOps maj x1 s o).map Prod.fst).sum = 96 := by
  simp [encSelLOps, encHead, encMods]

theorem encCmpLOps_sum (maj x1 : Nat) (s : Bool) (o : CmpLOps) : ((encCmpLOps maj x1 s o).map Prod.fst).sum = 96 := by
  simp [encCmpLOps, encHead, encMods]

theorem encAxN4_sum (maj x1 : Nat) (s : Bool) (o : AxN4) : ((encAxN4 maj x1 s o).map Prod.fst).sum = 64 := by
  simp [encAxN4, encHead, encMods]

theorem encAxRed_sum (maj x1 : Nat) (s : Bool) (o : AxRed) : ((encAxRed maj x1 s o).map Prod.fst).sum = 64 := by
  simp [encAxRed, encHead, encMods]

theorem encAxN5_sum (maj x1 : Nat) (s : Bool) (o : AxN5) : ((encAxN5 maj x1 s o).map Prod.fst).sum = 64 := by
  simp [encAxN5, encHead, encMods]

theorem encAxN2_sum (maj x1 : Nat) (s : Bool) (o : AxN2) : ((encAxN2 maj x1 s o).map Prod.fst).sum = 64 := by
  simp [encAxN2, encHead, encMods]

theorem encAxN42_sum (maj x1 x2 : Nat) (s : Bool) (o : AxN4) : ((encAxN42 maj x1 x2 s o).map Prod.fst).sum = 64 := by
  simp [encAxN42, encHead, encMods]

theorem encT1_sum (maj x1 : Nat) (s : Bool) (o : T1) : ((encT1 maj x1 s o).map Prod.fst).sum = 64 := by
  simp [encT1, encHead, encMods]

theorem encCvtOps_sum (maj x1 : Nat) (s : Bool) (o : CvtOps) : ((encCvtOps maj x1 s o).map Prod.fst).sum = 64 := by
  simp [encCvtOps, encHead, encMods]

theorem encPackOps_sum (maj x1 : Nat) (s : Bool) (o : PackOps) : ((encPackOps maj x1 s o).map Prod.fst).sum = 64 := by
  simp [encPackOps, encHead, encMods]

theorem encUnpkOps_sum (maj x1 : Nat) (s : Bool) (o : UnpkOps) : ((encUnpkOps maj x1 s o).map Prod.fst).sum = 64 := by
  simp [encUnpkOps, encHead, encMods]

theorem encTMem_sum (maj x1 : Nat) (s : Bool) (o : TMem) : ((encTMem maj x1 s o).map Prod.fst).sum = 64 := by
  simp [encTMem, encHead]

theorem encTIdx_sum (maj x1 : Nat) (s : Bool) (o : TIdx) : ((encTIdx maj x1 s o).map Prod.fst).sum = 64 := by
  simp [encTIdx, encHead]

theorem encTQueue_sum (maj x1 : Nat) (s : Bool) (o : TQueue) : ((encTQueue maj x1 s o).map Prod.fst).sum = 64 := by
  simp [encTQueue, encHead]

theorem encRecMem_sum (maj x1 : Nat) (s : Bool) (o : RecMem) : ((encRecMem maj x1 s o).map Prod.fst).sum = 64 := by
  simp [encRecMem, encHead]

theorem encSwpOps_sum (maj x1 : Nat) (s : Bool) (o : SwpOps) : ((encSwpOps maj x1 s o).map Prod.fst).sum = 64 := by
  simp [encSwpOps, encHead]

theorem encXOnly_sum (maj x1 : Nat) (s : Bool) (o : XOnly) : ((encXOnly maj x1 s o).map Prod.fst).sum = 64 := by
  simp [encXOnly, encHead]

theorem encXOnly2_sum (maj x1 x2 : Nat) (s : Bool) (o : XOnly) : ((encXOnly2 maj x1 x2 s o).map Prod.fst).sum = 64 := by
  simp [encXOnly2, encHead]

theorem encEpushOps_sum (maj x1 : Nat) (s : Bool) (o : EpushOps) : ((encEpushOps maj x1 s o).map Prod.fst).sum = 64 := by
  simp [encEpushOps, encHead]

theorem encEflushOps_sum (maj x1 : Nat) (s : Bool) (o : EflushOps) : ((encEflushOps maj x1 s o).map Prod.fst).sum = 64 := by
  simp [encEflushOps, encHead]

theorem encTegoOps_sum (maj x1 : Nat) (s : Bool) (o : TegoOps) : ((encTegoOps maj x1 s o).map Prod.fst).sum = 64 := by
  simp [encTegoOps, encHead]

theorem encTestatOps_sum (maj x1 : Nat) (s : Bool) (o : TestatOps) : ((encTestatOps maj x1 s o).map Prod.fst).sum = 64 := by
  simp [encTestatOps, encHead]

theorem encTethrOps_sum (maj x1 : Nat) (s : Bool) (o : TethrOps) : ((encTethrOps maj x1 s o).map Prod.fst).sum = 64 := by
  simp [encTethrOps, encHead]

theorem encXPair_sum (maj x1 : Nat) (s : Bool) (o : XPair) : ((encXPair maj x1 s o).map Prod.fst).sum = 64 := by
  simp [encXPair, encHead]

theorem encX3_sum (maj x1 : Nat) (s : Bool) (o : X3) : ((encX3 maj x1 s o).map Prod.fst).sum = 64 := by
  simp [encX3, encHead]

theorem encX32_sum (maj x1 x2 : Nat) (s : Bool) (o : X3) : ((encX32 maj x1 x2 s o).map Prod.fst).sum = 64 := by
  simp [encX32, encHead]

theorem encDitFree_sum (maj x1 x2 : Nat) (s : Bool) (o : DitFree) : ((encDitFree maj x1 x2 s o).map Prod.fst).sum = 64 := by
  simp [encDitFree, encHead]

theorem encX2_sum (maj x1 : Nat) (s : Bool) (o : X2) : ((encX2 maj x1 s o).map Prod.fst).sum = 64 := by
  simp [encX2, encHead]

theorem encRx3_sum (maj x1 : Nat) (s : Bool) (o : Rx3) : ((encRx3 maj x1 s o).map Prod.fst).sum = 64 := by
  simp [encRx3, encHead]

theorem encRx2_sum (maj x1 : Nat) (s : Bool) (o : Rx2) : ((encRx2 maj x1 s o).map Prod.fst).sum = 64 := by
  simp [encRx2, encHead]

theorem encRx0_sum (maj x1 : Nat) (s : Bool) (o : Rx0) : ((encRx0 maj x1 s o).map Prod.fst).sum = 64 := by
  simp [encRx0, encHead]

theorem encRx1_sum (maj x1 : Nat) (s : Bool) (o : Rx1) : ((encRx1 maj x1 s o).map Prod.fst).sum = 64 := by
  simp [encRx1, encHead]

theorem encDBin_sum (maj x1 : Nat) (s : Bool) (o : DBin) : ((encDBin maj x1 s o).map Prod.fst).sum = 64 := by
  simp [encDBin, encHead]

theorem encDMixOps_sum (maj x1 : Nat) (s : Bool) (o : DMixOps) : ((encDMixOps maj x1 s o).map Prod.fst).sum = 64 := by
  simp [encDMixOps, encHead]

theorem encDUn_sum (maj x1 : Nat) (s : Bool) (o : DUn) : ((encDUn maj x1 s o).map Prod.fst).sum = 64 := by
  simp [encDUn, encHead]

theorem encDRow_sum (maj x1 : Nat) (s : Bool) (o : DRow) : ((encDRow maj x1 s o).map Prod.fst).sum = 64 := by
  simp [encDRow, encHead]

theorem encDAppOps_sum (maj x1 : Nat) (s : Bool) (o : DAppOps) : ((encDAppOps maj x1 s o).map Prod.fst).sum = 64 := by
  simp [encDAppOps, encHead]

theorem encDTagOps_sum (maj x1 : Nat) (s : Bool) (o : DTagOps) : ((encDTagOps maj x1 s o).map Prod.fst).sum = 64 := by
  simp [encDTagOps, encHead]

theorem encDUn2_sum (maj x1 x2 : Nat) (s : Bool) (o : DUn) : ((encDUn2 maj x1 x2 s o).map Prod.fst).sum = 64 := by
  simp [encDUn2, encHead]

theorem encDLdOps_sum (maj x1 : Nat) (s : Bool) (o : DLdOps) : ((encDLdOps maj x1 s o).map Prod.fst).sum = 64 := by
  simp [encDLdOps, encHead]

theorem encDStOps_sum (maj x1 : Nat) (s : Bool) (o : DStOps) : ((encDStOps maj x1 s o).map Prod.fst).sum = 64 := by
  simp [encDStOps, encHead]

theorem encDMk1_sum (maj x1 : Nat) (s : Bool) (o : DMk1) : ((encDMk1 maj x1 s o).map Prod.fst).sum = 64 := by
  simp [encDMk1, encHead]

theorem encDMk2_sum (maj x1 : Nat) (s : Bool) (o : DMk2) : ((encDMk2 maj x1 s o).map Prod.fst).sum = 64 := by
  simp [encDMk2, encHead]

theorem encDMomOps_sum (maj x1 : Nat) (s : Bool) (o : DMomOps) : ((encDMomOps maj x1 s o).map Prod.fst).sum = 64 := by
  simp [encDMomOps, encHead]

theorem encDQntOps_sum (maj x1 : Nat) (s : Bool) (o : DQntOps) : ((encDQntOps maj x1 s o).map Prod.fst).sum = 64 := by
  simp [encDQntOps, encHead]

theorem add (o) : Statement (.add o) := fun _ _ => encReg3_sum ..
theorem sub (o) : Statement (.sub o) := fun _ _ => encReg3_sum ..
theorem and (o) : Statement (.and o) := fun _ _ => encReg3_sum ..
theorem or (o) : Statement (.or o) := fun _ _ => encReg3_sum ..
theorem xor (o) : Statement (.xor o) := fun _ _ => encReg3_sum ..
theorem shl (o) : Statement (.shl o) := fun _ _ => encReg3_sum ..
theorem shr (o) : Statement (.shr o) := fun _ _ => encReg3_sum ..
theorem sar (o) : Statement (.sar o) := fun _ _ => encReg3_sum ..
theorem min (o) : Statement (.min o) := fun _ _ => encReg3_sum ..
theorem max (o) : Statement (.max o) := fun _ _ => encReg3_sum ..
theorem minu (o) : Statement (.minu o) := fun _ _ => encReg3_sum ..
theorem maxu (o) : Statement (.maxu o) := fun _ _ => encReg3_sum ..
theorem seq (o) : Statement (.seq o) := fun _ _ => encReg3_sum ..
theorem sne (o) : Statement (.sne o) := fun _ _ => encReg3_sum ..
theorem slt (o) : Statement (.slt o) := fun _ _ => encReg3_sum ..
theorem sltu (o) : Statement (.sltu o) := fun _ _ => encReg3_sum ..
theorem sge (o) : Statement (.sge o) := fun _ _ => encReg3_sum ..
theorem sgeu (o) : Statement (.sgeu o) := fun _ _ => encReg3_sum ..
theorem clz (o) : Statement (.clz o) := fun _ _ => encReg2_sum ..
theorem popc (o) : Statement (.popc o) := fun _ _ => encReg2_sum ..
theorem mul (o) : Statement (.mul o) := fun _ _ => encReg3_sum ..
theorem mulh (o) : Statement (.mulh o) := fun _ _ => encReg3_sum ..
theorem mulhu (o) : Statement (.mulhu o) := fun _ _ => encReg3_sum ..
theorem div (o) : Statement (.div o) := fun _ _ => encReg3_sum ..
theorem divu (o) : Statement (.divu o) := fun _ _ => encReg3_sum ..
theorem rem (o) : Statement (.rem o) := fun _ _ => encReg3_sum ..
theorem remu (o) : Statement (.remu o) := fun _ _ => encReg3_sum ..
theorem sel (o) : Statement (.sel o) := fun _ _ => encReg3_sum ..
theorem leaX1 (o) : Statement (.leaX1 o) := fun _ _ => encReg3_sum ..
theorem leaX2 (o) : Statement (.leaX2 o) := fun _ _ => encReg3_sum ..
theorem leaX4 (o) : Statement (.leaX4 o) := fun _ _ => encReg3_sum ..
theorem leaX8 (o) : Statement (.leaX8 o) := fun _ _ => encReg3_sum ..
theorem addi (o) : Statement (.addi o) := fun _ _ => encImm_sum ..
theorem subi (o) : Statement (.subi o) := fun _ _ => encImm_sum ..
theorem muli (o) : Statement (.muli o) := fun _ _ => encImm_sum ..
theorem divi (o) : Statement (.divi o) := fun _ _ => encImm_sum ..
theorem remi (o) : Statement (.remi o) := fun _ _ => encImm_sum ..
theorem andi (o) : Statement (.andi o) := fun _ _ => encImm_sum ..
theorem ori (o) : Statement (.ori o) := fun _ _ => encImm_sum ..
theorem xori (o) : Statement (.xori o) := fun _ _ => encImm_sum ..
theorem shli (o) : Statement (.shli o) := fun _ _ => encShImm_sum ..
theorem shri (o) : Statement (.shri o) := fun _ _ => encShImm_sum ..
theorem sari (o) : Statement (.sari o) := fun _ _ => encShImm_sum ..
theorem slti (o) : Statement (.slti o) := fun _ _ => encImm_sum ..
theorem sltiu (o) : Statement (.sltiu o) := fun _ _ => encImm_sum ..
theorem seqi (o) : Statement (.seqi o) := fun _ _ => encImm_sum ..
theorem mini (o) : Statement (.mini o) := fun _ _ => encImm_sum ..
theorem maxi (o) : Statement (.maxi o) := fun _ _ => encImm_sum ..
theorem lit (o) : Statement (.lit o) := fun _ _ => encLitOps_sum ..
theorem addLit (o) : Statement (.addLit o) := fun _ _ => encSLit_sum ..
theorem subLit (o) : Statement (.subLit o) := fun _ _ => encSLit_sum ..
theorem andLit (o) : Statement (.andLit o) := fun _ _ => encSLit_sum ..
theorem orLit (o) : Statement (.orLit o) := fun _ _ => encSLit_sum ..
theorem xorLit (o) : Statement (.xorLit o) := fun _ _ => encSLit_sum ..
theorem shlLit (o) : Statement (.shlLit o) := fun _ _ => encSLit_sum ..
theorem shrLit (o) : Statement (.shrLit o) := fun _ _ => encSLit_sum ..
theorem sarLit (o) : Statement (.sarLit o) := fun _ _ => encSLit_sum ..
theorem minLit (o) : Statement (.minLit o) := fun _ _ => encSLit_sum ..
theorem maxLit (o) : Statement (.maxLit o) := fun _ _ => encSLit_sum ..
theorem minuLit (o) : Statement (.minuLit o) := fun _ _ => encSLit_sum ..
theorem maxuLit (o) : Statement (.maxuLit o) := fun _ _ => encSLit_sum ..
theorem seqLit (o) : Statement (.seqLit o) := fun _ _ => encSLit_sum ..
theorem sneLit (o) : Statement (.sneLit o) := fun _ _ => encSLit_sum ..
theorem sltLit (o) : Statement (.sltLit o) := fun _ _ => encSLit_sum ..
theorem sltuLit (o) : Statement (.sltuLit o) := fun _ _ => encSLit_sum ..
theorem sgeLit (o) : Statement (.sgeLit o) := fun _ _ => encSLit_sum ..
theorem sgeuLit (o) : Statement (.sgeuLit o) := fun _ _ => encSLit_sum ..
theorem mulLit (o) : Statement (.mulLit o) := fun _ _ => encSLit_sum ..
theorem mulhLit (o) : Statement (.mulhLit o) := fun _ _ => encSLit_sum ..
theorem mulhuLit (o) : Statement (.mulhuLit o) := fun _ _ => encSLit_sum ..
theorem divLit (o) : Statement (.divLit o) := fun _ _ => encSLit_sum ..
theorem divuLit (o) : Statement (.divuLit o) := fun _ _ => encSLit_sum ..
theorem remLit (o) : Statement (.remLit o) := fun _ _ => encSLit_sum ..
theorem remuLit (o) : Statement (.remuLit o) := fun _ _ => encSLit_sum ..
theorem ldB (o) : Statement (.ldB o) := fun _ _ => encImm_sum ..
theorem ldBu (o) : Statement (.ldBu o) := fun _ _ => encImm_sum ..
theorem ldH (o) : Statement (.ldH o) := fun _ _ => encImm_sum ..
theorem ldHu (o) : Statement (.ldHu o) := fun _ _ => encImm_sum ..
theorem ldW (o) : Statement (.ldW o) := fun _ _ => encImm_sum ..
theorem ldWu (o) : Statement (.ldWu o) := fun _ _ => encImm_sum ..
theorem ldD (o) : Statement (.ldD o) := fun _ _ => encImm_sum ..
theorem stB (o) : Statement (.stB o) := fun _ _ => encImm_sum ..
theorem stH (o) : Statement (.stH o) := fun _ _ => encImm_sum ..
theorem stW (o) : Statement (.stW o) := fun _ _ => encImm_sum ..
theorem stD (o) : Statement (.stD o) := fun _ _ => encImm_sum ..
theorem lda (o) : Statement (.lda o) := fun _ _ => encImm_sum ..
theorem stl (o) : Statement (.stl o) := fun _ _ => encImm_sum ..
theorem ldq (o) : Statement (.ldq o) := fun _ _ => encLdqOps_sum ..
theorem qpop (o) : Statement (.qpop o) := fun _ _ => encQRead_sum ..
theorem qpeek (o) : Statement (.qpeek o) := fun _ _ => encQRead_sum ..
theorem qpush (o) : Statement (.qpush o) := fun _ _ => encQPushOps_sum ..
theorem qlen (o) : Statement (.qlen o) := fun _ _ => encQRead_sum ..
theorem beq (o) : Statement (.beq o) := fun _ _ => encBr_sum ..
theorem bne (o) : Statement (.bne o) := fun _ _ => encBr_sum ..
theorem blt (o) : Statement (.blt o) := fun _ _ => encBr_sum ..
theorem bge (o) : Statement (.bge o) := fun _ _ => encBr_sum ..
theorem bltu (o) : Statement (.bltu o) := fun _ _ => encBr_sum ..
theorem bgeu (o) : Statement (.bgeu o) := fun _ _ => encBr_sum ..
theorem jmp (o) : Statement (.jmp o) := fun _ _ => encJmpOps_sum ..
theorem jal (o) : Statement (.jal o) := fun _ _ => encJalOps_sum ..
theorem jr (o) : Statement (.jr o) := fun _ _ => encImm_sum ..
theorem loop (o) : Statement (.loop o) := fun _ _ => encLoopOps_sum ..
theorem loopi (o) : Statement (.loopi o) := fun _ _ => encLoopiOps_sum ..
theorem cadd (o) : Statement (.cadd o) := fun _ _ => encCntOwn_sum ..
theorem caddRemote (o) : Statement (.caddRemote o) := fun _ _ => encCntRemote_sum ..
theorem caddPage (o) : Statement (.caddPage o) := fun _ _ => encCntPage_sum ..
theorem cwait (o) : Statement (.cwait o) := fun _ _ => encCWaitOwn_sum ..
theorem cwaitPage (o) : Statement (.cwaitPage o) := fun _ _ => encCWaitPage_sum ..
theorem cread (o) : Statement (.cread o) := fun _ _ => encCntOwn_sum ..
theorem creadRemote (o) : Statement (.creadRemote o) := fun _ _ => encCntRemote_sum ..
theorem creadPage (o) : Statement (.creadPage o) := fun _ _ => encCntPage_sum ..
theorem crst (o) : Statement (.crst o) := fun _ _ => encCntOwn_sum ..
theorem crstPage (o) : Statement (.crstPage o) := fun _ _ => encCntPage_sum ..
theorem fence (o) : Statement (.fence o) := fun _ _ => encFenceOps_sum ..
theorem aadd (o) : Statement (.aadd o) := fun _ _ => encAtomOps_sum ..
theorem amin (o) : Statement (.amin o) := fun _ _ => encAtomOps_sum ..
theorem amax (o) : Statement (.amax o) := fun _ _ => encAtomOps_sum ..
theorem aminu (o) : Statement (.aminu o) := fun _ _ => encAtomOps_sum ..
theorem amaxu (o) : Statement (.amaxu o) := fun _ _ => encAtomOps_sum ..
theorem aand (o) : Statement (.aand o) := fun _ _ => encAtomOps_sum ..
theorem aor (o) : Statement (.aor o) := fun _ _ => encAtomOps_sum ..
theorem axor (o) : Statement (.axor o) := fun _ _ => encAtomOps_sum ..
theorem aswp (o) : Statement (.aswp o) := fun _ _ => encAtomOps_sum ..
theorem acas (o) : Statement (.acas o) := fun _ _ => encAtomOps_sum ..
theorem afadd (o) : Statement (.afadd o) := fun _ _ => encAtomOps_sum ..
theorem pand (o) : Statement (.pand o) := fun _ _ => encPred3_sum ..
theorem por (o) : Statement (.por o) := fun _ _ => encPred3_sum ..
theorem pnot (o) : Statement (.pnot o) := fun _ _ => encPred2_sum ..
theorem pset (o) : Statement (.pset o) := fun _ _ => encPSetOps_sum ..
theorem vmov (o) : Statement (.vmov o) := fun _ _ => encMov2_sum ..
theorem vsplat (o) : Statement (.vsplat o) := fun _ _ => encMov2_sum ..
theorem vins (o) : Statement (.vins o) := fun _ _ => encMov3_sum ..
theorem vext (o) : Statement (.vext o) := fun _ _ => encVextOps_sum ..
theorem renq (o) : Statement (.renq o) := fun _ _ => encRenqOps_sum ..
theorem dlaunch (o) : Statement (.dlaunch o) := fun _ _ => encReg22_sum ..
theorem srd (o) : Statement (.srd o) := fun _ _ => encSysOps_sum ..
theorem swr (o) : Statement (.swr o) := fun _ _ => encSysOps_sum ..
theorem spguard (o) : Statement (.spguard o) := fun _ _ => encGuardOps_sum ..
theorem tlbi (o) : Statement (.tlbi o) := fun _ _ => encTlbiOps_sum ..
theorem vadd (o) : Statement (.vadd o) := fun _ _ => encT2_sum ..
theorem vsub (o) : Statement (.vsub o) := fun _ _ => encT2_sum ..
theorem vmul (o) : Statement (.vmul o) := fun _ _ => encT2_sum ..
theorem vfma (o) : Statement (.vfma o) := fun _ _ => encT3_sum ..
theorem vmin (o) : Statement (.vmin o) := fun _ _ => encT2_sum ..
theorem vmax (o) : Statement (.vmax o) := fun _ _ => encT2_sum ..
theorem vaddLit (o) : Statement (.vaddLit o) := fun _ _ => encT2L_sum ..
theorem vsubLit (o) : Statement (.vsubLit o) := fun _ _ => encT2L_sum ..
theorem vmulLit (o) : Statement (.vmulLit o) := fun _ _ => encT2L_sum ..
theorem vfmaLit (o) : Statement (.vfmaLit o) := fun _ _ => encT3L_sum ..
theorem vminLit (o) : Statement (.vminLit o) := fun _ _ => encT2L_sum ..
theorem vmaxLit (o) : Statement (.vmaxLit o) := fun _ _ => encT2L_sum ..
theorem viadd (o) : Statement (.viadd o) := fun _ _ => encT2_sum ..
theorem visub (o) : Statement (.visub o) := fun _ _ => encT2_sum ..
theorem vimul (o) : Statement (.vimul o) := fun _ _ => encT2_sum ..
theorem vand (o) : Statement (.vand o) := fun _ _ => encT2_sum ..
theorem vor (o) : Statement (.vor o) := fun _ _ => encT2_sum ..
theorem vxor (o) : Statement (.vxor o) := fun _ _ => encT2_sum ..
theorem vshl (o) : Statement (.vshl o) := fun _ _ => encT2_sum ..
theorem vshr (o) : Statement (.vshr o) := fun _ _ => encT2_sum ..
theorem vsar (o) : Statement (.vsar o) := fun _ _ => encT2_sum ..
theorem vsel (o) : Statement (.vsel o) := fun _ _ => encSelOps_sum ..
theorem vcmp (o) : Statement (.vcmp o) := fun _ _ => encCmpOps_sum ..
theorem viaddLit (o) : Statement (.viaddLit o) := fun _ _ => encT2L_sum ..
theorem visubLit (o) : Statement (.visubLit o) := fun _ _ => encT2L_sum ..
theorem vimulLit (o) : Statement (.vimulLit o) := fun _ _ => encT2L_sum ..
theorem vandLit (o) : Statement (.vandLit o) := fun _ _ => encT2L_sum ..
theorem vorLit (o) : Statement (.vorLit o) := fun _ _ => encT2L_sum ..
theorem vxorLit (o) : Statement (.vxorLit o) := fun _ _ => encT2L_sum ..
theorem vshlLit (o) : Statement (.vshlLit o) := fun _ _ => encT2L_sum ..
theorem vshrLit (o) : Statement (.vshrLit o) := fun _ _ => encT2L_sum ..
theorem vsarLit (o) : Statement (.vsarLit o) := fun _ _ => encT2L_sum ..
theorem vselLit (o) : Statement (.vselLit o) := fun _ _ => encSelLOps_sum ..
theorem vcmpLit (o) : Statement (.vcmpLit o) := fun _ _ => encCmpLOps_sum ..
theorem vrotc (o) : Statement (.vrotc o) := fun _ _ => encAxN4_sum ..
theorem vbcc (o) : Statement (.vbcc o) := fun _ _ => encAxN4_sum ..
theorem vredc (o) : Statement (.vredc o) := fun _ _ => encAxRed_sum ..
theorem vrotw (o) : Statement (.vrotw o) := fun _ _ => encAxN5_sum ..
theorem vbcw (o) : Statement (.vbcw o) := fun _ _ => encAxN2_sum ..
theorem vbcwCol (o) : Statement (.vbcwCol o) := fun _ _ => encAxN42_sum ..
theorem vredw (o) : Statement (.vredw o) := fun _ _ => encAxRed_sum ..
theorem vtrn (o) : Statement (.vtrn o) := fun _ _ => encT1_sum ..
theorem vrcp (o) : Statement (.vrcp o) := fun _ _ => encT1_sum ..
theorem vrsq (o) : Statement (.vrsq o) := fun _ _ => encT1_sum ..
theorem vsqrt (o) : Statement (.vsqrt o) := fun _ _ => encT1_sum ..
theorem vexp2 (o) : Statement (.vexp2 o) := fun _ _ => encT1_sum ..
theorem vlog2 (o) : Statement (.vlog2 o) := fun _ _ => encT1_sum ..
theorem vsin (o) : Statement (.vsin o) := fun _ _ => encT1_sum ..
theorem vcos (o) : Statement (.vcos o) := fun _ _ => encT1_sum ..
theorem vtanh (o) : Statement (.vtanh o) := fun _ _ => encT1_sum ..
theorem vsigm (o) : Statement (.vsigm o) := fun _ _ => encT1_sum ..
theorem verf (o) : Statement (.verf o) := fun _ _ => encT1_sum ..
theorem vcvt (o) : Statement (.vcvt o) := fun _ _ => encCvtOps_sum ..
theorem vpack (o) : Statement (.vpack o) := fun _ _ => encPackOps_sum ..
theorem vunpk (o) : Statement (.vunpk o) := fun _ _ => encUnpkOps_sum ..
theorem vld (o) : Statement (.vld o) := fun _ _ => encTMem_sum ..
theorem vst (o) : Statement (.vst o) := fun _ _ => encTMem_sum ..
theorem vldg (o) : Statement (.vldg o) := fun _ _ => encTIdx_sum ..
theorem vsts (o) : Statement (.vsts o) := fun _ _ => encTIdx_sum ..
theorem vqpop (o) : Statement (.vqpop o) := fun _ _ => encTQueue_sum ..
theorem vqpush (o) : Statement (.vqpush o) := fun _ _ => encTQueue_sum ..
theorem ild (o) : Statement (.ild o) := fun _ _ => encRecMem_sum ..
theorem ist (o) : Statement (.ist o) := fun _ _ => encRecMem_sum ..
theorem sld (o) : Statement (.sld o) := fun _ _ => encRecMem_sum ..
theorem swp (o) : Statement (.swp o) := fun _ _ => encSwpOps_sum ..
theorem cbld (o) : Statement (.cbld o) := fun _ _ => encXOnly_sum ..
theorem seed (o) : Statement (.seed o) := fun _ _ => encXOnly_sum ..
theorem seedCe (o) : Statement (.seedCe o) := fun _ _ => encXOnly2_sum ..
theorem epush (o) : Statement (.epush o) := fun _ _ => encEpushOps_sum ..
theorem estart (o) : Statement (.estart o) := fun _ _ => encXOnly_sum ..
theorem eflush (o) : Statement (.eflush o) := fun _ _ => encEflushOps_sum ..
theorem tcfg (o) : Statement (.tcfg o) := fun _ _ => encXOnly_sum ..
theorem tego (o) : Statement (.tego o) := fun _ _ => encTegoOps_sum ..
theorem testat (o) : Statement (.testat o) := fun _ _ => encTestatOps_sum ..
theorem tethr (o) : Statement (.tethr o) := fun _ _ => encTethrOps_sum ..
theorem hptcfg (o) : Statement (.hptcfg o) := fun _ _ => encXPair_sum ..
theorem ditswpSwap (o) : Statement (.ditswpSwap o) := fun _ _ => encX3_sum ..
theorem ditswpSet (o) : Statement (.ditswpSet o) := fun _ _ => encX32_sum ..
theorem ditswpFree (o) : Statement (.ditswpFree o) := fun _ _ => encDitFree_sum ..
theorem rxopen (o) : Statement (.rxopen o) := fun _ _ => encX2_sum ..
theorem rxsend (o) : Statement (.rxsend o) := fun _ _ => encRx3_sum ..
theorem rxrecv (o) : Statement (.rxrecv o) := fun _ _ => encRx2_sum ..
theorem rxfree (o) : Statement (.rxfree o) := fun _ _ => encRx0_sum ..
theorem rxclose (o) : Statement (.rxclose o) := fun _ _ => encRx1_sum ..
theorem rxstat (o) : Statement (.rxstat o) := fun _ _ => encRx2_sum ..
theorem dadd (o) : Statement (.dadd o) := fun _ _ => encDBin_sum ..
theorem dsub (o) : Statement (.dsub o) := fun _ _ => encDBin_sum ..
theorem dmul (o) : Statement (.dmul o) := fun _ _ => encDBin_sum ..
theorem dmax (o) : Statement (.dmax o) := fun _ _ => encDBin_sum ..
theorem dmix (o) : Statement (.dmix o) := fun _ _ => encDMixOps_sum ..
theorem dcond (o) : Statement (.dcond o) := fun _ _ => encDUn_sum ..
theorem dscl (o) : Statement (.dscl o) := fun _ _ => encDRow_sum ..
theorem dshf (o) : Statement (.dshf o) := fun _ _ => encDRow_sum ..
theorem drelu (o) : Statement (.drelu o) := fun _ _ => encDUn_sum ..
theorem dapp (o) : Statement (.dapp o) := fun _ _ => encDAppOps_sum ..
theorem dtag (o) : Statement (.dtag o) := fun _ _ => encDTagOps_sum ..
theorem dtagPm (o) : Statement (.dtagPm o) := fun _ _ => encDUn2_sum ..
theorem tagnext (o) : Statement (.tagnext o) := fun _ _ => encDUn_sum ..
theorem dld (o) : Statement (.dld o) := fun _ _ => encDLdOps_sum ..
theorem dst (o) : Statement (.dst o) := fun _ _ => encDStOps_sum ..
theorem dmkp (o) : Statement (.dmkp o) := fun _ _ => encDMk1_sum ..
theorem dmku (o) : Statement (.dmku o) := fun _ _ => encDMk2_sum ..
theorem dmkq (o) : Statement (.dmkq o) := fun _ _ => encDMk1_sum ..
theorem dmom (o) : Statement (.dmom o) := fun _ _ => encDMomOps_sum ..
theorem dqnt (o) : Statement (.dqnt o) := fun _ _ => encDQntOps_sum ..
theorem counterWaitSatisfied : Statement .counterWaitSatisfied := fun _ _ => rfl
theorem cwaitTimeout : Statement .cwaitTimeout := fun _ _ => rfl
theorem qsync : Statement .qsync := fun _ _ => encPlain_sum ..
theorem exit : Statement .exit := fun _ _ => encPlain_sum ..
theorem safe : Statement .safe := fun _ _ => encCode16_sum ..
theorem trap : Statement .trap := fun _ _ => encCode16_sum ..
theorem tret : Statement .tret := fun _ _ => encPlain_sum ..
theorem bkpt : Statement .bkpt := fun _ _ => encCode16_sum ..
theorem halt : Statement .halt := fun _ _ => encPlain_sum ..
theorem nop : Statement .nop := fun _ _ => encPlain_sum ..
theorem tlbsync : Statement .tlbsync := fun _ _ => encCode162_sum ..
theorem tlbEntryDrop : Statement .tlbEntryDrop := fun _ _ => rfl
theorem tlbiAcknowledge : Statement .tlbiAcknowledge := fun _ _ => rfl
theorem tlbsyncComplete : Statement .tlbsyncComplete := fun _ _ => rfl
theorem wideWordIssue : Statement .wideWordIssue := fun _ _ => rfl
theorem tcfgComplete : Statement .tcfgComplete := fun _ _ => rfl
theorem mxlds : Statement .mxlds := fun _ _ => rfl
theorem mxrun : Statement .mxrun := fun _ _ => rfl
theorem mxout : Statement .mxout := fun _ _ => rfl
theorem mxzero : Statement .mxzero := fun _ _ => rfl
theorem mxrdaSt : Statement .mxrdaSt := fun _ _ => rfl
theorem mxrdaLd : Statement .mxrdaLd := fun _ _ => rfl
theorem cpy : Statement .cpy := fun _ _ => rfl
theorem cpyg : Statement .cpyg := fun _ _ => rfl
theorem cpys : Statement .cpys := fun _ _ => rfl
theorem cpym : Statement .cpym := fun _ _ => rfl
theorem pub : Statement .pub := fun _ _ => rfl
theorem cwt : Statement .cwt := fun _ _ => rfl
theorem cad : Statement .cad := fun _ _ => rfl
theorem copyRow : Statement .copyRow := fun _ _ => rfl
theorem engineRetire : Statement .engineRetire := fun _ _ => rfl
theorem bridleStreamBegin : Statement .bridleStreamBegin := fun _ _ => rfl
theorem bridleFetch : Statement .bridleFetch := fun _ _ => rfl
theorem ldqFill : Statement .ldqFill := fun _ _ => rfl
theorem blockingCompletion : Statement .blockingCompletion := fun _ _ => rfl
theorem postedStoreAck : Statement .postedStoreAck := fun _ _ => rfl
theorem gangFirstIssue : Statement .gangFirstIssue := fun _ _ => rfl
theorem gangComplete : Statement .gangComplete := fun _ _ => rfl
theorem paddockDecision : Statement .paddockDecision := fun _ _ => rfl
theorem preemptDrainEnd : Statement .preemptDrainEnd := fun _ _ => rfl
theorem contextSaveComplete : Statement .contextSaveComplete := fun _ _ => rfl
theorem hardPreemption : Statement .hardPreemption := fun _ _ => rfl
theorem asyncEventTaken : Statement .asyncEventTaken := fun _ _ => rfl
theorem forcedQuietPoint : Statement .forcedQuietPoint := fun _ _ => rfl
theorem watchdog : Statement .watchdog := fun _ _ => rfl
theorem enghang : Statement .enghang := fun _ _ => rfl
theorem scratchpadClear : Statement .scratchpadClear := fun _ _ => rfl
theorem debugHaltRequest : Statement .debugHaltRequest := fun _ _ => rfl
theorem debugStateWrite : Statement .debugStateWrite := fun _ _ => rfl
theorem debugResume : Statement .debugResume := fun _ _ => rfl
theorem shardRecordRead : Statement .shardRecordRead := fun _ _ => rfl
theorem hopStart : Statement .hopStart := fun _ _ => rfl
theorem hopGranule : Statement .hopGranule := fun _ _ => rfl
theorem hopDone : Statement .hopDone := fun _ _ => rfl
theorem throttleWindowEnd : Statement .throttleWindowEnd := fun _ _ => rfl
theorem trackingPeriodEnd : Statement .trackingPeriodEnd := fun _ _ => rfl
theorem moveFinalSwap : Statement .moveFinalSwap := fun _ _ => rfl
theorem frameReturn : Statement .frameReturn := fun _ _ => rfl
theorem selfRefreshEntry : Statement .selfRefreshEntry := fun _ _ => rfl
theorem slabStart : Statement .slabStart := fun _ _ => rfl
theorem slabSourceRead : Statement .slabSourceRead := fun _ _ => rfl
theorem slabArrival : Statement .slabArrival := fun _ _ => rfl
theorem rxfreeEffect : Statement .rxfreeEffect := fun _ _ => rfl
theorem relayPermitGrant : Statement .relayPermitGrant := fun _ _ => rfl
theorem rxrecvDeliver : Statement .rxrecvDeliver := fun _ _ => rfl
theorem channelDrainClose : Statement .channelDrainClose := fun _ _ => rfl
theorem meshRoute : Statement .meshRoute := fun _ _ => rfl
theorem switchCycle : Statement .switchCycle := fun _ _ => rfl
theorem peerIngress : Statement .peerIngress := fun _ _ => rfl
theorem multicastForward : Statement .multicastForward := fun _ _ => rfl
theorem peerTimeout : Statement .peerTimeout := fun _ _ => rfl
theorem linkDown : Statement .linkDown := fun _ _ => rfl
theorem ctxcreate : Statement .ctxcreate := fun _ _ => rfl
theorem ctxdestroy : Statement .ctxdestroy := fun _ _ => rfl
theorem map : Statement .map := fun _ _ => rfl
theorem unmap : Statement .unmap := fun _ _ => rfl
theorem itinreg : Statement .itinreg := fun _ _ => rfl
theorem submit : Statement .submit := fun _ _ => rfl
theorem corral : Statement .corral := fun _ _ => rfl
theorem enqueue : Statement .enqueue := fun _ _ => rfl
theorem creadCommand : Statement .creadCommand := fun _ _ => rfl
theorem vireset : Statement .vireset := fun _ _ => rfl
theorem assign : Statement .assign := fun _ _ => rfl
theorem fabcfgGroup : Statement .fabcfgGroup := fun _ _ => rfl
theorem fabcfgMirror : Statement .fabcfgMirror := fun _ _ => rfl
theorem batchForm : Statement .batchForm := fun _ _ => rfl
theorem sqNotify : Statement .sqNotify := fun _ _ => rfl
theorem stampRetry : Statement .stampRetry := fun _ _ => rfl
theorem stampTimeout : Statement .stampTimeout := fun _ _ => rfl
theorem qcfgEnable : Statement .qcfgEnable := fun _ _ => rfl
theorem qcfgDisable : Statement .qcfgDisable := fun _ _ => rfl
theorem eqheadWrite : Statement .eqheadWrite := fun _ _ => rfl
theorem dbgenWrite : Statement .dbgenWrite := fun _ _ => rfl
theorem rstctlReset : Statement .rstctlReset := fun _ _ => rfl
theorem rstctlClearTrip : Statement .rstctlClearTrip := fun _ _ => rfl
theorem registerWrite : Statement .registerWrite := fun _ _ => rfl
theorem powerOnReset : Statement .powerOnReset := fun _ _ => rfl
theorem thermalUpdate : Statement .thermalUpdate := fun _ _ => rfl
theorem thermalTrip : Statement .thermalTrip := fun _ _ => rfl
theorem decodingFault : Statement .decodingFault := fun _ _ => rfl
theorem fetchBlockArrival : Statement .fetchBlockArrival := fun _ _ => rfl
theorem configurationRequest : Statement .configurationRequest := fun _ _ => rfl
theorem atomicMessageArrival : Statement .atomicMessageArrival := fun _ _ => rfl

end Sys2Proof.Laws.Encoded
end

