-- ==== Sys2Proof/Tests/Slice0.lean ====
section
/-!
SUPPORT. Tests: ill-formed terms that each check of well-formedness refuses, words written out from the encodings, one-step
results worked out from the spec, and for every statement with hypotheses a state and operands that meet them.
-/

namespace Sys2Proof.Tests

set_option Elab.async false

open Sys2Proof.Machine

/-! ### Well-formedness -/

/-- Modifiers of Table 7-2 with every field 0 but the element type. -/
def plain (t : ETy) : Mods :=
  { negA := false, absA := false, negB := false, absB := false, negC := false, absC := false, clamp := .none, scale := 0,
    rnd := .rne, reuse := false, ety := t, pred := 0 }

/-- Operands of two sources. -/
def t2 (m : Mods) : T2 := { d := 1, a := 2, b := 3, m := m }

/-- Operands of one source. -/
def t1 (m : Mods) : T1 := { d := 1, a := 2, m := m }

/-- A reduction. -/
def ax (red : BitVec 3) (m : Mods) : AxRed := { d := 1, a := 2, red := red, m := m }

/-- A sweep with op, b, c and type given. -/
def sw (op b c : BitVec 4) (r : Rnd) (t : ETy) : SwpOps :=
  { d := 1, a := 2, b := b, c := c, op := op, clamp := .none, scale := 0, rnd := r, ety := t }

/-- A command with wait and add enables and fields. -/
def cmd (we : Bool) (ws : BitVec 9) (ae : Bool) (as : BitVec 9) (op : EngOp) : EngCmd :=
  { h := { pushNext := false, pushPrev := false, popNext := false, popPrev := false, waitEn := we, waitSlot := ws, waitVal := 0,
           addEn := ae, addSlot := as }, op := op }

/-- Loops of length 0, unlisted scopes and flavours, TLBI scopes and the reserved ASID field (R138, Table 7-10, R160). -/
theorem test_wf_control :
    Instr.wf (.loop { ra := 1, off := 0 }) = false ∧ Instr.wf (.loop { ra := 1, off := 1 }) = true ∧
    Instr.wf (.loopi { count := 1, off := 0 }) = false ∧
    Instr.wf (.fence { flavour := 1, scope := 5 }) = false ∧ Instr.wf (.fence { flavour := 0, scope := 4 }) = false ∧
    Instr.wf (.fence { flavour := 1, scope := 4 }) = true ∧
    Instr.wf (.tlbi { ra := 1, rb := 2, asid := 0, scope := 1, all := false }) = false ∧
    Instr.wf (.tlbi { ra := 1, rb := 2, asid := 0, scope := 5, all := false }) = false ∧
    Instr.wf (.tlbi { ra := 1, rb := 2, asid := 7, scope := 4, all := true }) = false ∧
    Instr.wf (.tlbi { ra := 1, rb := 2, asid := 7, scope := 4, all := false }) = true := by decide

/-- Types and modifiers of the tile instructions (Table 13-1). -/
theorem test_wf_tile :
    Instr.wf (.vadd (t2 (plain .e4m3))) = false ∧ Instr.wf (.vadd (t2 (plain .i32))) = false ∧
    Instr.wf (.vadd (t2 { plain .f32 with negC := true })) = false ∧ Instr.wf (.vadd (t2 { plain .f32 with negB := true })) = true ∧
    Instr.wf (.viadd (t2 (plain .f32))) = false ∧ Instr.wf (.viadd (t2 { plain .ui8 with negA := true })) = false ∧
    Instr.wf (.viadd (t2 { plain .i8 with negA := true })) = true ∧
    Instr.wf (.vand (t2 { plain .i32 with scale := 1 })) = false ∧ Instr.wf (.vand (t2 (plain .ui16))) = true ∧
    Instr.wf (.vsel { d := 1, a := 2, b := 3, sel := 1, m := plain .i32 }) = false ∧
    Instr.wf (.vsel { d := 1, a := 2, b := 3, sel := 1, m := plain .f32 }) = true ∧
    Instr.wf (.vcmp { pd := 1, a := 2, b := 3, cond := 8, any := false, m := plain .f32 }) = false ∧
    Instr.wf (.vcmp { pd := 1, a := 2, b := 3, cond := 7, any := false, m := plain .e5m2 }) = false ∧
    Instr.wf (.vcmp { pd := 1, a := 2, b := 3, cond := 7, any := false, m := plain .f16 }) = true := by decide

/-- Reductions, special functions and conversions (Tables 13-1 and 13-9, R179-R181). -/
theorem test_wf_convert :
    Instr.wf (.vredc (ax 6 (plain .i32))) = false ∧ Instr.wf (.vredc (ax 3 (plain .f32))) = false ∧
    Instr.wf (.vredc (ax 5 (plain .i32))) = true ∧ Instr.wf (.vredc (ax 2 (plain .f32))) = true ∧
    Instr.wf (.vredw (ax 0 { plain .f32 with rnd := .sr })) = false ∧ Instr.wf (.vredc (ax 0 { plain .f32 with rnd := .sr })) = true ∧
    Instr.wf (.vrcp (t1 (plain .f64))) = true ∧ Instr.wf (.vexp2 (t1 (plain .f64))) = false ∧
    Instr.wf (.vsin (t1 { plain .f32 with negB := true })) = false ∧
    Instr.wf (.vcvt { d := 1, a := 2, sty := .f16, keep := true, m := plain .f32 }) = false ∧
    Instr.wf (.vcvt { d := 1, a := 2, sty := .f32, keep := true, m := plain .f16 }) = true ∧
    Instr.wf (.vpack { d := 1, a := 2, b := 3, sty := .f32, m := plain .f32 }) = false ∧
    Instr.wf (.vpack { d := 1, a := 2, b := 3, sty := .f32, m := plain .bf16 }) = true ∧
    Instr.wf (.vunpk { d := 1, a := 2, sty := .f32, hi := false, m := plain .f16 }) = false ∧
    Instr.wf (.vunpk { d := 1, a := 2, sty := .f16, hi := true, m := plain .f32 }) = true := by decide

/-- Stores of pitch 0, sweeps, engine queues, distributions (R188, Table 13-15, R218, R280, R284, R285, R288). -/
theorem test_wf_memory :
    Instr.wf (.vst { d := 1, a := 2, pitch := 0, pred := 0 }) = false ∧ Instr.wf (.vld { d := 1, a := 2, pitch := 0, pred := 0 }) = true ∧
    Instr.wf (.swp (sw 7 0 0 .rne .f32)) = false ∧ Instr.wf (.swp (sw 6 1 0 .rne .f32)) = false ∧
    Instr.wf (.swp (sw 0 1 1 .rne .f32)) = false ∧ Instr.wf (.swp (sw 3 1 1 .rne .f32)) = true ∧
    Instr.wf (.swp (sw 0 1 0 .sr .f32)) = false ∧ Instr.wf (.swp (sw 0 1 0 .rne .i16)) = false ∧
    Instr.wf (.epush { a := 1, b := 2, queue := 3 }) = false ∧ Instr.wf (.epush { a := 1, b := 2, queue := 2 }) = true ∧
    Instr.wf (.dld { d := 1, a := 2, mode := 3 }) = false ∧
    Instr.wf (.dapp { d := 1, a := 2, pred := 0, fn := 10 }) = false ∧ Instr.wf (.dapp { d := 1, a := 2, pred := 0, fn := 9 }) = true ∧
    Instr.wf (.dmkq { d := 1, a := 2, r := 9, pred := 0 }) = false ∧ Instr.wf (.dmkq { d := 1, a := 2, r := 8, pred := 0 }) = true ∧
    Instr.wf (.dqnt { d := 1, a := 2, r := 0, pred := 0, q := 1001 }) = false ∧
    Instr.wf (.dqnt { d := 1, a := 2, r := 0, pred := 0, q := 1000 }) = true := by decide

/-- Engine commands (R90, R91, R238, Table 15-7). -/
theorem test_wf_commands :
    EngCmd.wf (cmd false 1 false 0 (.mxzero 1)) = false ∧ EngCmd.wf (cmd false 0 false 1 (.mxzero 1)) = false ∧
    EngCmd.wf (cmd true 1 true 1 (.mxzero 1)) = true ∧
    EngCmd.wf (cmd false 0 false 0 (.mxrun 0 false false 16)) = false ∧ EngCmd.wf (cmd false 0 false 0 (.mxrun 0 false true 16)) = true ∧
    EngCmd.wf (cmd false 0 false 0 (.mxout 0 false false 16 0 0 .none 0)) = false ∧
    EngCmd.wf (cmd false 0 false 0 (.mxout 0 false false 0 12 0 .none 0)) = false ∧
    EngCmd.wf (cmd false 0 false 0 (.mxout 0 false false 0 0 6 .none 0)) = false ∧
    EngCmd.wf (cmd false 0 false 0 (.mxout 0 false true 31 0 5 .none 0)) = true ∧
    EngCmd.wf (cmd false 0 false 0 (.cwt (.own 1))) = false ∧ EngCmd.wf (cmd true 0 false 0 (.cwt (.own 1))) = true ∧
    EngCmd.wf (cmd true 1 false 0 (.cwt (.own 1))) = false ∧ EngCmd.wf (cmd false 0 false 0 (.cad (.page 1) 1)) = false ∧
    EngCmd.wf (cmd false 0 false 0 (.cad (.own 1) 1)) = true := by decide

/-! ### Decoding: the words that the spec works out -/

/-- The word decodes to the instruction. -/
def reads (w : Nat) (i : Instr) : Bool := match decode w with | .ok j => decide (j = i) | .error _ => false

/-- The word is refused for the reason. -/
def refuses (w : Nat) (e : DecErr) : Bool := match decode w with | .ok _ => false | .error f => decide (f = e)

/-- R84, R77 and the worked encodings of chapters 7, 8, 11 and 12. -/
theorem test_decode_scalar :
    reads 0x004A6FFE (.addi { rd := 5, ra := 6, imm := 0xFFE }) ∧
    reads 0x08464FFD (.bne { ra := 3, rb := 4, off := 0xFFD }) ∧
    reads 0x0A803003 (.loopi { count := 3, off := 3 }) ∧
    reads 0x09C20000 (.jal { rd := 1, off := 0 }) ∧
    reads 0x0A001000 (.jr { rd := 0, ra := 1, imm := 0 }) ∧
    reads 0x0E8A9000 (.stD { rd := 5, ra := 9, imm := 0 }) ∧
    reads (3 * 2 ^ 17 + 4 * 2 ^ 12 + 0x3E * 2 ^ 22) (.qpop { rd := 3, q := 4 }) ∧
    reads (0x3D * 2 ^ 22 + 2 * 2 ^ 17 + 4 * 2 ^ 12 + 8) (.ldq { q := 2, ra := 4, imm := 8 }) ∧
    reads (0x89ABCDEF * 2 ^ 64 + 0x01234567 * 2 ^ 32 + 0x80060000) (.lit { rd := 3, lit := 0x0123456789ABCDEF }) ∧
    reads (0x00011170 * 2 ^ 64 + 0x804A6000) (.addLit { rd := 5, ra := 6, lit := 70000 }) := by decide +kernel

/-- Counters, fences, atomics, launches and system instructions (R141, R148, R149, R152, R160, R163). -/
theorem test_decode_system :
    reads 0x100C8500 (.cadd { k := 100, ra := 5 }) ∧ reads 0x10018522 (.caddRemote { k := 12, ra := 5, rb := 4 }) ∧
    reads 0x10120504 (.caddPage { xk := 9, ra := 5 }) ∧ reads 0x104C8638 (.cwait { k := 100, ra := 6, rb := 7 }) ∧
    reads 0x10D20004 (.crstPage { xk := 9, ra := 0 }) ∧ reads 0x12000013 (.fence { flavour := 2, scope := 3 }) ∧
    reads 0x124A63E0 (.aadd { rd := 5, ra := 6, rb := 7, dbl := true }) ∧ reads 0x18008480 (.renq { ra := 8, rb := 9 }) ∧
    reads 0x19180011 (.srd { rd := 12, num := 0x11 }) ∧ reads 0x1B004281 (.spguard { ra := 4, rb := 5, mark := true }) ∧
    reads (0x0002002A * 2 ^ 64 + 0x8800A580) (.tlbi { ra := 10, rb := 11, asid := 0x2A, scope := 2, all := false }) := by
  decide +kernel

/-- Tile instructions (R79, R172, R179-R182, R185, R188, R190) and sweeps (R195). -/
theorem test_decode_tile :
    reads (0x60 * 2 ^ 32 + 0x40081103) (.vfma { d := 4, a := 1, b := 2, c := 3, m := plain .f32 }) ∧
    reads (0x81008000 * 2 ^ 32 + 0x400E1120) (.vadd { d := 7, a := 1, b := 2, m := { plain .f32 with negA := true, clamp := .to01, rnd := .rtz, pred := 2 } }) ∧
    reads (0x40000000 * 2 ^ 64 + 0x84061000) (.vaddLit { d := 3, a := 1, lit := 0x40000000, m := plain .f32 }) ∧
    reads (0x00000800 * 2 ^ 32 + 0x50522000) (.vcvt { d := 9, a := 2, sty := .f32, keep := false, m := plain .bf16 }) ∧
    reads (0x00028400 * 2 ^ 32 + 0x50540081) (.vpack { d := 10, a := 0, b := 1, sty := .f32, m := { plain .f16 with rnd := .rto } }) ∧
    reads (0x00000011 * 2 ^ 32 + 0x504C5002) (.vunpk { d := 6, a := 5, sty := .f16, hi := true, m := plain .f32 }) ∧
    reads (0x00000010 * 2 ^ 32 + 0x6C021003) (.vrotw { d := 1, a := 1, n := 16, m := plain .f32 }) ∧
    reads 0x6C0C5005 (.vredw { d := 6, a := 5, red := 0, m := plain .f32 }) ∧
    reads 0x14889000 (.vmov { td := 4, ta := 9, pred := 0 }) ∧
    reads (0x04000000 * 2 ^ 32 + 0x54127000) (.vld { d := 9, a := 7, pitch := 4, pred := 0 }) ∧
    reads (0x00004000 * 2 ^ 32 + 0x54000004) (.vqpop { d := 0, q := 0, g := 1, pred := 0 }) ∧
    reads 0x54442000 (.ild { d := 2, a := 2 }) ∧
    reads (0x37F00040 * 2 ^ 32 + 0x54460083) (.swp { d := 3, a := 0, b := 1, c := 2, op := 3, clamp := .to01, scale := 0x3F, rnd := .rne, ety := .f32 }) := by
  decide +kernel

/-- Engine, tier, relay and distribution instructions (R205, R218-R220, R276, R311, R316, R325). -/
theorem test_decode_units :
    reads (0x00004000 * 2 ^ 32 + 0x58004280) (.epush { a := 4, b := 5, queue := 1 }) ∧
    reads 0x58006001 (.estart { a := 6 }) ∧ reads (0x0007C000 * 2 ^ 32 + 0x58000002) (.eflush { mask := 0x1F }) ∧
    reads 0x58007003 (.tcfg { a := 7 }) ∧
    reads (0x0092C000 * 2 ^ 32 + 0x584A6380) (.tego { d := 5, a := 6, b := 7, lane := 3, wl := 1, wh := 1, ws := 1 }) ∧
    reads (0x0000C000 * 2 ^ 32 + 0x58509001) (.testat { d := 8, a := 9, lane := 3 }) ∧
    reads (0x0000C000 * 2 ^ 32 + 0x5840A582) (.tethr { a := 10, b := 11, lane := 3 }) ∧
    reads (0x00004000 * 2 ^ 32 + 0x58509504) (.ditswpSet { d := 8, a := 9, b := 10 }) ∧
    reads 0x588A6000 (.rxopen { d := 5, a := 6 }) ∧
    reads (0x00014000 * 2 ^ 32 + 0x588E8481) (.rxsend { d := 7, a := 8, b := 9, ch := 5 }) ∧
    reads (0x00014000 * 2 ^ 32 + 0x58980004) (.rxclose { d := 12, ch := 5 }) ∧
    reads (0x00000001 * 2 ^ 32 + 0x5C061100) (.dadd { d := 3, a := 1, b := 2, pw := true, pred := 0 }) ∧
    reads 0x5C04100B (.tagnext { d := 2, a := 1, pred := 0 }) ∧
    reads (0x00020000 * 2 ^ 32 + 0x5C440004) (.dmkq { d := 2, a := 0, r := 8, pred := 0 }) ∧
    reads (0x00044000 * 2 ^ 32 + 0x5C483005) (.dmom { d := 4, a := 3, r := 1, k := 1, pred := 0 }) ∧
    reads (0x0E10C000 * 2 ^ 32 + 0x5C483006) (.dqnt { d := 4, a := 3, r := 3, q := 900, pred := 0 }) := by decide +kernel

/-- What is no instruction (Table 7-12): the length code 0b11, unallocated majors of each class, reserved bits, a zero loop offset,
and a row-axis instruction with S clear. -/
theorem test_decode_refuses :
    refuses (3 * 2 ^ 30) .illen ∧ refuses (0x11 * 2 ^ 22) .illop ∧ refuses (2 ^ 30 + 0x01 * 2 ^ 22) .illop ∧
    refuses (2 ^ 31 + 0x30 * 2 ^ 22) .illop ∧ refuses (0x20 + 0x00 * 2 ^ 22) .illop ∧
    refuses (0x62 * 2 ^ 22 + 1) .illfld ∧ refuses (0x29 * 2 ^ 22) .illfld ∧
    refuses (2 ^ 30 + 0x30 * 2 ^ 22 + 5) .illfld ∧ refuses (2 ^ 29 + 2 ^ 30 + 0x30 * 2 ^ 22 + 5) .illfld = false ∧
    refuses (0xD * 2 ^ 42 + 2 ^ 30) .illfld := by decide +kernel

/-- Engine commands of the stream worked out in chapter 16, and words that are none (R90, R91). -/
theorem test_decode_commands :
    decodeCmd (0x20800000 * 2 ^ 64 + 3) = some { (cmd false 0 false 0 (.cpy 3)) with h := { (cmd false 0 false 0 (.cpy 3)).h with pushNext := true } } ∧
    decodeCmd (0x00100000 * 2 ^ 64 + 1) = some { (cmd false 0 false 0 (.mxlds 1)) with h := { (cmd false 0 false 0 (.mxlds 1)).h with popPrev := true } } ∧
    decodeCmd (0x01000000 * 2 ^ 64 + 0x24) = some (cmd false 0 false 0 (.mxrun 0 true false 2)) ∧
    decodeCmd (0x01000000 * 2 ^ 64 + 0x8D) = some (cmd false 0 false 0 (.mxrun 1 true true 8)) ∧
    decodeCmd (0x02800000 * 2 ^ 64 + 0x440) = some { (cmd false 0 false 0 (.mxout 0 false false 4 2 0 .none 0)) with
      h := { (cmd false 0 false 0 (.cpy 3)).h with pushNext := true } } ∧
    decodeCmd (0x05000000 * 2 ^ 64) = none ∧ decodeCmd (0x20000000 * 2 ^ 64 + 0x10) = none ∧
    decodeCmd (0x40000000 * 2 ^ 64 + 12) = none := by decide +kernel

/-! ### Small machines -/

/-- A user leaf that may be read, written and executed, with a kind and further attribute bits (Table 17-3). -/
def leaf (pa kind more : Nat) : Nat := 3 + 480 + 512 * kind + more + pa / 4096 * 2 ^ 24

/-- A cached page as the walks of some of its 4 KiB parts find it (R247). -/
def page (va size ent : Nat) (parts : List Nat) : List TlbEntry :=
  parts.map fun i => { asid := 0, vbase := va, size := size, ent := ent, part := va / 4096 + i }

/-- Cached pages: HBM4E at 0, the own scratchpad at 2^30, a DT page, a counter page, a mirrored page and one without any right. -/
def leaves : List TlbEntry :=
  page 0 0x10000 (leaf 0x40000 0 0) [0, 1, 15] ++ page 0x40000000 0x400000 (leaf scratchBase 0 0) [0, 1, 2, 1023] ++
  page 0x50000000 0x10000 (leaf 0x20000 3 0) [0] ++ page 0x60000000 0x10000 (leaf 0x30000 0 4096) [0] ++
  page 0x70000000 0x10000 (leaf (2 ^ 51) 0 2048) [0] ++ page 0x78000000 0x10000 (3 + 2 ^ 28) [0]

/-- Core 0 with cluster 0 running, its registers, and the core changed by `f`. -/
def coreOf (x : SMap Word) (f : Core → Core) : Core := f { Core.reset with cl := [(0, { Cluster.reset with act := .running, x := x })] }

/-- Cluster 0 of core 0 about to issue `i` with registers `x`, on a core changed by `f`. -/
def machF (i : Instr) (x : SMap Word) (f : Core → Core) : State :=
  { State.reset with cores := [(0, coreOf x f)], tlbs := [0, unitEngine 0, unitBridle 0, unitTier 0, unitRelay 0].map (fun u => (u, leaves)), ir := encode false 0 i }

/-- The same on a plain core. -/
def mach (i : Instr) (x : SMap Word) : State := machF i x id

/-- The same in supervisor mode. -/
def machS (i : Instr) (x : SMap Word) : State := (mach i x).modMe fun c => { c with super := true }

/-- The state a step or a meaning answers. -/
def after (o : Host.Outcome State Fault Refusal) : State := match o with | .next t => t | _ => State.reset

/-- A result that is there and meets `f`. -/
def okB {ε α : Type} (r : Except ε α) (f : α → Bool) : Bool := match r with | .ok a => f a | .error _ => false

/-- A failed check with this cause and information. -/
def errB {α : Type} (r : Except (Nat × Word) α) (e : Nat × Word) : Bool := match r with | .ok _ => false | .error f => decide (f = e)

/-- Registers used below: X1 = 7, X2 = -3, X3 = 5. -/
def regs : SMap Word := [(1, 7), (2, BitVec.ofInt 64 (-3)), (3, 5)]

/-! ### Encoding and steps -/

/-- Instructions that the encoding admits: with S set and clear, a row-axis one, and TLBSYNC at its last listed scope. -/
theorem test_witness_EncodeDecode :
    Claim.encodable false 0 (.add { rd := 31, ra := 0, rb := 1 }) ∧ Claim.encodable true 0 (.vrotw { d := 1, a := 1, n := 31, m := plain .f32 }) ∧
    Claim.encodable true 4 .tlbsync := by
  simp only [Claim.encodable, Claim.scopeListed]; decide +kernel

/-- A step of a machine with an instruction placed meets every condition of a decoded step, and gives what `exec` gives. -/
theorem test_witness_StepRunsDecoded :
    let i : Instr := .addi { rd := 1, ra := 0, imm := 5 }
    let s := State.reset.withFetchWord 32 (encode false 0 i)
    let n := s.nextAct.1
    s.power = true ∧ s.nextAct = (n, .cluster 0 0) ∧ (s.cluster 0 0).event = none ∧ (s.cluster 0 0).presents s.cycle = true ∧
    (match ({ s with turn := n, curCore := 0, curCl := 0, hitSeen := [] } : State).fetch 0 0 0 with
     | .word t w => decide (missingBlock (s.cluster 0 0).block 0 (0 + wordLen (w % 2 ^ 32) - 1) = none) && reads w i &&
         decide ((after (exec i { t with ir := w })).me.pc = 4)
     | _ => false) = true ∧
    (after (step s)).myCore.inflight = [{ due := 0, iss := 0, cl := 0, w := .x 1 5 }] := by decide +kernel

/-- A fetch that reads a word, and one that the page forbids. -/
theorem test_witness_FetchReadsMemory :
    (match (mach .nop []).fetch 0 0 0x100 with | .word _ w => decide (w = 0) | _ => false) = true ∧
    (match (mach .nop []).check (unitCore 0) 0 false .fetch 0x78000000 with | .error k => decide (k = cPROT) | .ok _ => false) = true := by
  decide +kernel

/-- Power on, power off with nothing due, and power off with a power-on reset due: the next state, the stop and the next state. -/
theorem test_witness_StepAnswers :
    State.reset.power = true ∧
    (match step { State.reset with power := false } with | .fault .powerRemoved => true | _ => false) = true ∧
    (let s : State := { State.reset with power := false, agenda := [{ cycle := 5, row := .powerOnReset, args := .nats [0] }] }
     (s.agenda.any fun d => decide (d.row = .powerOnReset)) = true ∧ (after (step s)).resetStep = 1) := by decide +kernel

/-- A step from a canonical memory that is not empty, which stores into it. -/
theorem test_witness_MemoryStaysCanonical :
    let s := State.reset.withFetchWord 32 (encode false 0 (.stB { rd := 0, ra := 0, imm := 0 }))
    s.memOk ∧ s.byte 3 = 13 ∧ (after (step s)).byte 0 = 0 ∧ (after (step s)).memOk := by
  simp only [State.memOk]; decide +kernel

/-- A privileged instruction in user mode; a trap in a handler that nests, and one that does not. -/
theorem test_witness_TrapEntry :
    Instr.privileged .tret = true ∧ (mach .tret []).me.super = false ∧
    (let t := after (exec .tret (mach .tret []))
     t.me.trapCause = BitVec.ofNat 64 cPRIV ∧ t.me.pc = romEntry ∧ t.me.super = true ∧ t.me.trapStat = 0) ∧
    (let s := (machS .nop []).modMe fun c => { c with trapStat := 2, pc := 64 }
     (s.cluster 0 0).super = true ∧ (s.cluster 0 0).nested = true ∧
     ((s.trapAt 0 0 cALIGN 1 64 true false).cluster 0 0).live = false ∧ ((s.trapAt 0 0 cALIGN 1 64 true false).cluster 0 0).pc = 64) := by
  decide +kernel

/-- What reset leaves (Table 5-1, R359, R360). -/
theorem test_reset : State.reset.memOk ∧ State.reset.cycle = 0 ∧ (State.reset.core 175).tagAlloc = 1 ∧
    (State.reset.cluster 3 2).tvec = 0xFFFFF0000000 := by
  simp only [State.memOk]; decide +kernel

/-! ### Scalar instructions -/

/-- Every instruction of the ALU family issues on a plain machine. -/
theorem test_witness_ScalarArithmetic :
    (∀ p ∈ Claim.regTable, (mach (p.1 { rd := 4, ra := 1, rb := 2 }) regs).issues (p.1 { rd := 4, ra := 1, rb := 2 })) ∧
    (mach (.sel { rd := 3, ra := 1, rb := 2 }) regs).issues (.sel { rd := 3, ra := 1, rb := 2 }) ∧
    (mach (.clz { rd := 3, ra := 1 }) regs).issues (.clz { rd := 3, ra := 1 }) ∧
    (mach (.popc { rd := 3, ra := 1 }) regs).issues (.popc { rd := 3, ra := 1 }) ∧
    (∀ p ∈ Claim.immTable ++ Claim.immuTable,
      (mach (p.1 { rd := 4, ra := 1, imm := 0x800 }) regs).issues (p.1 { rd := 4, ra := 1, imm := 0x800 })) ∧
    (∀ p ∈ Claim.shiftTable, (mach (p.1 { rd := 4, ra := 1, sh := 63 }) regs).issues (p.1 { rd := 4, ra := 1, sh := 63 })) ∧
    (∀ p ∈ Claim.litTable, (mach (p.1 { rd := 4, ra := 1, lit := 9 }) regs).issues (p.1 { rd := 4, ra := 1, lit := 9 })) ∧
    (mach (.lit { rd := 4, lit := 1 }) []).issues (.lit { rd := 4, lit := 1 }) := by
  simp only [State.issues]; decide +kernel

/-- The result in flight of an instruction on a small machine. -/
def result (i : Instr) (x : SMap Word) : Option (Nat × Nat × Word) :=
  match (after (exec i (mach i x))).myCore.inflight with
  | [{ due := d, iss := _, cl := _, w := .x r v }] => some (d, r, v)
  | _ => none

/-- Results worked out by hand from Table 11-1, with the cycle in which they land: division by zero, a negative quotient and
remainder, high products, a shift of 64 + 1. -/
theorem test_alu_results :
    result (.sub { rd := 4, ra := 3, rb := 1 }) regs = some (0, 4, 0xFFFFFFFFFFFFFFFE) ∧
    result (.div { rd := 4, ra := 2, rb := 0 }) regs = some (17, 4, 0xFFFFFFFFFFFFFFFF) ∧
    result (.div { rd := 4, ra := 1, rb := 2 }) regs = some (17, 4, 0xFFFFFFFFFFFFFFFE) ∧
    result (.rem { rd := 4, ra := 2, rb := 3 }) regs = some (17, 4, 0xFFFFFFFFFFFFFFFD) ∧
    result (.remu { rd := 4, ra := 1, rb := 0 }) regs = some (17, 4, 7) ∧
    result (.mulh { rd := 4, ra := 2, rb := 1 }) regs = some (2, 4, 0xFFFFFFFFFFFFFFFF) ∧
    result (.mulhu { rd := 4, ra := 2, rb := 1 }) regs = some (2, 4, 6) ∧
    result (.shl { rd := 4, ra := 1, rb := 3 }) [(1, 7), (3, 65)] = some (0, 4, 14) ∧
    result (.sar { rd := 4, ra := 2, rb := 3 }) [(2, BitVec.ofInt 64 (-3)), (3, 1)] = some (0, 4, 0xFFFFFFFFFFFFFFFE) := by
  decide +kernel

/-- The same for conditions, addresses and counts of bits, and a write to X0. -/
theorem test_alu_selections :
    result (.sel { rd := 4, ra := 1, rb := 2 }) [(1, 7), (2, 9)] = some (0, 4, 9) ∧
    result (.sel { rd := 4, ra := 1, rb := 2 }) [(1, 7), (2, 9), (4, 1)] = some (0, 4, 7) ∧
    result (.leaX8 { rd := 4, ra := 1, rb := 3 }) regs = some (0, 4, 47) ∧
    result (.clz { rd := 4, ra := 1 }) regs = some (0, 4, 61) ∧ result (.clz { rd := 4, ra := 0 }) regs = some (0, 4, 64) ∧
    result (.popc { rd := 4, ra := 2 }) regs = some (0, 4, 63) ∧
    result (.sltu { rd := 4, ra := 1, rb := 2 }) regs = some (0, 4, 1) ∧ result (.slt { rd := 4, ra := 1, rb := 2 }) regs = some (0, 4, 0) ∧
    result (.add { rd := 0, ra := 1, rb := 2 }) regs = none := by decide +kernel

/-- Results of immediate and literal forms: signed and unsigned immediates, a literal extended from its sign. -/
theorem test_imm_results :
    result (.subi { rd := 4, ra := 1, imm := 0xFFF }) regs = some (0, 4, 8) ∧
    result (.xori { rd := 4, ra := 0, imm := 0xFFF }) regs = some (0, 4, 0xFFF) ∧
    result (.sltiu { rd := 4, ra := 1, imm := 0xFFF }) regs = some (0, 4, 1) ∧
    result (.muli { rd := 4, ra := 2, imm := 2 }) regs = some (2, 4, 0xFFFFFFFFFFFFFFFA) ∧
    result (.addLit { rd := 4, ra := 1, lit := 0xFFFFFFFF }) regs = some (0, 4, 6) ∧
    result (.sari { rd := 4, ra := 2, sh := 63 }) regs = some (0, 4, 0xFFFFFFFFFFFFFFFF) ∧
    result (.lit { rd := 4, lit := 0x8000000000000001 }) [] = some (0, 4, 0x8000000000000001) := by decide +kernel

/-- A result lands at the end of its cycle: two for one register in issue order, one that is not due (R60). -/
theorem test_witness_ResultsLand :
    let s := machF .nop [] fun k => { k with inflight := [{ due := 0, iss := 0, cl := 0, w := .x 5 1 }, { due := 0, iss := 0, cl := 0, w := .x 5 2 },
      { due := 1, iss := 0, cl := 0, w := .x 5 3 }] }
    0 ∈ s.cores.map (fun e => e.1) ∧ (s.cores.map fun e => e.1).Nodup ∧ (s.closeCycle.cluster 0 0).readX 5 = 2 ∧
    (s.closeCycle.core 0).inflight = [{ due := 1, iss := 0, cl := 0, w := .x 5 3 }] ∧ s.closeCycle.cycle = 1 := by decide +kernel

/-- A state whose PC is not the end of its open loop, and one whose PC is, with a count of 3: it goes back to the start (R139). -/
theorem test_witness_SequenceAndLoop :
    let s := (mach .nop []).modMe fun c => { c with pc := 8, ldepth := 1, lstart := [(0, 4)], lend := [(0, 12)], lcount := [(0, 3)] }
    let t := s.modMe fun c => { c with pc := 12 }
    SMap.get 0 s.me.lend (s.me.ldepth.toNat - 1) ≠ s.me.pc ∧ s.inSequence.me.pc = 12 ∧
    t.me.ldepth ≠ 0 ∧ SMap.get 0 t.me.lend (t.me.ldepth.toNat - 1) = t.me.pc ∧ SMap.get 0 t.me.lcount (t.me.ldepth.toNat - 1) ≠ 1 ∧
    t.inSequence.me.pc = 4 ∧ SMap.get 0 t.inSequence.me.lcount 0 = 2 := by decide +kernel

/-! ### Scalar memory -/

/-- Addresses that fail each check of R125 in its order, and one that passes. -/
theorem test_witness_AccessChecks :
    let s := mach .nop []
    errB (s.access .load 8 0x40000004) (cALIGN, 0x40000004) = true ∧ errB (s.access .load 8 (2 ^ 48)) (cXLATE, 2 ^ 48) = true ∧
    errB (s.access .load 8 0x3FFFFFF8) (cXLATE, 0x3FFFFFF8) = true ∧ errB (s.access .load 8 0x78000000) (cPROT, 0x78000000) = true ∧
    okB (s.access .load 8 0x403FFFF8) (fun r => decide (r.2.2 = scratchBase + 0x3FFFF8)) = true ∧
    (s.lookup (unitCore 0) 0 0x78000000).isSome = true ∧ (s.lookup (unitCore 0) 0 0x3FFFFFF8).isSome = false := by decide +kernel

/-- A load from an SO page while a posted store of the cluster to one is not acknowledged (R253): it waits; afterwards it may go. -/
theorem test_so_order :
    let i : Instr := .ldD { rd := 4, ra := 1, imm := 0 }
    let t : TlbEntry := { asid := 0, vbase := 0x7000, size := 4096, ent := leaf 0x7000 1 0, part := 7 }
    let s := { mach i [(1, 0x7000)] with tlbs := [(unitCore 0, [t])] }
    let w := s.modMe fun c => { c with posted := [{ id := 1, ea := 0x7008, fail := 0, so := true }] }
    pteKind t.ent = 1 ∧ s.soOpen = false ∧ okB (s.access .load 8 0x7000) (fun _ => true) = true ∧ w.soOpen = true ∧
    errB (w.access .load 8 0x7000) (cOrder, 0x7000) = true ∧ (after (exec i w)).me.hold?.map (fun h => h.kind) = some (.order 0x7000) ∧
    (after (exec i w)).me.pc = w.me.pc ∧ (after (exec i s)).me.hold?.map (fun h => h.kind) = some .blocking := by decide +kernel

/-- Bytes 0x80, 0x81, ... in the own scratchpad. -/
def filled (i : Instr) (x : SMap Word) : State := (mach i x).setBytes scratchBase ((List.range 8).map fun j => BitVec.ofNat 8 (0x80 + j))

/-- Loads from the last aligned place of the own scratchpad and from HBM4E. -/
theorem test_witness_ScalarLoads :
    (∀ p ∈ Claim.loadTable, let i := p.1 { rd := 4, ra := 1, imm := 0 }
      (filled i [(1, 0x403FFFF8)]).issues i ∧
      okB ((filled i [(1, 0x403FFFF8)]).fresh.access .load p.2.2 ((filled i [(1, 0x403FFFF8)]).ea 1 0)) (fun r => r.1.own r.2.2) = true ∧
      okB ((filled i [(1, 8)]).fresh.access .load p.2.2 ((filled i [(1, 8)]).ea 1 0)) (fun r => !r.1.own r.2.2) = true) ∧
    (let o : Imm := { rd := 4, ra := 1, imm := 0 }
     let h : Hold := { kind := .blocking, instr := .ldH o, ea := 8, vals := [scratchBase, 2, 1, 4, leaf scratchBase 0 0], since := 3, sync := false }
     let s := { (filled .nop []).modMe (fun c => { c with act := .waiting h }) with ev := .nats [0, 0, 3] }
     okB (s.dest (leafOf (leaf scratchBase 0 0)) scratchBase true) (fun l => decide (l = [scratchBase])) = true ∧
     (after (exec .blockingCompletion s)).myCore.inflight = [{ due := 0, iss := 0, cl := 0, w := .x 4 0xFFFFFFFFFFFF8180 }] ∧
     (after (exec .blockingCompletion s)).me.pc = 4) := by
  simp only [State.issues]; decide +kernel

/-- What each load delivers from the bytes 80, 81, ... (Table 11-3). -/
theorem test_load_results :
    (Claim.loadTable.map fun p => let i := p.1 { rd := 4, ra := 1, imm := 0 }
      (after (exec i (filled i [(1, 0x40000000)]))).myCore.inflight.map fun l => (l.due, l.w)) =
    [[(5, .x 4 0xFFFFFFFFFFFFFF80)], [(5, .x 4 0x80)], [(5, .x 4 0xFFFFFFFFFFFF8180)], [(5, .x 4 0x8180)],
     [(5, .x 4 0xFFFFFFFF83828180)], [(5, .x 4 0x83828180)], [(5, .x 4 0x8786858483828180)], [(5, .x 4 0x8786858483828180)]] := by
  decide +kernel

/-- Stores to a counter page, a DT page, the own scratchpad and HBM4E. -/
theorem test_witness_ScalarStores :
    ∀ p ∈ Claim.storeTable, let i := p.1 { rd := 2, ra := 1, imm := 0 }
      let at_ (a : Word) : Except (Nat × Word) (State × TlbEntry × Nat) := (mach i [(1, a)]).fresh.access .store p.2 ((mach i [(1, a)]).ea 1 0)
      (mach i [(1, 8)]).issues i ∧ okB (at_ 0x60000000) (fun r => pteC r.2.1.ent) = true ∧
      okB (at_ 0x50000000) (fun r => !pteC r.2.1.ent && decide (pteKind r.2.1.ent = 3) && decide (r.1.me.dtBuf.length < 128)) = true ∧
      okB (at_ 0x40000000) (fun r => !pteC r.2.1.ent && decide (pteKind r.2.1.ent ≠ 3) && r.1.own r.2.2) = true ∧
      okB (at_ 8) (fun r => !pteC r.2.1.ent && decide (pteKind r.2.1.ent ≠ 3) && !r.1.own r.2.2) = true := by
  simp only [State.issues]; decide +kernel

/-- Distinct media addresses of stored bytes, and the bytes read back (R131). -/
theorem test_witness_StoredBytesRead :
    let i : Instr := .stH { rd := 2, ra := 1, imm := 2 }
    let s := mach i [(1, 0x40000000), (2, 0x1234)]
    (s.mediaRange scratchBase 2).Nodup ∧ (s.agenda.all fun d => decide (d.row ≠ .atomicMessageArrival)) = true ∧
    (after (exec i s)).bytes (scratchBase + 1) 4 = [0, 0x34, 0x12, 0] := by decide +kernel

/-- A queue register with a filled head, an empty one and a full one. -/
theorem test_witness_QueueInstructions :
    let e (st : QState) : QEntry := { st := st, data := 77, addr := 0 }
    let s (i : Instr) (a : Word) := machF i [(1, a)] fun k => { k with qhead := [(0, 7)], qent := [(7, e .filled)] ++ (List.range 8).map fun j => (16 + j, e .filled) }
    (s (.qpop { rd := 4, q := 0 }) 0).issues (.qpop { rd := 4, q := 0 }) ∧ (s .nop 0).myCore.qCount 0 = 1 ∧
    ((s .nop 0).myCore.qEntry 0 ((s .nop 0).myCore.qHead 0)).st = .filled ∧ (s .nop 0).myCore.qCount 1 = 0 ∧ (s .nop 0).myCore.qCount 2 = 8 ∧
    okB ((s .nop 0x40000100).access .load 256 0x40000100) (fun r => r.1.own r.2.2) = true ∧
    ((after (exec (.qpop { rd := 4, q := 0 }) (s (.qpop { rd := 4, q := 0 }) 0))).myCore.inflight.map fun l => (l.due, l.w)) = [(1, .x 4 77)] ∧
    ((after (exec (.qpop { rd := 4, q := 1 }) (s (.qpop { rd := 4, q := 1 }) 0))).me.trapCause) = BitVec.ofNat 64 cQUNDER ∧
    ((after (exec (.qpush { q := 2, rb := 1 }) (s (.qpush { q := 2, rb := 1 }) 0))).me.trapCause) = BitVec.ofNat 64 cQOVER ∧
    ((after (exec (.qlen { rd := 4, q := 2 }) (s (.qlen { rd := 4, q := 2 }) 0))).myCore.inflight.map fun l => (l.due, l.w)) = [(1, .x 4 8)] := by
  simp only [State.issues]; decide +kernel

/-! ### Control -/

/-- A node that runs on core 0. -/
def node0 : Node :=
  { record := 0, graph := 0, index := 0, preds := [], st := .running, readyAt := 0, cores := [0], dispatchNo := 0, reqAt := none,
    stop := .none, faultVa := none, faultRep := .bare, victimOf := none, saved := [], savedMem := [], savedRanges := [] }

/-- A machine whose core 0 runs node 3. -/
def gang (i : Instr) (x : SMap Word) (n : Node) (f : Core → Core) : State :=
  { (machF i x fun k => f { k with node := some 3, aCores := 1 }) with nodes := [(3, some n)] }

/-- Branches taken and not taken, jumps, and loops with a count, with none, and with two already open. -/
theorem test_witness_ControlFlow :
    (∀ p ∈ Claim.branchTable, (mach (p.1 { ra := 1, rb := 2, off := 0x800 }) regs).issues (p.1 { ra := 1, rb := 2, off := 0x800 })) ∧
    (mach (.jmp { off := 1 }) []).issues (.jmp { off := 1 }) ∧ (mach (.jal { rd := 1, off := 1 }) []).issues (.jal { rd := 1, off := 1 }) ∧
    (mach (.jr { rd := 1, ra := 1, imm := 0 }) regs).issues (.jr { rd := 1, ra := 1, imm := 0 }) ∧
    (mach (.loop { ra := 1, off := 4 }) regs).issues (.loop { ra := 1, off := 4 }) ∧ (mach (.loop { ra := 1, off := 4 }) regs).x 1 ≠ 0 ∧
    (let i : Instr := .loopi { count := 1, off := 4095 }
     let s := (mach i []).modMe fun c => { c with ldepth := 2, lend := [(0, 64), (1, 32)] }
     s.issues i ∧ s.me.ldepth = 2 ∧ (after (exec i s)).me.trapCause = BitVec.ofNat 64 cLOOPOVF) ∧
    (let i : Instr := .loopi { count := 0, off := 4 }
     (mach i []).issues i ∧ okB ((mach i []).fresh.fetchWord 0 0 16) (fun r => decide (wordLen r.2 ≠ 0)) = true ∧
     (after (exec i (mach i []))).me.pc = 20) := by
  simp only [State.issues]; decide +kernel

/-- Where control goes: a branch back by two words, one not taken, JAL's link, JR to a misaligned target, LOOPI's entry (R136-R138). -/
theorem test_control_results :
    let at_ (i : Instr) : State := (mach i regs).modMe fun c => { c with pc := 0x100 }
    (after (exec (.bne { ra := 1, rb := 2, off := 0xFFE }) (at_ (.bne { ra := 1, rb := 2, off := 0xFFE })))).me.pc = 0xF8 ∧
    (after (exec (.bltu { ra := 2, rb := 1, off := 8 }) (at_ (.bltu { ra := 2, rb := 1, off := 8 })))).me.pc = 0x104 ∧
    (after (exec (.blt { ra := 2, rb := 1, off := 8 }) (at_ (.blt { ra := 2, rb := 1, off := 8 })))).me.pc = 0x120 ∧
    (let t := after (exec (.jal { rd := 9, off := 0x1FFFF }) (at_ (.jal { rd := 9, off := 0x1FFFF })))
     t.me.pc = 0xFC ∧ t.myCore.inflight = [{ due := 0, iss := 0, cl := 0, w := .x 9 0x104 }]) ∧
    (let t := after (exec (.jr { rd := 9, ra := 1, imm := 0 }) (at_ (.jr { rd := 9, ra := 1, imm := 0 })))
     t.me.trapCause = BitVec.ofNat 64 cALIGN ∧ t.me.trapInfo = 7 ∧ t.me.trapPc = 0x100) ∧
    (let t := after (exec (.loopi { count := 3, off := 3 }) (at_ (.loopi { count := 3, off := 3 })))
     t.me.pc = 0x104 ∧ t.me.ldepth = 1 ∧ SMap.get 0 t.me.lstart 0 = 0x104 ∧ SMap.get 0 t.me.lend 0 = 0x10C ∧
       SMap.get 0 t.me.lcount 0 = 3) := by decide +kernel

/-! ### Counters and atomics -/

/-- Counter instructions on an own slot at its largest value and below, on a member's slot and on a counter page. -/
theorem test_witness_CounterInstructions :
    let g (i : Instr) (x : SMap Word) : State := gang i x node0 fun k => { k with k := [(511, BitVec.allOnes 64)] }
    (g (.cadd { k := 511, ra := 1 }) regs).issues (.cadd { k := 511, ra := 1 }) ∧
    (after (exec (.cadd { k := 511, ra := 1 }) (g (.cadd { k := 511, ra := 1 }) regs))).me.trapCause = BitVec.ofNat 64 cCNTOVF ∧
    (after (exec (.cadd { k := 4, ra := 1 }) (g (.cadd { k := 4, ra := 1 }) regs))).ctrGet (.slot 0 4) = 7 ∧
    (match (g .nop regs).rankSlot 0 4 with | .ok (.slot 0 4) => decide ((g .nop regs).ctrGet (.slot 0 4) + 7 < 2 ^ 64) | _ => false) = true ∧
    okB ((g .nop [(1, 0x60000008)]).fresh.pageCtr .store 0x60000008) (fun r => decide (r.1.ctrGet r.2.1 + 7 < 2 ^ 64)) = true ∧
    (match (g .nop []).fresh.pageCtr .load 0x60000008 with | .ok (_, .page pa va, _) => decide (pa = 0x30008 ∧ va = 0x60000008) | _ => false) = true ∧
    (machS (.crst { k := 4, ra := 1 }) regs).issues (.crst { k := 4, ra := 1 }) ∧
    (machS (.crstPage { xk := 4, ra := 1 }) regs).issues (.crstPage { xk := 4, ra := 1 }) := by
  simp only [State.issues]; decide +kernel

/-- CWAIT at its target, below it, with a report pending; a wait that is satisfied, one that is not, and one whose deadline is this
cycle. -/
theorem test_witness_CounterWaits :
    let o : CWaitOwn := { k := 4, ra := 1, rb := 3 }
    let s (n : Word) : State := machF (.cwait o) regs fun k => { k with k := [(4, n)] }
    (s 7).issues (.cwait o) ∧ (s 7).me.report = none ∧ ((s 7).x 1).toNat ≤ (s 7).ctrGet (.slot 0 4) ∧ (s 6).ctrGet (.slot 0 4) < ((s 6).x 1).toNat ∧
    ((after (exec (.cwait o) (s 7))).myCore.inflight.map fun l => l.w) = [.x 1 0] ∧
    (((s 7).modMe fun c => { c with guardRep := some 9 }).me.report).isSome = true ∧
    okB ((mach (.cwaitPage { xk := 1, ra := 0, rb := 0 }) [(1, 0x60000000)]).fresh.pageCtr .load 0x60000000)
      (fun r => decide (0 ≤ r.1.ctrGet r.2.1)) = true ∧
    (let h : Hold := { kind := .cwait (.slot 0 4), instr := .cwait o, ea := 0, vals := [7, 12, 1], since := 0, sync := false }
     let w (n : Word) : State := { ((s n).modMe fun c => { c with act := .waiting h }) with ev := .nats [0, 0], cycle := 12 }
     ((w 7).cluster 0 0).act = .waiting h ∧ ((after (exec .counterWaitSatisfied (w 7))).myCore.inflight.map fun l => l.w) = [.x 1 0] ∧
     (after (exec .counterWaitSatisfied (w 6))).me.act = .waiting h ∧
     ((after (exec .cwaitTimeout (w 6))).myCore.inflight.map fun l => l.w) = [.x 1 1]) := by
  simp only [State.issues]; decide +kernel

/-- Atomics of both widths on the own scratchpad, without and with a result, on counter, DT and mirrored pages, and messages. -/
theorem test_witness_Atomics :
    (∀ p ∈ Claim.atomTable, ∀ dbl : Bool, let i := p.1 { rd := 4, ra := 1, rb := 2, dbl := dbl }
      let ok (a : Word) (f : State → TlbEntry → Nat → Bool) : Bool :=
        okB ((mach i [(1, a)]).fresh.access .atomic (if dbl then 8 else 4) a) fun r => f r.1 r.2.1 r.2.2
      (mach i regs).issues i ∧
      ok 0x40000008 (fun u e pa => !pteC e.ent && decide (pteKind e.ent ≠ 3) && !pteM e.ent && u.own pa) = true ∧
      ok 0x60000000 (fun _ e _ => pteC e.ent) = true ∧ ok 0x50000000 (fun _ e _ => !pteC e.ent && decide (pteKind e.ent = 3)) = true ∧
      ok 0x70000000 (fun _ e _ => !pteC e.ent && pteM e.ent) = true) ∧
    (let a (rd am : Nat) : State := { filled .nop [] with ev := .nats [0, 0, 3, scratchBase, 0, 4, 1, 0, rd, am, 9] }
     let h : Hold := { kind := .blocking, instr := .nop, ea := 0, vals := [], since := 3, sync := false }
     (after (exec .atomicMessageArrival (a 0 0))).readN scratchBase 4 = 0x83828181 ∧
     (((a 4 0).modMe fun c => { c with act := .waiting h }).cluster 0 0).act = .waiting h) := by
  simp only [State.issues]; decide +kernel

/-- What atomics leave in memory, from the word 0x83828180 and the operands 5 and 0x83828180 (Table 7-9). -/
theorem test_atomic_results :
    let at_ (i : Instr) (b d : Word) : Nat := (after (exec i (filled i [(1, 0x40000000), (2, b), (4, d)]))).readN scratchBase 4
    let o : AtomOps := { rd := 4, ra := 1, rb := 2, dbl := false }
    at_ (.aadd o) 0x80000000 0 = 0x03828180 ∧ at_ (.amin o) 5 0 = 0x83828180 ∧ at_ (.aminu o) 5 0 = 5 ∧ at_ (.amax o) 5 0 = 5 ∧
    at_ (.acas o) 5 0x83828180 = 5 ∧ at_ (.acas o) 5 0x83828181 = 0x83828180 ∧ at_ (.axor o) 0xFFFFFFFF00000001 0 = 0x83828181 ∧
    at_ (.aswp o) 7 0 = 7 := by decide +kernel

/-! ### Predicates and system instructions -/

/-- Predicate instructions issue; what PNOT and PAND write (R186). -/
theorem test_witness_PredicateRegisters :
    (mach (.pand { pd := 3, pa := 1, pb := 2 }) []).issues (.pand { pd := 3, pa := 1, pb := 2 }) ∧
    (mach (.por { pd := 3, pa := 1, pb := 2 }) []).issues (.por { pd := 3, pa := 1, pb := 2 }) ∧
    (mach (.pset { pd := 0, imm := 1 }) []).issues (.pset { pd := 0, imm := 1 }) ∧
    (let i : Instr := .pnot { pd := 3, pa := 1 }
     let s := (mach i []).modMe fun c => { c with p := [(1, 0xFF00)] }
     s.issues i ∧ ((after (exec i s)).myCore.inflight.map fun l => l.w) = [.p 3 0xFFFF 0x00FF]) := by
  simp only [State.issues]; decide +kernel

/-- Registers read in both modes, a supervisor register, an unlisted number, and values that are refused and accepted (Table 5-3). -/
theorem test_witness_SystemRegisters :
    (mach (.srd { rd := 1, num := 0 }) []).issues (.srd { rd := 1, num := 0 }) ∧ (mach (.swr { rd := 1, num := 0 }) []).issues (.swr { rd := 1, num := 0 }) ∧
    (match sysAccess 0 with | .reg ur uw sw => ur && uw && sw | _ => false) = true ∧
    (match sysAccess 1 with | .reg ur _ sw => !ur && sw | _ => false) = true ∧
    (match sysAccess 0x11 with | .reg ur uw _ => ur && !uw | _ => false) = true ∧
    (match sysAccess 0xFFF with | .unlisted => true | _ => false) = true ∧
    (∃ n v, sysRefuses n v = true) ∧ sysRefuses 5 64 = false ∧
    (after (exec (.swr { rd := 1, num := 5 }) (machS (.swr { rd := 1, num := 5 }) [(1, 64)]))).me.tvec = 64 ∧
    (after (exec (.srd { rd := 1, num := 1 }) (mach (.srd { rd := 1, num := 1 }) []))).me.trapCause = BitVec.ofNat 64 cPRIV := by
  refine ⟨?_, ?_, ?_, ?_, ?_, ?_, ⟨5, 2, ?_⟩, ?_, ?_, ?_⟩ <;> (try simp only [State.issues]) <;> decide +kernel

/-- TRAP goes on behind itself when it returns, BKPT to itself; TRET to a misaligned and to an aligned TRAPPC (R157, R158). -/
theorem test_witness_TrapReturn :
    (mach .trap []).issues .trap ∧ (mach .bkpt []).issues .bkpt ∧ (mach .tret []).me.super = false ∧ (machS .tret []).issues .tret ∧
    (let s : State := { mach .trap [] with ir := 0x66 * 2 ^ 22 + 0xABCD }
     (after (exec .trap s)).me.trapPc = 4 ∧ (after (exec .trap s)).me.trapInfo = 0xABCD ∧ (after (exec .bkpt s)).me.trapPc = 0) ∧
    (let s := (machS .tret []).modMe fun c => { c with trapPc := 2 }
     s.me.trapPc.toNat % 4 ≠ 0 ∧ (after (exec .tret s)).me.trapCause = BitVec.ofNat 64 cALIGN ∧ (after (exec .tret s)).me.trapInfo = 2) ∧
    (let s := (machS .tret []).modMe fun c => { c with trapPc := 0x40, trapStat := 3 }
     s.me.trapPc.toNat % 4 = 0 ∧ (after (exec .tret s)).me.pc = 0x40 ∧ (after (exec .tret s)).me.super = true ∧
       (after (exec .tret s)).me.nested = false) := by
  simp only [State.issues]; decide +kernel

/-- NOP, HALT with and without a debugger, EXIT, and SAFE with no pre-emption, with one and with a live-map table. -/
theorem test_witness_ClusterControl :
    (mach .nop []).issues .nop ∧ (machS .halt []).issues .halt ∧ (machS .halt []).dbgen = false ∧
    ({ machS .halt [] with dbgen := true } : State).issues .halt ∧ (mach .exit []).issues .exit ∧ (mach .exit []).me.report = none ∧
    (after (exec .exit (mach .exit []))).me.act = .exited ∧
    (mach .safe []).issues .safe ∧ (mach .safe []).preempting = none ∧
    (let s := gang .safe [] { node0 with st := .preempting, reqAt := some 0, record := 2 ^ 256 } id
     let u := gang .safe [] { node0 with st := .preempting, reqAt := some 0 } id
     (match s.preempting with | some (n, x) => decide (n = 3 ∧ x.livemap ≠ 0) | none => false) = true ∧
     (after (exec .safe s)).me.act = .atSafe 0 ∧
     (match u.preempting with | some (n, x) => decide (n = 3 ∧ x.livemap = 0 ∧ x.stop = .none) | none => false) = true) := by
  simp only [State.issues]; decide +kernel

/-- QSYNC that crosses its boundary and one that waits for a second cluster; FENCE that is met, not met, and with a failed store. -/
theorem test_witness_Ordering :
    let g := gang .qsync [] node0 id
    let two := g.modMyCore fun k => k.setCluster 1 { Cluster.reset with act := .running }
    let arrive (s : State) : State := s.fresh.modMe fun c => { c with arrived := true }
    let f (i : Instr) (p : List Posted) (m : Option (Nat × Word)) : State := (mach i []).modMe fun c => { c with posted := p, mirrRep := m }
    let fo : FenceOps := { flavour := 3, scope := 4 }
    g.issues .qsync ∧ g.me.report = none ∧ (arrive two).atBoundary 0 = false ∧
    (f (.fence fo) [] none).issues (.fence fo) ∧ ((f (.fence fo) [] none).fenceMet fo && decide (fo.scope = 4 → ([] : List Posted) = [])) = true ∧
    ((f (.fence fo) [{ id := 1, ea := 8, fail := 0 }] none).fenceMet fo && decide (fo.scope = 4 → (f (.fence fo) [{ id := 1, ea := 8, fail := 0 }] none).me.posted = [])) = false ∧
    (f (.fence fo) [] (some (cPROT, 8))).me.mirrRep = some (cPROT, 8) ∧
    (after (exec (.fence fo) (f (.fence fo) [] (some (cPROT, 8))))).me.trapInfo = 8 := by
  simp only [State.issues]; decide +kernel

/-- Granules of the own scratchpad up to its end, one too many, and another place (R163). -/
theorem test_witness_GuardMarks :
    let o : GuardOps := { ra := 1, rb := 2, mark := true }
    let s (a n : Word) : State := mach (.spguard o) [(1, a), (2, n)]
    let ok (a n : Word) (f : State → Nat → Bool) : Bool := okB ((s a n).fresh.access .load 256 a) fun r => f r.1 r.2.2
    (s 0x403FFF00 1).issues (.spguard o) ∧
    ok 0x403FFF00 1 (fun u pa => u.own pa && decide ((pa - scratchBase) % scratchSize / 256 + 1 ≤ 16384)) = true ∧
    ok 0x403FFF00 2 (fun u pa => u.own pa && decide (16384 < (pa - scratchBase) % scratchSize / 256 + 2)) = true ∧
    ok 0 1 (fun u pa => !u.own pa) = true ∧
    ((after (exec (.spguard o) (s 0x403FFF00 1))).myCore.inflight.map fun l => l.w) = [.guard 16383 1 true] := by
  simp only [State.issues]; decide +kernel

/-! ### Tile instructions -/

/-- The element that a write in flight gives tile register 1, row 0, column `j` in its cycle, with the flags in flight. -/
def tileOut (s : State) (j : Nat) : Option (Nat × Elem) :=
  s.myCore.inflight.findSome? fun l => match l.w with | .tile cs => (cs.find? fun c => decide (c.1 = tileKey 1 0 j)).map fun c => (l.due, c.2) | _ => none

/-- A machine with row 0 of T2 holding 1.5 and of T3 holding 2.0 in columns 0 and 1, and P1 enabling column 1 only. -/
def tiles (i : Instr) : State :=
  (machF i [(1, 0x41)] fun k => { k with tiles := [(tileKey 2 0 0, 0x3FC00000), (tileKey 2 0 1, 0x3FC00000), (tileKey 3 0 0, 0x40000000),
    (tileKey 3 0 1, 0x40000000)] }).modMe fun c => { c with p := [(1, 2)] }

/-- Modifiers with every field 0 but the element type and the predicate P1. -/
def one (t : ETy) : Mods := { plain t with pred := 1 }

/-- VMOV, VSPLAT, VINS and VEXT issue with their destination not locked; a locked one waits. -/
theorem test_witness_TileMoves :
    (tiles (.vmov { td := 1, ta := 2, pred := 1 })).issues (.vmov { td := 1, ta := 2, pred := 1 }) ∧
    (tiles (.vsplat { td := 1, ta := 1, pred := 0 })).issues (.vsplat { td := 1, ta := 1, pred := 0 }) ∧
    (tiles (.vins { td := 1, ta := 1, tb := 1, pred := 0 })).issues (.vins { td := 1, ta := 1, tb := 1, pred := 0 }) ∧
    (tiles (.vext { xd := 4, ta := 2, tb := 1 })).issues (.vext { xd := 4, ta := 2, tb := 1 }) ∧ (tiles .nop).myCore.locked 1 = false ∧
    (machF .nop [] fun k => { k with locks := [(1, 2)] }).myCore.locked 1 = true ∧
    tileOut (after (exec (.vmov { td := 1, ta := 2, pred := 1 }) (tiles (.vmov { td := 1, ta := 2, pred := 1 })))) 1 = some (1, 0x3FC00000) ∧
    tileOut (after (exec (.vmov { td := 1, ta := 2, pred := 1 }) (tiles (.vmov { td := 1, ta := 2, pred := 1 })))) 0 = none := by
  simp only [State.issues]; decide +kernel

/-- Arithmetic, integer and logic instructions issue with the types that they accept. -/
theorem test_witness_TileArithmetic :
    (∀ p ∈ [Instr.vadd, .vsub, .vmul, .vmin, .vmax], (tiles (p (t2 (plain .f64)))).issues (p (t2 (plain .f64))) ∧ (t2 (plain .f64)).m.fpArith = true) ∧
    (∀ p ∈ [Instr.vaddLit, .vsubLit, .vmulLit, .vminLit, .vmaxLit],
      (tiles (p { d := 1, a := 2, lit := 0, m := plain .bf16 })).issues (p { d := 1, a := 2, lit := 0, m := plain .bf16 })) ∧
    (tiles (.vfma { d := 1, a := 2, b := 3, c := 2, m := plain .f32 })).issues (.vfma { d := 1, a := 2, b := 3, c := 2, m := plain .f32 }) ∧
    (tiles (.vfmaLit { d := 1, a := 2, c := 2, lit := 1, m := plain .f32 })).issues (.vfmaLit { d := 1, a := 2, c := 2, lit := 1, m := plain .f32 }) ∧
    (∀ p ∈ [Instr.viadd, .visub, .vimul], (tiles (p (t2 (plain .i8)))).issues (p (t2 (plain .i8))) ∧ (plain .i8).intArith = true) ∧
    (∀ p ∈ [Instr.viaddLit, .visubLit, .vimulLit],
      (tiles (p { d := 1, a := 2, lit := 0, m := plain .ui16 })).issues (p { d := 1, a := 2, lit := 0, m := plain .ui16 })) ∧
    (∀ p ∈ [Instr.vand, .vor, .vxor, .vshl, .vshr, .vsar], (tiles (p (t2 (plain .ui8)))).issues (p (t2 (plain .ui8))) ∧ (plain .ui8).logic = true) ∧
    (∀ p ∈ [Instr.vandLit, .vorLit, .vxorLit, .vshlLit, .vshrLit, .vsarLit],
      (tiles (p { d := 1, a := 2, lit := 0, m := plain .i32 })).issues (p { d := 1, a := 2, lit := 0, m := plain .i32 })) := by
  simp only [State.issues]; decide +kernel

/-- 1.5 + 2 = 3.5, 1.5 * 2 * 2^-1 = 1.5, -1.5 + 2 clamped to [0, 1], 1.5 * 2 + 1.5 = 4.5, and bit patterns added, shifted and
compared as integers, worked out by hand. -/
theorem test_tile_results :
    let run (i : Instr) : Option (Nat × Elem) := tileOut (after (exec i (tiles i))) 1
    run (.vadd (t2 (one .f32))) = some (3, 0x40600000) ∧ run (.vmul (t2 { one .f32 with scale := 0x3F })) = some (3, 0x3FC00000) ∧
    run (.vadd (t2 { one .f32 with negA := true, clamp := .to01 })) = some (3, 0x3F000000) ∧
    run (.vfma { d := 1, a := 2, b := 3, c := 2, m := one .f32 }) = some (3, 0x40900000) ∧
    run (.vsubLit { d := 1, a := 2, lit := 0x3F800000, m := one .f32 }) = some (3, 0x3F000000) ∧
    run (.viadd (t2 (one .i32))) = some (1, 0x7FC00000) ∧ run (.visub (t2 { one .ui16 with clamp := .sat })) = some (1, 0x00000000) ∧
    run (.vshlLit { d := 1, a := 2, lit := 33, m := one .i32 }) = some (1, 0x7F800000) ∧
    run (.vsar { d := 1, a := 2, b := 3, m := one .i32 }) = some (1, 0x3FC00000) := by decide +kernel

/-- Select, compare, special functions and conversions issue. -/
theorem test_witness_TileSelectAndConvert :
    let m := plain .f32
    (tiles (.vsel { d := 1, a := 2, b := 3, sel := 1, m := m })).issues (.vsel { d := 1, a := 2, b := 3, sel := 1, m := m }) ∧
    (tiles (.vselLit { d := 1, a := 2, sel := 1, lit := 5, m := m })).issues (.vselLit { d := 1, a := 2, sel := 1, lit := 5, m := m }) ∧
    (tiles (.vcmp { pd := 2, a := 2, b := 3, cond := 7, any := true, m := m })).issues (.vcmp { pd := 2, a := 2, b := 3, cond := 7, any := true, m := m }) ∧
    (tiles (.vcmpLit { pd := 2, a := 2, cond := 0, any := false, lit := 0, m := m })).issues (.vcmpLit { pd := 2, a := 2, cond := 0, any := false, lit := 0, m := m }) ∧
    (∀ p ∈ [Instr.vrcp, .vrsq, .vsqrt, .vexp2, .vlog2, .vsin, .vcos, .vtanh, .vsigm, .verf], (tiles (p (t1 (plain .f16)))).issues (p (t1 (plain .f16)))) ∧
    (tiles (.vcvt { d := 1, a := 2, sty := .f32, keep := true, m := plain .f16 })).issues (.vcvt { d := 1, a := 2, sty := .f32, keep := true, m := plain .f16 }) ∧
    (tiles (.vpack { d := 1, a := 2, b := 3, sty := .f32, m := plain .f16 })).issues (.vpack { d := 1, a := 2, b := 3, sty := .f32, m := plain .f16 }) ∧
    (tiles (.vunpk { d := 1, a := 2, sty := .f16, hi := true, m := m })).issues (.vunpk { d := 1, a := 2, sty := .f16, hi := true, m := m }) := by
  simp only [State.issues]; decide +kernel

/-- 1 / 1.5 and 2^1.5 rounded to nearest (FP32 patterns from tables), 1.5 as FP16, a comparison, and a selection of b. -/
theorem test_convert_results :
    let run (i : Instr) : Option (Nat × Elem) := tileOut (after (exec i (tiles i))) 1
    run (.vrcp (t1 (one .f32))) = some (11, 0x3F2AAAAB) ∧ run (.vexp2 (t1 (one .f32))) = some (11, 0x403504F3) ∧
    run (.vcvt { d := 1, a := 2, sty := .f32, keep := false, m := one .f16 }) = some (3, 0x00003E00) ∧
    run (.vunpk { d := 1, a := 2, sty := .bf16, hi := false, m := one .f32 }) = some (3, 0x00000000) ∧
    tileOut (after (exec (.vselLit { d := 1, a := 2, sel := 1, lit := 5, m := plain .f32 }) (tiles (.vselLit { d := 1, a := 2, sel := 1, lit := 5, m := plain .f32 })))) 0 = some (1, 5) ∧
    ((after (exec (.vcmp { pd := 2, a := 2, b := 3, cond := 2, any := true, m := plain .f32 })
      (tiles (.vcmp { pd := 2, a := 2, b := 3, cond := 2, any := true, m := plain .f32 })))).myCore.inflight.map fun l => l.w) =
      [.p 2 0xFFFF 3] := by decide +kernel

/-- The sum of 2^24 and 63 ones, exact until it is rounded (Table 13-10), and a maximum of signed bytes. -/
theorem test_reduce :
    let bits := 0x4B800000 :: List.replicate 63 0x3F800000
    (reduce 0 (plain .f32) .rne (mkMode .rne 0 0 0 32) bits).1 = 0x4B800020 ∧
    (reduce 0 (plain .f32) .rtz (mkMode .rtz 0 0 0 32) bits).1 = 0x4B80001F ∧
    (reduce 1 (plain .i8) .rne (mkMode .rne 0 0 0 8) [0x80, 0x7F, 0xFF]).1 = 0x7F := by decide +kernel

/-- Column-axis instructions issue; a row-axis word with S set that its cluster presents; every row-axis body runs. -/
theorem test_witness_TileAxes :
    (tiles (.vrotc { d := 1, a := 2, n := 15, m := plain .f32 })).issues (.vrotc { d := 1, a := 2, n := 15, m := plain .f32 }) ∧
    (tiles (.vbcc { d := 1, a := 2, n := 15, m := plain .f32 })).issues (.vbcc { d := 1, a := 2, n := 15, m := plain .f32 }) ∧
    (tiles (.vredc (ax 5 (plain .i32)))).issues (.vredc (ax 5 (plain .i32))) ∧
    (let i : Instr := .vtrn (t1 (plain .f32))
     let s : State := { tiles i with ir := encode true 0 i }
     i.rowAxis = true ∧ s.me.loopEndTrap i (wordLen (s.ir % 2 ^ 32)) = false ∧ s.irSync = true ∧ s.me.wideIssued = false ∧
     (match (after (exec i s)).me.act with | .waiting h => decide (h.kind = .rendezvous) | _ => false) = true) ∧
    reads (encode true 0 (.vredw (ax 2 (plain .f32)))) (.vredw (ax 2 (plain .f32))) = true ∧ (tiles .nop).myCore.locked 1 = false := by
  simp only [State.issues]; decide +kernel

/-- Four clusters that present the same word. -/
def wide (i : Instr) : State :=
  let h : Hold := { kind := .rendezvous, instr := i, ea := 0, vals := [encode true 0 i], since := 0, sync := true }
  { (machF .nop [] fun k => { k with tiles := (tiles .nop).myCore.tiles, cl := (List.range 4).map fun c => (c, { Cluster.reset with act := .waiting h, p := [(1, 2)] }) }) with
    ev := .nats [0] }

/-- Fewer than four clusters present; four present a NOP; four present VROTW by 31, which moves column 0 to
column 33. -/
theorem test_witness_WideWords :
    (({ mach .nop [] with ev := .nats [0] } : State).presented 0).length < 4 ∧
    (wide .nop).presented 0 = [(0, encode true 0 .nop, .nop), (1, encode true 0 .nop, .nop), (2, encode true 0 .nop, .nop), (3, encode true 0 .nop, .nop)] ∧
    (let i : Instr := .vrotw { d := 1, a := 2, n := 31, m := one .f32 }
     (wide i).presented 0 = [(0, encode true 0 i, i), (1, encode true 0 i, i), (2, encode true 0 i, i), (3, encode true 0 i, i)] ∧
     i.rowAxis = true ∧ tileOut (after (exec .wideWordIssue (wide i))) 33 = some (5, 0x3FC00000)) := by
  decide +kernel

/-! ### Tile memory, records and sweeps -/

/-- VLD, VST, VLDG and VSTS with every access in the own scratchpad, and with one that fails its alignment or translation. -/
theorem test_witness_TileMemory :
    let o : TMem := { d := 1, a := 1, pitch := 1, pred := 0 }
    let g : TIdx := { d := 1, a := 1, b := 2, pred := 0 }
    let s (i : Instr) (a : Word) : State := mach i [(1, a)]
    let segs (i : Instr) (a : Word) (n : Need) : Except (Nat × Word) (State × List Piece) :=
      (s i a).fresh.checkAll n 64 ((List.range 16).map fun r => (r, segAddr (s i a) o r))
    let own (r : State × List Piece) : Bool := r.2.all fun p => r.1.own p.pa && decide (pteKind p.ent ≠ 3)
    (s (.vld o) 0x40000000).issues (.vld o) ∧ (s (.vst o) 0x40000000).issues (.vst o) ∧ (s (.vldg g) 0x40000000).issues (.vldg g) ∧
    (s (.vsts g) 0x40000000).issues (.vsts g) ∧ okB (segs (.vld o) 0x40000000 .load) own = true ∧ okB (segs (.vst o) 0x40000000 .store) own = true ∧
    errB (segs (.vld o) 0x403FFFC0 .load) (cXLATE, 0x40400000) = true ∧ errB (segs (.vst o) 0x60000000 .store) (cCNTSTORE, 0x60000000) = true ∧
    okB ((s (.vsts g) 0x40000000).fresh.checkAll .store 4 (gatherAddrs (s (.vsts g) 0x40000000) g)) own = true ∧
    errB ((s (.vldg g) 0x80000000).fresh.checkAll .load 4 (gatherAddrs (s (.vldg g) 0x80000000) g)) (cXLATE, 0x80000000) = true := by
  simp only [State.issues]; decide +kernel

/-- VLD of a row whose second word is 7; VQPOP of a head whose byte 4 is 9; VQPUSH into a queue with room (R188, R190). -/
theorem test_tile_memory_results :
    let v : Instr := .vld { d := 1, a := 1, pitch := 1, pred := 0 }
    let q : Instr := .vqpop { d := 1, q := 0, g := 0, pred := 0 }
    let s := machF q [] fun k => { k with qent := [(0, { st := .filled, data := 9 * 2 ^ 32, addr := 0 })] }
    tileOut (after (exec v ((mach v [(1, 0x40000000)]).setBytes scratchBase [0, 0, 0, 0, 7]))) 1 = some (7, 7) ∧
    (s.myCore.qEntry 0 (s.myCore.qHead 0)).st = .filled ∧ s.myCore.qCount 0 ≠ 0 ∧ tileOut (after (exec q s)) 1 = some (3, 9) ∧
    (after (exec q s)).myCore.qHead 0 = 1 ∧ s.myCore.qCount 1 ≠ 8 := by decide +kernel

/-- ILD, SLD, CBLD and IST with their bytes in the own scratchpad, and misaligned; SEED of 0. -/
theorem test_witness_Records :
    let r : RecMem := { d := 1, a := 1 }
    let s (i : Instr) (a : Word) : State := mach i [(1, a)]
    (s (.ild r) 0x40000080).issues (.ild r) ∧ (s (.sld r) 0x40000020).issues (.sld r) ∧ (s (.cbld { a := 1 }) 0x40000040).issues (.cbld { a := 1 }) ∧
    okB ((s (.ild r) 0x40000080).fresh.checkAll .load 128 [(0, 0x40000080)]) (fun x => x.2.all fun p => x.1.own p.pa) = true ∧
    okB ((s (.cbld { a := 1 }) 0x40000040).fresh.checkAll .load 64 ((List.range 16).map fun j => (j, 0x40000040 + w64 (64 * j))))
      (fun x => x.2.all fun p => x.1.own p.pa) = true ∧
    okB ((s (.ist r) 0x40000080).fresh.checkAll .store 128 [(0, 0x40000080)]) (fun x => x.2.all fun p => x.1.own p.pa && decide (pteKind p.ent ≠ 3)) = true ∧
    (after (exec (.ild r) (s (.ild r) 0x40000040))).me.trapCause = BitVec.ofNat 64 cALIGN ∧
    (after (exec (.seed { a := 2 }) (s (.seed { a := 2 }) 0))).me.srstate = 0x9E3779B9 ∧
    (s (.seedCe { a := 1 }) 0).issues (.seedCe { a := 1 }) := by
  simp only [State.issues]; decide +kernel

/-- An iterator record of rank 1 over `n` binary32 numbers from an address (Table 13-14). -/
def iter (base n : Nat) : BitVec 1024 := BitVec.ofNat 1024 (base + 2 ^ 64 + n * 2 ^ 128 + 4 * 2 ^ 192)

/-- A sweep of one element, an empty one and one whose destination record has rank 0 (Table 13-16). -/
theorem test_witness_Sweeps :
    let o : SwpOps := sw 6 0 0 .rne .f32
    let s (n : Nat) (d : BitVec 1024) : State := machF (.swp o) [] fun k => { k with iregs := [(1, d), (2, iter 0x40000000 n)] }
    let chk (n : Nat) (d : BitVec 1024) : SwpCheck := swpCheck (swpSize o.ety) (1, d.toNat) ((swpSources o).map fun r => (r, (SMap.get 0 (s n d).myCore.iregs r).toNat))
    (s 1 (iter 0x40001000 1)).issues (.swp o) ∧ (match chk 1 (iter 0x40001000 1) with | .ok => true | _ => false) = true ∧
    (match chk 0 (iter 0x40001000 0) with | .empty => true | _ => false) = true ∧
    (match chk 1 0 with | .trap c w => decide (c = cSHAPE ∧ w = shapeInfo 1 1) | _ => false) = true := by
  simp only [State.issues]; decide +kernel

/-! ### Distributions -/

/-- D1 holds the points 1.0 and seven +0, each with weight 0.125, in element 0, with a tag; D2 the same with another. -/
def dists (i : Instr) (ta tb : BitVec 16) : State :=
  (machF i [(1, 0x40000000)] fun k => { k with
    dval := [(pointKey 1 0 7, 0x3F800000), (pointKey 2 0 7, 0x3F800000)],
    dwt := ((List.range 8).map fun q => (pointKey 1 0 q, 0x3E000000)) ++ (List.range 8).map fun q => (pointKey 2 0 q, 0x3E000000),
    dtags := (if ta = 0 then [] else [(1, ta)]) ++ (if tb = 0 then [] else [(2, tb)]) }).modMe fun c => { c with p := [(1, 1)] }

/-- The points that a write in flight gives element 0 of D3, and the tag. -/
def distOut (s : State) : List (BitVec 32 × BitVec 32) × List (BitVec 16) :=
  (s.myCore.inflight.flatMap (fun l => match l.w with | .dist cs => (cs.filter fun c => decide (c.1 / 8 = 192)).map (fun c => c.2) | _ => []),
   s.myCore.inflight.filterMap fun l => match l.w with | .dtag _ t => some t | _ => none)

/-- Binary instructions on equal tags, a tag 0, `pw`, and different tags; the sum of two independent operands gets a fresh tag and the
points of Table 19-5: six of +0, 7/8 and 9/8, each of weight 1/8. -/
theorem test_witness_DistributionArithmetic :
    (∀ p ∈ [Instr.dadd, .dsub, .dmul, .dmax], ∀ pw : Bool, (dists (p { d := 3, a := 1, b := 2, pw := pw, pred := 1 }) 1 2).issues
      (p { d := 3, a := 1, b := 2, pw := pw, pred := 1 })) ∧
    (dists .nop 1 2).myCore.tag 1 = 1 ∧ (dists .nop 1 2).myCore.tag 2 = 2 ∧ (dists .nop 0 2).myCore.tag 1 = 0 ∧
    (let i : Instr := .dadd { d := 3, a := 1, b := 2, pw := false, pred := 1 }
     let r := distOut (after (exec i (dists i 1 2)))
     r.2 = [1] ∧ r.1.length = 8 ∧ r.1.drop 5 = [(0, 0x3E000000), (0x3F600000, 0x3E000000), (0x3F900000, 0x3E000000)]) ∧
    (let i : Instr := .dadd { d := 3, a := 1, b := 2, pw := true, pred := 1 }
     let r := distOut (after (exec i (dists i 1 2)))
     r.2 = [1] ∧ r.1.getLast? = some (0x40000000, 0x3E000000)) := by
  simp only [State.issues]; decide +kernel

/-- The other distribution instructions issue. -/
theorem test_witness_DistributionUnary :
    (∀ p ∈ [Instr.dcond, .drelu, .dtagPm, .tagnext], (dists (p { d := 3, a := 1, pred := 1 }) 1 2).issues (p { d := 3, a := 1, pred := 1 })) ∧
    (∀ p ∈ [Instr.dscl, .dshf], (dists (p { d := 3, a := 1, t := 1, r := 15, pred := 1 }) 1 2).issues (p { d := 3, a := 1, t := 1, r := 15, pred := 1 })) ∧
    (∀ p ∈ [Instr.dmkp, .dmkq], (dists (p { d := 3, a := 1, r := 8, pred := 1 }) 1 2).issues (p { d := 3, a := 1, r := 8, pred := 1 })) ∧
    (dists (.dmix { d := 3, a := 1, b := 2, t := 1, r := 0, pred := 1 }) 1 2).issues (.dmix { d := 3, a := 1, b := 2, t := 1, r := 0, pred := 1 }) ∧
    (dists (.dapp { d := 3, a := 1, fn := 9, pred := 1 }) 1 2).issues (.dapp { d := 3, a := 1, fn := 9, pred := 1 }) ∧
    (dists (.dtag { d := 3, a := 1, b := 2, pred := 1 }) 1 2).issues (.dtag { d := 3, a := 1, b := 2, pred := 1 }) ∧
    (dists (.dmku { d := 3, a := 1, rlo := 0, rhi := 15, pred := 1 }) 1 2).issues (.dmku { d := 3, a := 1, rlo := 0, rhi := 15, pred := 1 }) := by
  simp only [State.issues]; decide +kernel

/-- A write with S clear of elements of eight points; DMOM and DQNT of D1, whose mean is 0.125 and whose 90 % quantile is 1 by the
definition of R288; DLD and DST with their images in the own scratchpad. -/
theorem test_witness_DistributionMemoryExtract :
    let m : Instr := .dmom { d := 1, a := 1, r := 0, k := 0, pred := 1 }
    let q : Instr := .dqnt { d := 1, a := 1, r := 0, q := 900, pred := 1 }
    let l : DLdOps := { d := 3, a := 1, mode := 1 }
    let st : DStOps := { d := 1, a := 1 }
    (dists m 1 2).issues m ∧ (dists m 1 2).irSync = false ∧ (dists m 1 2).myCore.locked 1 = false ∧
    tileOut (after (exec m (dists m 1 2))) 0 = some (11, 0x3E000000) ∧ tileOut (after (exec q (dists q 1 2))) 0 = some (15, 0x3F800000) ∧
    (dists (.dld l) 1 2).issues (.dld l) ∧ (dists (.dst st) 1 2).issues (.dst st) ∧
    okB ((dists (.dld l) 1 2).fresh.checkAll .load 64 ((dists (.dld l) 1 2).imageAddrs 0x40000000)) (fun r => r.2.all fun p => r.1.own p.pa) = true ∧
    okB ((dists (.dst st) 1 2).fresh.checkAll .store 64 ((dists (.dst st) 1 2).imageAddrs 0x40000000))
      (fun r => r.2.all fun p => r.1.own p.pa && decide (pteKind p.ent ≠ 3)) = true ∧
    ((elementImage ((dists .nop 1 2).myCore.element 1 0)).drop 28).take 8 = [0, 0, 0x80, 0x3F, 0, 0, 0, 0x3E] := by
  simp only [State.issues]; decide +kernel

/-! ### Engine instructions and translation maintenance -/

/-- EPUSH of the command of R218, of one that is none, and to a full queue; ESTART, RENQ to the own rank, EFLUSH, and TCFG with a
good and a bad block (R205, Table 15-1). -/
theorem test_witness_EngineInstructions :
    let e : EpushOps := { a := 1, b := 2, queue := 1 }
    let x : SMap Word := [(1, 0x0100000000000000), (2, 0x8D)]
    let c0 : QCmd := { cmd := cmd false 0 false 0 (.mxzero 1), placed := 0, sect := none, stream := 0, origin := 0, resume := none }
    (machF (.epush e) x id).issues (.epush e) ∧ (machF (.epush e) x id).myCore.accepts 1 = true ∧
    (match decodeCmd (0x0100000000000000 * 2 ^ 32 + 0x8D) with
     | some c => EngOp.inQueue c.op 1 && !EngOp.pastT31 0 c.op && decide (((after (exec (.epush e) (machF (.epush e) x id))).myCore.matQ.map fun q => q.cmd) = [c])
     | none => false) = true ∧
    decodeCmd (0x0500000000000000 * 2 ^ 32) = none ∧
    (machF (.epush e) x fun k => { k with matQ := List.replicate (queueSize 1) c0 }).myCore.accepts 1 = false ∧
    (mach (.estart { a := 1 }) [(1, 8)]).issues (.estart { a := 1 }) ∧ okB ((mach (.estart { a := 1 }) [(1, 8)]).fresh.access .load 8 8) (fun r =>
      decide (r.1.myCore.inbox.length + r.1.inboxAhead 0 0 < 8)) = true ∧
    (let i : Instr := .renq { ra := 1, rb := 2 }
     let s := gang i [(1, 0x40000008)] node0 id
     s.issues i ∧ okB (s.fresh.access .load 8 0x40000008) (fun r => r.1.own r.2.2 && decide (0 < r.1.myCore.gangSize) &&
       decide (r.1.rankCore 0 = some 0) && decide ((r.1.core 0).inbox.length + r.1.inboxAhead 0 0 < 8)) = true) ∧
    (mach (.eflush { mask := 0x1F }) []).issues (.eflush { mask := 0x1F }) ∧
    (mach (.tcfg { a := 1 }) [(1, 0x920404004)]).issues (.tcfg { a := 1 }) ∧ tcbBad 0x920404004 = none ∧ tcbBad 0x80 = some 1 ∧
    (mach (.tcfg { a := 1 }) []).myCore.matrixIdle 0 = true := by
  refine ⟨?_, ?_, ?_, ?_, ?_, ?_, ?_, ?_, ?_, ?_, ?_, ?_, ?_⟩ <;> first | decide +kernel | (simp only [State.issues]; decide +kernel)

/-- TLBI; TLBSYNC with nothing open, with an invalidation open, and of scope 1; a unit that drops its entries for one: entries of the
range go, and a length of 0 removes none (R160, R161, R269). -/
theorem test_witness_TranslationMaintenance :
    let i : TlbiOps := { ra := 1, rb := 2, asid := 0, scope := 4, all := true }
    let k (len : Nat) : Ticket := { id := 5, core := 0, cl := 0, asid := some 0, lo := 0x40000100, len := len, scope := 4, undropped := [0], unacked := [0], doneAt := none }
    let sy (w : Nat) (t : List Ticket) : State := { (machS .tlbsync []).modMe (fun c => { c with tlbis := t.map fun x => x.id }) with ir := 0x6B * 2 ^ 22 + w, tickets := t }
    let d (len : Nat) : State := { mach .nop [] with ev := .nats [0, 5], tickets := [k len] }
    (machS (.tlbi i) [(1, 0x40000000), (2, 1)]).issues (.tlbi i) ∧ (sy 2 []).issues .tlbsync ∧ (sy 2 []).me.tlbis = [] ∧
    (sy 4 [k 1]).issues .tlbsync ∧ ((sy 4 [k 1]).tickets.all fun t => decide (t.scope ≤ 4)) = true ∧ (sy 4 [k 1]).ticketsDone (sy 4 [k 1]).me.tlbis = false ∧
    (sy 1 []).issues .tlbsync ∧ (after (exec .tlbsync (sy 1 []))).me.trapCause = BitVec.ofNat 64 cILLFLD ∧
    (d 1).ticket 5 = some (k 1) ∧ 0 ∈ (k 1).undropped ∧ (SMap.get [] (after (exec .tlbEntryDrop (d 1))).tlbs 0).length = 7 ∧
    (SMap.get [] (after (exec .tlbEntryDrop (d 0))).tlbs 0).length = 11 := by
  simp only [State.issues]; decide +kernel

/-! ### Lanes, shards and frames -/

/-- A machine whose interface has lane 3 and channel 0, and whose gang lane 3 is bound to. -/
def lanes (i : Instr) (x : SMap Word) (l : Lane) : State :=
  { gang i x node0 id with vifs := [(0, { Vif.reset with lanes := [(0, 8)], chans := 1 })], tierLanes := [(3, l)] }

/-- TEGO on an idle lane, on a busy one, with too many records; TESTAT; TETHR; a lane of nobody (R311-R314). -/
theorem test_witness_LaneInstructions :
    let o : TegoOps := { d := 4, a := 1, b := 2, lane := 3, wl := 0, wh := 1, ws := 7 }
    let run : Lane := { Lane.reset with st := .running, node := some 3, arrived := 9, lateness := 77 }
    let te (item : Word) : State := lanes (.testat { d := 4, a := 1, lane := 3 }) [(1, item)] run
    let th : TethrOps := { a := 1, b := 2, lane := 3 }
    (lanes (.tego o) [(1, 64), (2, 2 ^ 20)] Lane.reset).issues (.tego o) ∧
    (lanes (.tego o) [(1, 64), (2, 2 ^ 20)] Lane.reset).laneOf 0 (coreDie 0) 3 = true ∧
    ((after (exec (.tego o) (lanes (.tego o) [(1, 64), (2, 2 ^ 20)] Lane.reset))).lane 0 3).ws = 8 ∧
    ((after (exec (.tego o) (lanes (.tego o) [(1, 64), (2, 1)] run))).myCore.inflight.map fun l => l.w) = [.x 4 1] ∧
    ((after (exec (.tego o) (lanes (.tego o) [(1, 64), (2, 2 ^ 20 + 1)] Lane.reset))).myCore.inflight.map fun l => l.w) = [.x 4 2] ∧
    ((after (exec (.testat { d := 4, a := 1, lane := 3 }) (te 1))).myCore.inflight.map fun l => l.w) = [.x 4 77] ∧
    (lanes (.tethr th) [(1, 65535), (2, 1)] run).issues (.tethr th) ∧ ((lanes (.tethr th) [] run).lane 0 3).node = (lanes (.tethr th) [] run).myCore.node ∧
    ((1 : Word)).toNat < 2 ^ (lanes (.tethr th) [] run).myCore.gangSize ∧
    ((after (exec (.tethr th) (lanes (.tethr th) [(1, 65535), (2, 1)] run))).lane 0 3).step = 65535 ∧
    (lanes .nop [] run).laneOf 0 (coreDie 0) 2 = false := by
  simp only [State.issues]; decide +kernel

/-- HPTCFG of items at and past their bounds, DITSWP's forms, and a swap that completes (R315, R316). -/
theorem test_witness_FrameInstructions :
    let o : XPair := { a := 1, b := 2 }
    let x : X3 := { d := 4, a := 1, b := 2 }
    let f : DitFree := { d := 4, a := 1, b := 2, shadow := true }
    let h : Hold := { kind := .blocking, instr := .ditswpSwap x, ea := 0, vals := [0, 0x10000, 0x20000, 4], since := 3, sync := false }
    let s : State := { (machS .nop []).modMe (fun c => { c with act := .waiting h }) with ev := .nats [0, 0, 3] }
    (machS (.hptcfg o) []).issues (.hptcfg o) ∧ hptOk 1 4096 = true ∧ hptOk 1 4097 = false ∧ hptOk 0x3F (2 ^ 36 - 1) = true ∧ hptOk 0x40 0 = false ∧
    (machS (.ditswpSwap x) []).issues (.ditswpSwap x) ∧ viaDit 0x10000 = true ∧ homeDie 0x10000 = homeDie 0x20000 ∧
    (machS (.ditswpSet x) []).issues (.ditswpSet x) ∧ (machS (.ditswpFree f) []).issues (.ditswpFree f) ∧
    (s.ditEntry 1).mov = false ∧ (s.ditEntry 2).shd = false ∧ ((after (exec .blockingCompletion s)).ditEntry 1).mframe = 2 ∧
    ((after (exec .blockingCompletion s)).ditEntry 2).mframe = 1 ∧
    (let g : Hold := { kind := .blocking, instr := .hptcfg o, ea := 0, vals := [0, 0x21, 5], since := 3, sync := false }
     let u : State := { (machS .nop []).modMe (fun c => { c with act := .waiting g }) with ev := .nats [0, 0, 3] }
     SMap.get 0 (after (exec .blockingCompletion u)).hptNext 0x21 = 6 ∧ SMap.wf 0 (after (exec .blockingCompletion u)).hptNext = true ∧
     (after (exec .blockingCompletion u)).applyHpt.hptItem 0 0x21 = 5) := by
  refine ⟨?_, ?_, ?_, ?_, ?_, ?_, ?_, ?_, ?_, ?_, ?_, ?_, ?_, ?_, ?_⟩ <;> first | decide +kernel | (simp only [State.issues]; decide +kernel)

/-- A shard record of 64 bytes that starts in HBM4E (first = 2) with no transcoding (Table 21-5). -/
def record : Nat := 0x40000 + 64 * 2 ^ 256 + 64 * 2 ^ 288 + 2 * 2 ^ 352 + 3 * 2 ^ 354

/-- Lane 3 of a gang whose context has the record's range, in the state `l`. -/
def shards (l : Lane) (ev : EvArgs) : State :=
  { lanes .nop [] { l with node := some 3, st := .running, count := 1 } with
    ev := ev,
    nodes := [(3, some { node0 with graph := 2 })], graphs := [(2, some { vi := 0, ctx := 0, handle := 1, nodes := [3], doneCtr := 0, batch := none })],
    ctxs := [(0, some { asid := 0, pool := 0, size := 1, used := [0], itin := [(0x40000, 0x10000)] })] }

/-- Reading a record, a record that passes and one that does not, and the start and end of its hop (R301-R303). -/
theorem test_witness_ShardSteps :
    let x (st : HopState) : Shard := { index := 0, record := record, ready := 0, hops := [(2, { Hop.fresh with st := st })] }
    let x1 : Shard := { index := 0, record := record - 2 * 2 ^ 352, ready := 0, hops := [(1, { Hop.fresh with st := .active })] }
    let l (st : HopState) : Lane := { Lane.reset with shards := [x st] }
    (match (shards Lane.reset (.nats [0, 3, 0, 0])).check (unitTier 0) 0 false .load 0 with | .ok _ => true | .error _ => false) = true ∧
    (shards Lane.reset .none).laneAsid ((shards Lane.reset .none).lane 0 3) = 0 ∧
    shCheck record = none ∧ (shards Lane.reset .none).shPlaces ((shards Lane.reset .none).lane 0 3) record = none ∧
    shCheck (record + 2 ^ 400) = some (cSHAPE, 0x100) ∧
    ((after (exec .shardRecordRead (shards Lane.reset (.nats [0, 3, 0, 1, 0, 0, record + 2 ^ 400])))).lane 0 3).st = .faulted ∧
    (shards (l .pending) .none).hopReady ((shards (l .pending) .none).lane 0 3) (x .pending) 2 = true ∧
    (((after (exec .hopStart (shards (l .pending) (.nats [0, 3, 0, 2])))).lane 0 3).shards.map fun y => (y.hop 2).st) = [.active] ∧
    (x1.hop 1).st = .active ∧ (x1.hop 1).guard = none ∧
    (((after (exec .hopDone (shards { Lane.reset with shards := [x1] } (.nats [0, 3, 0, 1])))).lane 0 3).shards.map fun y => (y.hop 1).st) = [.done] := by
  decide +kernel

/-- A granule that is copied from HBM4E into the scratchpad, and one whose carried check fails (R303, R309). -/
theorem test_witness_HopGranules :
    let x : Shard := { index := 0, record := record, ready := 0, hops := [(2, { Hop.fresh with st := .active })] }
    let s := (shards { Lane.reset with shards := [x] } (.nats [0, 3, 0, 2, 0, 0])).setBytes 0x40000 [1, 2, 3]
    let t := after (exec .hopGranule s)
    let bad : Shard := { index := 0, record := record - 2 ^ 352, ready := 0, hops := [(2, { Hop.fresh with st := .active })] }
    let sb := shards { Lane.reset with shards := [bad] } (.nats [0, 3, 0, 2, 0, 0])
    (s.mediaRange scratchBase 64).Nodup ∧ s.badFrame 0x40000 64 = none ∧ s.badFrame scratchBase 64 = none ∧
    (match s.granule (s.lane 0 3) x 2 with | .ok bs used _ => decide (bs.length = 64 ∧ used = 64) | _ => false) = true ∧
    t.bytes scratchBase 4 = [1, 2, 3, 0] ∧ (match sb.granule (sb.lane 0 3) bad 2 with | .bad _ => true | _ => false) = true := by
  decide +kernel

/-- R297 by hand: range 0 gives media frame 4 of die 0 function 0. Offset 0x40000 then has u = 1024: pseudo-channel 0, bank 0, rest 1,
the cell that function 4 selects for u = 16 * 64 + 1, since 1 ^ (1 mod 64) = 0. -/
theorem test_channel_hash :
    let s : State := { State.reset with hpt := [(0x20, 2 ^ 39 + 4 + 1), (0x21, 5 + 1)] }
    s.frameFn 4 = 0 ∧ s.frameFn 5 = 4 ∧ s.cell 0x40000 = 0x40100 ∧ s.cell 0x50000 = 0x50000 ∧
    ((s.setByte 0x40000 7).byte 0x40000 = 7) ∧ ({ s.setByte 0x40000 7 with hpt := [] } : State).byte 0x40100 = 7 := by
  decide +kernel

/-- A move of frame 1 to media frame 7, of which granules of `d` have been written since the last of `k` copies. -/
def moving (k : Nat) (d : List Nat) : State :=
  { ({ State.reset with moves := [{ frame := 1, die := 0, dest := 0, new := some 7, dirty := d, copies := k }], ev := .nats [1] } : State).setBytes 0x10005 [9] with
    dit := [(1, some { DitEntry.identity 1 with mov := true })] }

/-- The first copy of a move, a fifth pass that is the last, one with 8 granules left, which is the last step too, and a frame's return. -/
theorem test_witness_FrameMoves :
    let a := moving 0 []
    let b := moving 4 (List.range 9)
    let c := moving 5 (List.range 9)
    let d := moving 1 (List.range 8)
    let go (s : State) : State := after (exec .moveFinalSwap s)
    a.memOk ∧ b.memOk ∧ c.memOk ∧ d.memOk ∧ (a.ditEntry 1).mov = true ∧ 7 ≠ (a.ditEntry 1).mframe ∧
    ((go a).ditEntry 1).mframe = 1 ∧ (go a).byte 0x10005 = 9 ∧ ((go a).moves.map fun m => m.copies) = [1] ∧
    ((go b).moves.map fun m => (m.copies, m.dirty)) = [(5, [])] ∧ ((go c).ditEntry 1).mframe = 7 ∧ ((go d).ditEntry 1).mframe = 7 ∧
    ((go d).ditEntry 1).mov = false ∧ ((go d).agenda.map fun x => x.row) = [.frameReturn] ∧
    SMap.get [] (after (exec .frameReturn { State.reset with ev := .nats [4, 6, 0] })).pools 4 = [6] ∧
    (after (exec .frameReturn { d with ev := .nats [4, 6, 2] })).moves = [] := by
  simp only [State.memOk]; decide +kernel

/-- The ends of a tracking period, with an item that takes effect then, and of a throttle window; a pseudo-channel whose idle time has
passed in this cycle, one for which a cycle is missing, and a request, which ends self-refresh (R295, R299, R305). -/
theorem test_witness_TrackingAndRefresh :
    let l : Lane := { Lane.reset with step := 1, winStart := 1, acc := 0, level := 4 }
    let w : State := { lanes .nop [] l with cycle := 64, ev := .nats [0, 3] }
    let p := after (exec .trackingPeriodEnd { State.reset with ev := .nats [0], hits := [(1, 5)], hptNext := [(2, 6)], cycle := 8 })
    let q (cyc : Nat) : State := { State.reset with ev := .nats [4095], cycle := cyc }
    let n := State.reset.hptItem 0 4
    SMap.wf 0 [(2, (6 : Nat))] = true ∧ p.hits = [] ∧ p.hptItem 0 2 = 5 ∧ p.hptNext = [] ∧
    (w.lane 0 3).windowEnds 64 = true ∧ ((after (exec .throttleWindowEnd w)).lane 0 3).level = 3 ∧
    n ≠ 0 ∧ (after (exec .selfRefreshEntry (q (n - 1)))).chanCtr 4095 = { ChanCtr.reset with asleep := true, entries := 1 } ∧
    (after (exec .selfRefreshEntry (q (n - 2)))).chanCtr 4095 = ChanCtr.reset ∧
    (q 7).pseudoChan ((((q 7).ditEntry (5 / 1024)).mframe * 65536) + 5 % 1024 * 64) = some 1 ∧
    (({ q 7 with chanCtrs := [(1, { ChanCtr.reset with asleep := true })] } : State).burst .read 5).chanCtr 1 =
      { ChanCtr.reset with reads := 1, last := 8 } := by
  decide +kernel
/-! ### Relay channels and launches -/

/-- A record of channel 0 from rank 0 to rank 0: depth 2, slabs of 64 bytes, the ring at 0x40001000 (Table 23-1). -/
def chanRecord : Nat := 2 * 2 ^ 80 + 64 * 2 ^ 96 + 0x40001000 * 2 ^ 128

/-- A gang whose channel 0 is `c`. -/
def relay (i : Instr) (x : SMap Word) (c : Chan) : State :=
  { lanes i x Lane.reset with chans := [(0, { c with node := some 3, record := chanRecord })], cycle := 9 }

/-- Relay instructions that do what they are for, that find the channel in each other state, and one of nobody (R325-R331). -/
theorem test_witness_ChannelInstructions :
    let send : Rx3 := { d := 4, a := 1, b := 2, ch := 0 }
    let recv : Rx2 := { d := 4, a := 1, ch := 0 }
    let c (st : ChanState) : Chan := { Chan.reset with st := st }
    let s1 := relay (.rxsend send) [(1, 0x40000000), (2, 2 ^ 17 - 1)] (c .opened)
    let s2 := relay (.rxrecv recv) [] { c .flowing with sent := 1, arrived := 1 }
    let s3 := relay (.rxfree { ch := 0 }) [] { c .flowing with sent := 1, arrived := 1, received := 1 }
    s1.issues (.rxsend send) ∧ okB (s1.relayChan 0) (fun n => decide (n = 0)) = true ∧ okB (s1.fresh.sendSource 0x40000000 64) (fun _ => true) = true ∧
    s1.rank = crSrank chanRecord ∧ (s1.chan 0).stAt < s1.cycle ∧ (s1.chan 0).sent + 1 - (s1.chan 0).freed < crDepth chanRecord ∧
    ((after (exec (.rxsend send) s1)).chan 0).st = .flowing ∧ ((after (exec (.rxsend send) s1)).myCore.inflight.map fun l => l.w) = [.x 4 0] ∧
    s2.issues (.rxrecv recv) ∧ s2.fresh.headHeader (s2.chan 0) = 0 ∧ (s2.chan 0).received < (s2.chan 0).arrived ∧
    ((after (exec (.rxrecv recv) s2)).myCore.inflight.map fun l => l.w) = [.x 4 0x40001040] ∧
    (after (exec (.rxrecv recv) (s2.modMe fun k => { k with x := [(1, 7)] }))).me.trapCause = BitVec.ofNat 64 cRXPHASE ∧
    s3.issues (.rxfree { ch := 0 }) ∧ ((after (exec (.rxfree { ch := 0 }) s3)).chan 0).freeing = 1 ∧
    (s1.chanOf 0 1) = none := by
  refine ⟨?_, ?_, ?_, ?_, ?_, ?_, ?_, ?_, ?_, ?_, ?_, ?_, ?_, ?_, ?_, ?_⟩ <;> first | decide +kernel | (simp only [State.issues]; decide +kernel)

/-- RXCLOSE's status in each state and role, and RXSTAT's items at their bounds (R330, R331). -/
theorem test_relay_status :
    let o : Rx1 := { d := 4, ch := 0 }
    let cl (st : ChanState) (g : BitVec 6) : List Write :=
      (after (exec (.rxclose o) ((relay (.rxclose o) [] { Chan.reset with st := st }).modMyCore fun k => { k with grank := g }))).myCore.inflight.map fun l => l.w
    let q : Rx2 := { d := 4, a := 1, ch := 0 }
    let stat (i : Word) : State := after (exec (.rxstat q) (relay (.rxstat q) [(1, i)] { Chan.reset with st := .draining, freed := 6 }))
    (relay (.rxclose o) [] { Chan.reset with st := .opened }).issues (.rxclose o) ∧ cl .closed 0 = [.x 4 1] ∧ cl .draining 0 = [.x 4 1] ∧
    cl .opened 0 = [.x 4 0] ∧ cl .flowing 5 = [.x 4 3] ∧ ((stat 0).myCore.inflight.map fun l => l.w) = [.x 4 0x24] ∧
    ((stat 4).myCore.inflight.map fun l => l.w) = [.x 4 6] ∧ (stat 6).me.trapCause = BitVec.ofNat 64 cILLFLD := by
  simp only [State.issues]; decide +kernel

/-- An RXOPEN that reads its record, the end of that read, the first open of a channel from rank 0 to itself, which opens it, the first of
two, and one refused (R324, R326). -/
theorem test_witness_RelayOpens :
    let o : X2 := { d := 4, a := 1 }
    let h (v : List Nat) : Hold :=
      { kind := .blocking, instr := .rxopen o, ea := 0x40000000, vals := [scratchBase, leaf scratchBase 0 0, 4] ++ v, since := 3, sync := false }
    let s (v : List Nat) (r : Nat) : State :=
      { ({ relay .nop [] Chan.reset with chans := [] } : State).writeN scratchBase 64 r with ev := .nats [0, 0, 3] }.modMe fun c => { c with act := .waiting (h v) }
    let two : State := { (s [1] (chanRecord + 2 ^ 64)).modMyCore (fun k => { k with aCores := 2 }) with nodes := [(3, some { node0 with cores := [0, 1] })] }
    let first := after (exec .blockingCompletion two)
    (relay (.rxopen o) [] Chan.reset).issues (.rxopen o) ∧ okB ((relay (.rxopen o) [] Chan.reset).fresh.access .load 64 0x40000000) (fun _ => true) = true ∧
    (after (exec .blockingCompletion (s [] chanRecord))).me.hold? = some (h [1]) ∧
    okB ((s [1] chanRecord).dest (leafOf (leaf scratchBase 0 0)) scratchBase true) (fun l => decide (l = [scratchBase])) = true ∧
    okB ((s [1] chanRecord).relayChan (crChan chanRecord)) (fun n => decide (n = 0)) = true ∧
    (s [1] chanRecord).openStatus ((s [1] chanRecord).chan 0) chanRecord = 0 ∧ ((after (exec .blockingCompletion (s [1] chanRecord))).chan 0).st = .opened ∧
    (crSrank (chanRecord + 2 ^ 64), crRrank (chanRecord + 2 ^ 64)) = (1, 0) ∧
    (s [1] 0).openStatus ((s [1] 0).chan 0) 0 = 4 ∧ ((after (exec .blockingCompletion (s [1] 0))).chan 0).st = .closed ∧
    two.openStatus (two.chan 0) (chanRecord + 2 ^ 64) = 0 ∧ ((first.chan 0).st, (first.chan 0).opener) = (.opening, 0) ∧ two.rankCore 0 = some 0 := by
  simp only [State.issues]; decide +kernel

/-- The ends of relay waits, up to the traps of a channel that drains and of one that is closed; a slab that starts, that may not yet, that
faults, that is read, that arrives, after a touch of a marked granule too; a free and a close, with their adds (R322-R324, R333, R334). -/
theorem test_witness_RelayTransfers :
    let rec_ := chanRecord + 15 * 2 ^ 256
    let w (k : Nat) (vals : List Nat) (c : Chan) : State :=
      { (relay .nop [] c).modMe (fun x => { x with act := .waiting { kind := .relay 0 k, instr := .nop, ea := 0, vals := vals, since := 0, sync := false } }) with
        ev := .nats [0, 0] }
    let x (src : Nat) (st : Bool) : Slab := { seq := 0, layer := 5, src := src, permit := 8, started := st, reads := [(scratchBase, 64)], writes := [(scratchBase + 0x1000, 128)], bytes := none, guard := none }
    let t (c : Chan) (ev : List Nat) : State := { relay .nop [] c with ev := .nats ev }
    let all (s : State) : State := { s with chans := s.chans.map fun e => (e.1, { e.2 with record := rec_ }) }
    let c (s : Slab) : Chan := { Chan.reset with st := .flowing, sent := 1, slabs := [s] }
    let bs : List Byte := List.replicate 64 7
    let arr (g : Option Word) := after (exec .slabArrival (all (t (c { x 0x40000000 true with bytes := some bs, guard := g }) [0, 0, 0])))
    let send (st : ChanState) : State := w 1 [0, 0, 0x40000000, 4] { Chan.reset with st := st }
    let src := after (exec .slabSourceRead (all (t (c (x 0x40000000 true)) [0, 0, 0])))
    let go := after (exec .slabStart (t (c (x 0x40000000 false)) [0]))
    let free := after (exec .rxfreeEffect (all (t { Chan.reset with st := .flowing, freeing := 1 } [0])))
    (crEnable rec_ 0 && crEnable rec_ 1 && crEnable rec_ 2 && crEnable rec_ 3) = true ∧
    ((after (exec .relayPermitGrant (send .opened))).chan 0).sent = 1 ∧
    ((after (exec .relayPermitGrant (all (send .opened)))).adds.map fun a => a.amount) = [1] ∧
    (after (exec .relayPermitGrant (send .draining))).me.trapInfo = phaseInfo 2 0 0 ∧
    (after (exec .relayPermitGrant (send .closed))).me.trapInfo = phaseInfo 4 0 0 ∧
    ((after (exec .rxrecvDeliver (w 2 [0, 0, 4] { Chan.reset with st := .flowing, sent := 1, arrived := 1 }))).chan 0).received = 1 ∧
    go.resident (some 3) = true ∧ go.nodeStop (some 3) = .none ∧
    ((go.chan 0).slabs.map fun y => (y.started, y.reads, y.writes)) = [(true, [(scratchBase, 64)], [(scratchBase + 0x1000, 128)])] ∧
    (after (exec .slabStart (t (c { x 0x40000000 false with permit := 9 }) [0]))).chans = (t (c { x 0x40000000 false with permit := 9 }) [0]).chans ∧
    ((after (exec .slabStart (t (c (x 0x80000000 false)) [0]))).chan 0).st = .faulted ∧
    ((src.chan 0).slabs.map fun y => y.bytes.map List.length) = [some 64] ∧ (src.adds.map fun a => a.amount) = [1] ∧
    (arr none).bytes (scratchBase + 0x1000) 2 = [5, 0] ∧ (arr none).bytes (scratchBase + 0x1040) 2 = [7, 7] ∧ ((arr none).chan 0).arrived = 1 ∧
    ((arr none).adds.map fun a => a.amount) = [1] ∧ (arr none).faults = [] ∧
    ((arr (some 9)).faults.map fun r => (r.cause, r.info)) = [(cGUARD, 9)] ∧ ((arr (some 9)).chan 0).arrived = 1 ∧
    ((free.chan 0).freed, free.adds.map fun a => a.amount) = (1, [1]) ∧
    ((after (exec .channelDrainClose (t { Chan.reset with st := .draining, closeAt := 9 } [0]))).chan 0).st = .closed := by
  simp only []
  repeat' apply And.intro
  all_goals decide +kernel

/-- DLAUNCH that holds its cluster, and a graph at an unmapped address, which gives code 7 (Table 3-4). -/
theorem test_witness_Launches :
    let o : Reg2 := { rd := 4, ra := 1 }
    let h : Hold := { kind := .blocking, instr := .dlaunch o, ea := 0x90000000, vals := [4], since := 3, sync := false }
    let s : State := { (mach .nop []).modMe (fun c => { c with act := .waiting h }) with ev := .nats [0, 0, 3] }
    (mach (.dlaunch o) [(1, 0x40)]).issues (.dlaunch o) ∧ okB ((mach (.dlaunch o) [(1, 0x40)]).fresh.access .load 32 0x40) (fun _ => true) = true ∧
    (match s.checkGraph 0 0 0x90000000 with | .error e => decide (e = (7, 0)) | .ok _ => false) = true ∧
    ((after (exec .blockingCompletion s)).myCore.inflight.map fun l => l.w) = [.x 4 7] := by
  simp only [State.issues]; decide +kernel

/-! ### Engines -/

/-- A queued command of an operation. -/
def qcmd (op : EngOp) : QCmd := { cmd := cmd false 0 false 0 op, placed := 0, sect := none, stream := 0, origin := 0, resume := none }

/-- Stream register 1: base 0x40000000, pitch and step 64, format `f` (Table 15-3). -/
def stream (f : Nat) : BitVec 256 := BitVec.ofNat 256 (0x40000000 + 64 * 2 ^ 128 + 64 * 2 ^ 160 + f * 2 ^ 224)

/-- A core whose queue `q` has the command at its head, with S1, a configuration of BF16 by BF16 with m = 4, n = 4, k = 16, and the
core changed by `f`. -/
def engine (q : Nat) (op : EngOp) (sd : BitVec 256) (f : Core → Core) : State :=
  let g := fun k : Core => f { k with
    sregs := [(1, sd)], tcb := 0x220100404
    loadQ := if q = 0 then [qcmd op] else []
    matQ := if q = 1 then [qcmd op] else []
    storeQ := if q = 2 then [qcmd op] else [] }
  { machF .nop [] g with curQueue := q, cycle := 5 }

/-- That the head of the queue is ready to issue. -/
def ready (s : State) (op : EngOp) : Bool :=
  decide (s.myCore.queue s.curQueue = [qcmd op]) && s.queuesRun s.curCore && s.myCore.headReady s.cycle s.curQueue (qcmd op)

/-- A matrix command at the head of its queue, on a stream of format `f`. -/
def mx (op : EngOp) (f : Nat) : State := engine 1 op (stream f) id

/-- That the command at the head of the queue starts. -/
def goes (i : Instr) (op : EngOp) (s : State) : Bool := ready s op && decide ((after (exec i s)).myCore.issued.length = 1)

/-- Matrix commands at the heads of their queue: MXLDS, MXRUN from a stream and from a tile, MXOUT to both, MXZERO, MXRDA; and an
MXLDS whose stream has the wrong format (R221-R227). -/
theorem test_witness_MatrixCommands :
    goes .mxlds (.mxlds 1) (mx (.mxlds 1) 2) = true ∧ tcbM (mx (.mxlds 1) 2).myCore.tcb = 4 ∧ tcbN (mx (.mxlds 1) 2).myCore.tcb = 4 ∧
    sdCheck (stream 2).toNat 2 4 32 false 1 = none ∧ sdCheck (stream 3).toNat 2 4 32 false 1 = some (engShape 2 1) ∧
    ((after (exec .mxlds (mx (.mxlds 1) 3))).faults.map fun r => (r.cause, r.info)) = [engShape 2 1] ∧
    (after (exec .mxlds (mx (.mxlds 1) 2))).myCore.loaderFree = 9 ∧
    goes .mxrun (.mxrun 0 true false 1) (mx (.mxrun 0 true false 1) 2) = true ∧ goes .mxrun (.mxrun 3 false true 8) (mx (.mxrun 3 false true 8) 2) = true ∧
    engScaled 2 = false ∧ goes .mxout (.mxout 0 false true 4 0 5 .sat 0) (mx (.mxout 0 false true 4 0 5 .sat 0) 0) = true ∧
    goes .mxout (.mxout 0 true false 1 0 0 .none 0) (mx (.mxout 0 true false 1 0 0 .none 0) 0) = true ∧
    goes .mxzero (.mxzero 15) (mx (.mxzero 15) 0) = true ∧ goes .mxrdaSt (.mxrdaSt 1 1) (mx (.mxrdaSt 1 1) 10) = true ∧
    goes .mxrdaLd (.mxrdaLd 1 1) (mx (.mxrdaLd 1 1) 10) = true := by
  refine ⟨?_, ?_, ?_, ?_, ?_, ?_, ?_, ?_, ?_, ?_, ?_, ?_, ?_, ?_, ?_⟩ <;> decide +kernel

/-- A copy of two rows of 8 bytes from 0x40001000 to 0x40002000 with pitches of 8 (Table 15-9). -/
def copyRecord (rows : Nat) : Nat := 0x40001000 + 0x40002000 * 2 ^ 64 + 8 * 2 ^ 128 + rows * 2 ^ 160 + 8 * 2 ^ 192 + 8 * 2 ^ 256

/-- A core with a copy command at the head of its queue and its descriptor in the scratchpad. -/
def copying (op : EngOp) (d : Nat) (f : Core → Core) : State := (engine 2 op (stream 15) f).writeN scratchBase 64 d

/-- That the copy at the head of the queue reads its descriptor and starts. -/
def copies (i : Instr) (op : EngOp) (d : Nat) : Bool :=
  okB ((copying op d id).copyDesc (stream 15).toNat) (fun r => decide (r.2.1 = d)) && goes i op (copying op d id)

/-- A running copy of two rows, of which one is done. -/
def running (op : EngOp) : Issued :=
  let r := { row := 1, sdesc := 0, cdesc := copyRecord 2, cbook := [], rows := [] }
  { id := 7, queue := 2, c := qcmd op, t0 := 4, tcb := 0, doneAt := none, guard := none, r := r }

/-- The same command waiting behind it. -/
def busy (op : EngOp) : State := copying op (copyRecord 2) fun k => { k with issued := [running op] }

/-- The second row of a raw copy about to be made. -/
def rowDue : State := { (busy (.cpy 1)).setBytes (scratchBase + 0x1008) [1, 2, 3] with ev := .nats [0, 7] }

/-- A multicast row of the copy in execution, at package 0 of 4, whose group 1 has root `root` and members `ms`. -/
def multi (root ms : Nat) (f : McRow → McRow) : State :=
  let m : McRow := f { id := 4, vi := 0, group := 1, core := 0, cmd := 7, va := 0x40000000, bytes := [1, 2] }
  { busy (.cpym 1) with
    ev := .nats [4], torus := (3, 0, 0), mcRows := [m], groups := [(1, some { root := root, members := ms, ctx := 0 })],
    ctxs := [(0, some { asid := 0, pool := 0, size := 1, used := [0], itin := [] })], tlbs := [(unitEgress 0, leaves), (unitEngine 0, leaves)] }

/-- A copy that waits while the range checker holds it, though its descriptor has a reserved bit; one that waits in no range. -/
def conflicts : State := copying (.cpy 1) (copyRecord 2 + 2 ^ 373) fun k => { k with issued := [running (.cpy 1)] }

/-- Copies that start, that a conflict holds back before the checks, that have no rows, and whose descriptor has a reserved bit; PUB of no
frames; a row of a raw copy (R215, R228-R237). -/
theorem test_witness_CopiesAndPublish :
    copies .cpy (.cpy 1) (copyRecord 2) = true ∧ copies .cpyg (.cpyg 1) (copyRecord 2) = true ∧ copies .cpys (.cpys 1) (copyRecord 2) = true ∧
    copies .cpym (.cpym 1) (copyRecord 2) = true ∧ copies .cpy (.cpy 1) (copyRecord 0) = true ∧
    copyCheck .plain (copyRecord 2) 1 = none ∧ copyCheck .plain (copyRecord 2 + 2 ^ 373) 1 = some (engShape 1 1) ∧
    ((after (exec .cpy (copying (.cpy 1) (copyRecord 2 + 2 ^ 373) id))).faults.map fun r => (r.cause, r.info)) = [engShape 1 1] ∧
    conflicts.copyMayStart .plain (copyRecord 2 + 2 ^ 373) = false ∧ (after (exec .cpy conflicts)).faults = [] ∧
    (after (exec .cpy conflicts)).myCore.storeQ = conflicts.myCore.storeQ ∧ copies .pub (.pub 1) (0x10000 * 2 ^ 64) = true ∧
    (after (exec .copyRow rowDue)).bytes (scratchBase + 0x2008) 4 = [1, 2, 3, 0] ∧
    ((after (exec .copyRow rowDue)).myCore.issued.map fun i => i.doneAt) = [some 5] := by
  refine ⟨?_, ?_, ?_, ?_, ?_, ?_, ?_, ?_, ?_, ?_, ?_, ?_, ?_, ?_⟩ <;> decide +kernel

/-- A row of CPYM that is read; one with a lost member, one for a package outside the torus, and one at a root that is no member; one sent
to its root, and one that the root performs and sends on; one acknowledged with a failure and without (R233, R335, R339, R340). -/
theorem test_witness_MulticastRows :
    let go (s : State) : State := after (exec .multicastForward s)
    let bad (s : State) : List (Nat × Word) := (go s).faults.map fun r => (r.cause, r.info)
    let sent (f : Nat) (m : McRow) : McRow := { m with sent := true, fail := f }
    let src : State := { (multi 0 1 id).setBytes (scratchBase + 0x1008) [1, 2, 3] with ev := .nats [0, 7], mcRows := [], groups := [(0, some { root := 0, members := 1, ctx := 0 })] }
    let carried (s : State) : List (Nat × PeerOp) := (go s).packets.map fun p => (p.req.dst, p.req.op)
    ((after (exec .copyRow src)).mcRows.map fun m => (m.va, m.bytes, m.sent, m.cmd)) = [(0x40002008, [1, 2, 3, 0, 0, 0, 0, 0], false, 7)] ∧
    ((after (exec .copyRow src)).myCore.issued.map fun i => i.r.row) = [1] ∧ (after (exec .copyRow src)).mem = src.mem ∧
    bad { multi 0 3 id with lost := [1] } = [(cMIRRFAIL, 1)] ∧ (go { multi 0 3 id with lost := [1] }).mcRows = [] ∧
    bad (multi 0 17 id) = [(cPROT, 1)] ∧ bad (multi 0 2 id) = [(cPROT, 1)] ∧
    carried (multi 2 5 id) = [(2, .mcast 1 2 513)] ∧ ((go (multi 2 5 id)).mcRows.map fun m => m.sent) = [true] ∧
    carried (multi 0 5 id) = [(2, .mcast 1 2 513)] ∧ (go (multi 0 5 id)).bytes scratchBase 3 = [1, 2, 0] ∧
    bad (multi 0 5 (sent cPROT)) = [(cPROT, 1)] ∧ (go (multi 0 5 (sent cPROT))).myCore.issued = [] ∧
    (go (multi 0 5 (sent 0))).mcRows = [] ∧ ((go (multi 0 5 (sent 0))).myCore.issued.map fun i => i.r.row) = [2] ∧
    ((go (multi 2 4 (sent 0))).myCore.issued.map fun i => i.r.row) = [2] := by
  refine ⟨?_, ?_, ?_, ?_, ?_, ?_, ?_, ?_, ?_, ?_, ?_, ?_, ?_, ?_, ?_, ?_⟩ <;> decide +kernel

/-- CWT of value 0 on the own counter 2, whose snapshot is `n`. -/
def cwtAt (n : Word) : State := engine 0 (.cwt (.own 2)) (stream 15) fun k => { k with kSnap := [(2, n)] }

/-- A CAD that completed, with a count at its retirement. -/
def retiring : Issued :=
  let q := qcmd (.cad (.own 2) 5)
  { running (.cad (.own 2) 5) with doneAt := some 5, c := { q with cmd := { q.cmd with h := { (cmd false 0 true 3 (.mxzero 0)).h with pushNext := true } } } }

/-- A core with that command in execution, at its retirement. -/
def retire : State := { engine 0 (.cad (.own 2) 5) (stream 15) (fun k => { k with issued := [retiring] }) with ev := .nats [0, 7] }

/-- A TCFG that waits for the engines to be idle. -/
def tcfgHold : Hold := { kind := .engQueue 1, instr := .tcfg { a := 1 }, ea := 0, vals := [0x920404004], since := 0, sync := false }

/-- The cluster of that TCFG at its end. -/
def tcfgEnd : State := { (machF .nop [] id).modMe (fun c => { c with act := .waiting tcfgHold }) with ev := .nats [0], cycle := 5 }

/-- A command stream at `a`. -/
def streamAt (a : Word) : Stream := { id := 0, start := a, next := a, left := 0, eng := 0, num := 0, counts := [] }

/-- A Bridle with a core changed by `x` and a command of word `w` at the start of the own scratchpad. -/
def bridle (x : Core → Core) (w : Nat) : State := { (machF .nop [] x).writeN scratchBase 12 w with ev := .nats [0], cycle := 5 }

/-- The Bridle with an address in its inbox. -/
def inboxed : State := bridle (fun k => { k with inbox := [{ addr := 0x40000000, placed := 4 }] }) 0

/-- An add of `n` to slot 3 by the engine of queue 2. -/
def engAdd (n : Nat) : AddReq := { ctr := .slot 0 3, amount := n, src := .engine 0 2 (ctrInfo 0 3 0 0) 6 7 8 }

/-- CWT at its value and past it by 2^15, CAD, an add at the last value and past it, a retirement that adds, a TCFG that waited (R143,
R205, R214, R215, R238). -/
theorem test_witness_EngineFlow :
    let full (n : Nat) : State := (machF .nop [] fun k => { k with k := [(3, 0xFFFFFFFFFFFFFFFE)] }).applyAdd (engAdd n)
    ready (cwtAt 0) (.cwt (.own 2)) = true ∧ (cwtAt 0).arrayIdle = true ∧ waitOk 0 0 = true ∧ waitOk 32768 0 = false ∧
    (after (exec .cwt (cwtAt 0))).myCore.issued.length = 1 ∧ (after (exec .cwt (cwtAt 32768))).myCore.issued = [] ∧
    ((after (exec .cad (engine 0 (.cad (.own 2) 5) (stream 15) id))).adds.map fun a => (a.ctr, a.amount)) = [(.slot 0 2, 5)] ∧
    (SMap.get 0 (full 1).myCore.k 3, (full 1).faults) = (0xFFFFFFFFFFFFFFFF, []) ∧ SMap.get 0 (full 2).myCore.k 3 = 0xFFFFFFFFFFFFFFFF ∧
    ((full 2).faults.map fun r => (r.cause, r.info, r.core)) = [(cCNTOVF, ctrInfo 0 3 0 0, 0)] ∧
    (retire.core 0).canRetire 5 retiring = true ∧ ((after (exec .engineRetire retire)).adds.map fun a => (a.ctr, a.amount)) = [(.slot 0 3, 1)] ∧
    (after (exec .engineRetire retire)).myCore.freshTokens ≠ [] ∧
    (tcfgEnd.core 0).tcfgWaiters = [(0, tcfgHold)] ∧ (after (exec .tcfgComplete tcfgEnd)).myCore.tcb = 0x920404004 := by
  refine ⟨?_, ?_, ?_, ?_, ?_, ?_, ?_, ?_, ?_, ?_, ?_, ?_, ?_, ?_, ?_⟩ <;> decide +kernel

/-- A stream that begins, a command it brings from the own scratchpad, its end, and one elsewhere, which waits for its open time and comes
then (R211, R212, R370). -/
theorem test_witness_StreamFetch :
    let own := streamAt 0x40000000
    let far (g : Nat × Nat) : State :=
      ((bridle (fun k => { k with stream := some { streamAt 64 with left := 1, gate := g } }) 0).writeN 0x40040 12 (0x20 * 2 ^ 88 + 3))
    let went (s : State) : List EngOp := (after (exec .bridleFetch s)).myCore.loadQ.map fun q => q.cmd.op
    inboxed.bridleRuns 0 = true ∧ (after (exec .bridleStreamBegin inboxed)).myCore.stream = some own ∧
    inboxed.ownBytes (unitBridle 0) 0x40000000 12 = true ∧ inboxed.ownBytes (unitBridle 0) 64 12 = false ∧
    went (bridle (fun k => { k with stream := some { own with left := 1 } }) (0x20 * 2 ^ 88 + 3)) = [.cpy 3] ∧
    (after (exec .bridleFetch (bridle (fun k => { k with stream := some own }) (3 * 2 ^ 62)))).myCore.stream = none ∧
    went (far (65, 5)) = [.cpy 3] ∧ went (far (65, 6)) = [] ∧ ((after (exec .bridleFetch (far (65, 6)))).myCore.stream.map fun x => x.gate) = some (65, 6) := by
  refine ⟨?_, ?_, ?_, ?_, ?_, ?_, ?_, ?_, ?_⟩ <;> decide +kernel
/-! ### The ends of waits, gangs, halts -/

/-- A row-axis instruction completes on every state without locks (R61). -/
theorem test_witness_WideWords_completes (o : AxN5) (u : State) (h : u.myCore.locks = []) : ∃ t, issueBody (.vrotw o) u = .done t := by
  have hl : ¬u.myCore.locked o.d.toNat = true := by simp [Core.locked, h, SMap.get]
  exact ⟨_, if_neg hl⟩

/-- A cluster of core 0 that waits as `h` says. -/
def waits (h : Hold) (ev : List Nat) : State := { (mach .nop []).modMe (fun c => { c with act := .waiting h }) with ev := .nats ev, cycle := 9 }

/-- A unit that has dropped its entries, and one with a slab under way under the same page; a TLBSYNC whose tickets are done, blocks that can and cannot be read, the data of a queue load,
a posted store (R161, R132, R134). -/
theorem test_witness_WaitEnds :
    let k (a d : List Nat) : Ticket := { id := 4, core := 0, cl := 0, asid := none, lo := 0, len := 0, scope := 4, undropped := d, unacked := a, doneAt := none }
    let s : State := { waits { kind := .blocking, instr := .nop, ea := 0, vals := [], since := 0, sync := false } [0, 4] with tickets := [k [0] []] }
    let hs : Hold := { kind := .tlbsync, instr := .tlbsync, ea := 0, vals := [], since := 0, sync := false }
    let y : State := { (waits hs [0, 0]).modMe (fun c => { c with tlbis := [4] }) with tickets := [{ k [] [] with doneAt := some 3 }] }
    let f (b pc : Nat) : State := (waits { kind := .fetch b, instr := .nop, ea := 0, vals := [], since := 0, sync := false } [0, 0]).modMe fun c => { c with pc := w64 pc }
    let q (ok : Nat) : State := { (mach .nop []).modMyCore (fun k => { k with qent := [(0, { st := .reserved, data := 0, addr := 0 })] }) with ev := .nats [0, 0, 0, 64, 3, 0, ok, 77] }
    let p : State := { (mach .nop []).modMe (fun c => { c with posted := [{ id := 4, ea := 8, fail := 9 }] }) with ev := .nats [0, 0, 4] }
    let use : Use := { unit := 0, asid := 0, base := 0, size := 4096 }
    let z : State := { s with tickets := [{ k [0] [] with len := 1 }], chans := [(0, { Chan.reset with slabs := [{ seq := 0, layer := 0, src := 0, permit := 0, started := true, reads := [], writes := [], bytes := none, guard := none, uses := [use] }] })] }
    (z.unitDrained 0 { k [0] [] with len := 1 } = false ∧ ((after (exec .tlbiAcknowledge z)).agenda.map fun d => (d.cycle, d.row)) = [(10, .tlbiAcknowledge)] ∧ use ∈ z.flights) ∧
    (s.unitDrained 0 (k [0] []) = true ∧ ((after (exec .tlbiAcknowledge s)).tickets.map fun t => (t.unacked, t.doneAt)) = [([], some 9)]) ∧
    (y.ticketsDone y.me.tlbis = true ∧ (after (exec .tlbsyncComplete y)).tickets = [] ∧ (after (exec .tlbsyncComplete y)).me.act = .running) ∧
    ((after (exec .fetchBlockArrival (f 1 64))).me.block = some 1 ∧ (after (exec .fetchBlockArrival (f 0 0x80000000))).me.trapCause = BitVec.ofNat 64 cXLATE) ∧
    (((q 1).myCore.qEntry 0 0).st = .reserved ∧ (((after (exec .ldqFill (q 1))).myCore.qEntry 0 0).data = 77) ∧
      ((after (exec .ldqFill (q 0))).myCore.qEntry 0 0).st = .poisoned) ∧
    ((after (exec .postedStoreAck p)).me.posted = [] ∧ (after (exec .postedStoreAck p)).me.mirrRep = some (9, 8)) := by
  refine ⟨⟨?_, ?_, ?_⟩, ⟨?_, ?_⟩, ⟨?_, ?_, ?_⟩, ⟨?_, ?_⟩, ⟨?_, ?_, ?_⟩, ⟨?_, ?_⟩⟩ <;> decide +kernel

/-- Core 0 running node 3, which is `x`, of a graph of interface 0. -/
def life (x : Node) (ev : List Nat) (f : Core → Core) : State :=
  { gang .nop [] x f with
    resetStep := 5
    ev := .nats ev, cycle := 160, vifs := [(0, { Vif.reset with cores := 1, credits := [(0, 5)] })]
    graphs := [(0, some { vi := 0, ctx := 0, handle := 1, nodes := [3], doneCtr := 0, batch := none })]
    ctxs := [(0, some { asid := 0, pool := 0, size := 1, used := [0], itin := [] })] }

/-- A core whose clusters have exited. -/
def still (k : Core) : Core := { k with cl := [0, 1, 2, 3].map fun c => (c, { Cluster.reset with act := .exited }) }

/-- A head that fits, a dispatched gang that starts, one that is restored, a drain that has ended, a save that has, a gang whose
tasks have finished, and a scratchpad due to be cleared (R32, R46-R50, R54). -/
theorem test_witness_GangLife :
    let r : Node := { node0 with st := .ready, cores := [], record := 2 ^ 472 }
    let rdy : State := life r [] fun k => { still k with node := none }
    let dsp : State := life { node0 with st := .dispatched } [3] still
    let rst : State := life { node0 with st := .dispatched, saved := [(0, { Core.reset with k := [(2, 9)] })] } [3] still
    let drn : State := life { node0 with st := .preempting, stop := .drain } [3] still
    let sav : State := life { node0 with st := .preempting, stop := .saving true } [3] still
    let don : State := life { node0 with st := .draining } [3] still
    let cnt : State := { life { node0 with st := .draining, record := 0x60000008 * 2 ^ 384 } [3] still with
      tlbs := [(unitFirmware, page 0x60000000 0x10000 (leaf 0x30000 0 4096 - 256) [0])] }
    let dirty : State := { ({ rdy with clears := [0], owners := [(0, 1)] } : State).writeN scratchBase 1 7 with ev := .nats [0] }
    (rdy.heads.map fun h => (h.n, h.cores)) = [(3, some [0])] ∧ ((after (exec .paddockDecision rdy)).node 3).map (fun y => y.st) = some .dispatched ∧
    ((after (exec .gangFirstIssue dsp)).node 3).map (fun y => y.st) = some .running ∧ ((after (exec .gangFirstIssue dsp)).cluster 0 3).act = .running ∧
    SMap.get 0 ((after (exec .gangFirstIssue rst)).core 0).k 2 = 9 ∧ drn.drained 3 = true ∧
    ((after (exec .preemptDrainEnd drn)).node 3).map (fun y => y.stop) = some (.saving false) ∧
    (sav.node 3).map (fun y => (y.stop, y.faultVa)) = some (.saving true, none) ∧
    don.gangDone { node0 with st := .draining } = true ∧ ((after (exec .gangComplete don)).core 0).node = none ∧
    ((after (exec .gangComplete cnt)).adds.map fun a => (a.ctr, a.amount)) = [(.page 0x30008 0x60000008, 1)] ∧
    ((after (exec .gangFirstIssue dsp)).cluster 0 3).readP 5 = 0xFFFF ∧ (after (exec .paddockDecision { rdy with cycle := 161 })).nodes = rdy.nodes ∧
    ({ rdy with resetStep := 4 } : State).resetStep ≠ 5 ∧ dirty.clears.contains 0 = true ∧ (after (exec .scratchpadClear dirty)).byte scratchBase = 0 ∧
    SMap.get 0 (after (exec .scratchpadClear dirty)).owners 0 = 0 := by
  refine ⟨?_, ?_, ?_, ?_, ?_, ?_, ?_, ?_, ?_, ?_, ?_, ?_, ?_, ?_, ?_, ?_, ?_⟩ <;> decide +kernel

/-- Hard pre-emption, a quiet cluster with an event, also forced and in QSYNC, a watchdog that is due, an engine that hangs, and a debugger (R47, R51, R52, R67,
R68, R366). -/
theorem test_witness_HaltsAndHangs :
    let h : Hold := { kind := .blocking, instr := .nop, ea := 0, vals := [], since := 0, sync := false }
    let late (s : State) : State := { s with cycle := 2 ^ 40 }
    let pre : State := life { node0 with st := .preempting, reqAt := some 7 } [3, 7] id
    let ev (k : Nat) : State := late (life node0 [0, 0] fun k' => k'.setCluster 0 { Cluster.reset with act := .running, event := some (k, 5) })
    let dog : State := late (life node0 [3] fun k => k.setCluster 0 { Cluster.reset with act := .waiting h })
    let hang : State := late (life node0 [0] fun k => { still k with matQ := [qcmd (.mxzero 0)] })
    let dbg (f : Core → Core) : State := { life node0 [0] f with dbgen := true }
    let hlt : State := dbg fun k => { (k.setCluster 0 { Cluster.reset with act := .halted false }) with halted := true }
    (after (exec .hardPreemption pre)).me.event = some (0, 160) ∧ ((after (exec .hardPreemption pre)).node 3).map (fun y => y.stop) = some .hard ∧
    (ev 0).quiet 0 0 0 = true ∧ (ev 2).quiet 0 0 2 = true ∧ (after (exec .asyncEventTaken (ev 0))).me.act = .halted false ∧
    (after (exec .forcedQuietPoint (ev 2))).me.trapStat.getLsbD 3 = true ∧ (after (exec .asyncEventTaken (ev 2))).me.trapCause = 0x19 ∧
    ((after (exec .forcedQuietPoint (ev 1))).me.act, (after (exec .forcedQuietPoint (ev 1))).me.trapStat) = (.halted false, 8) ∧ (ev 1).quiet 0 0 1 = true ∧
    (let q : State := late (life node0 [0, 0] fun k => k.setCluster 0 { Cluster.reset with act := .waiting { h with kind := .qsync, instr := .qsync }, arrived := true, event := some (0, 5) })
     q.quiet 0 0 0 = true ∧ (after (exec .asyncEventTaken q)).me.arrived = false ∧ (after (exec .asyncEventTaken q)).me.act = .halted false) ∧
    dog.watchdogDue 3 = true ∧ (after (exec .watchdog dog)).me.event = some (2, 2 ^ 40) ∧
    hang.hangs 0 = true ∧ ((after (exec .enghang hang)).faults.map fun r => r.cause) = [0x13] ∧
    ((after (exec .debugHaltRequest (dbg id))).me.event = some (1, 160)) ∧ (hlt.core 0).debugged = true ∧ hlt.coreStop 0 = .none ∧
    (after (exec .debugResume hlt)).me.act = .running ∧
    (({ after (exec .debugStateWrite { hlt with ev := .debug 0 (.x 0 31) 5 }) with ev := .none } : State).cluster 0 0).readX 31 = 5 := by
  refine ⟨?_, ?_, ?_, ?_, ?_, ?_, ?_, ?_, ?_, ?_, ?_, ?_, ?_, ?_, ?_, ?_, ?_, ?_, ?_⟩ <;> decide +kernel

/-! ### Fabric, host and frames -/

/-- A state with one packet and the operands `ev`, in a torus of extent 4 by 1 by 1, as package 0. -/
def carries (ev : EvArgs) (p : Packet) : State := { mach .nop [] with ev := ev, packets := [p], torus := (3, 0, 0), cycle := 9 }

/-- An access of package 2 for package `dst`, die 2. -/
def access (dst : Nat) (op : PeerOp) : PeerReq := { id := 9, src := 2, die := 1, seq := 65535, dst := dst, dstDie := 2, aperture := 8, op := op, cls := 3 }

/-- A packet for package `dst`, at router 17 of die 1 on its way to router 3, or at the switch. -/
def packet (dst : Nat) (sw : Bool) : Packet :=
  { id := 4, req := access dst (.store 4 77), age := 4095, die := 1, owner := .none, escape := true, atSwitch := sw, place := 17, goal := 3,
    port := none }

/-- A packet in the mesh without and with a free slot; packets that are ejected from their own die's switch and from the way to it; one
that leaves for package 1, and one that leaves the mesh at its goal; one crossing to the next package; one
that arrives by a link, and by one that is down (R335-R338, R342). -/
theorem test_witness_Packets :
    let m := carries (.nats [4]) (packet 0 false)
    let n := carries (.nats [4]) { packet 0 false with escape := false }
    let go (p : Packet) : State := after (exec .switchCycle (carries .none p))
    let home : Packet := { packet 0 true with die := 2 }
    let out : Packet := { packet 1 false with place := 3 }
    let x (s : State) : List (Nat × Bool) := ((after (exec .meshRoute s)).packets.map fun q => (Claim.meshDist q.place q.goal, q.escape))
    x m = [(2, true)] ∧ x n = [(2, true)] ∧ x { n with meshFree := [(64 * 17 + 6, 1)] } = [(2, false)] ∧ Claim.meshDist 17 3 = 3 ∧
    (packet 0 false).vc = 6 ∧ minimalPorts 17 3 = [0, 3] ∧
    ((go home).packets, (go home).agenda.map fun d => (d.cycle, d.row)) = ([], [(9, .peerIngress)]) ∧
    ((go { home with die := 5, port := some 10 }).agenda.map fun d => d.args) = [.peer home.req] ∧
    (carries .none out).productive 1 0 = true ∧ (carries .none out).productive 3 0 = false ∧
    ((go (packet 1 true)).packets.map fun q => (q.atSwitch, q.port.isSome, q.age, q.escape)) = [(false, true, 4095, false)] ∧
    ((carries .none out).packets = [out] ∧ out.place = out.goal ∧ out.vc < 8 ∧ 0 < SMap.get 0 [(64 * 3 + 32 + 6, (1 : Nat))] (64 * out.place + 32 + out.vc)) ∧
    (carries .none out).extent 0 = 4 ∧ (go { out with port := some 1 }).packets = [] ∧
    ((after (exec .switchCycle { m with ev := .packet { out with port := some 1 } })).packets.map fun q => (q.atSwitch, q.port)) =
      [(false, none), (true, none)] ∧
    (after (exec .switchCycle { m with ev := .packet out, linksDown := [1] })).packets = m.packets := by
  refine ⟨?_, ?_, ?_, ?_, ?_, ?_, ?_, ?_, ?_, ?_, ?_, ?_, ?_, ?_, ?_, ?_⟩ <;> decide +kernel

/-- An access of package 0 that awaits its answer under number 9 and will read 4 bytes at peer address 2^51. -/
def asks : State :=
  let h : Hold := { kind := .blocking, instr := .nop, ea := 24, vals := [], since := 5, sync := false }
  { (mach .nop []).modMe (fun c => { c with act := .waiting h }) with
    torus := (3, 0, 0), cycle := 9, agenda := [{ cycle := 2 ^ 19 + 5, row := .peerTimeout, args := .nats [0, 2, 0, 0, 5, 0, 5, 9, 2 ^ 51] }] }

/-- An access that must wait for an earlier one; a store, a load and a counter add through a window and their answers; a store with no
window, one that would change ROM, and a load of it; answers, with bytes and as a failure, to an access that waits (R244, R256). -/
theorem test_witness_PeerAccesses :
    let at_ (r : PeerReq) (w : SMap Nat) : State := { mach .nop [] with ev := .peer r, windows := w, torus := (3, 0, 0), cycle := 9 }
    let st := access 0 (.store 4 77)
    let w := [(0, 0x5000 + 1)]
    let done (r : PeerReq) (w : SMap Nat) : State := after (exec .peerIngress (at_ r w))
    let ops (s : State) : List PeerOp := s.packets.map fun p => p.req.op
    let rom := [(0, 0xC0000000000 + 1)]
    let old : Packet := { packet 0 true with req := { st with seq := 65534 } }
    let ans (fail k v : Nat) : State := after (exec .peerIngress { asks with ev := .peer (access 0 (.answer 9 fail k v)) })
    ({ at_ st w with packets := [old] } : State).ingressWaits st = true ∧
    ((after (exec .peerIngress { at_ st w with packets := [old] })).agenda.map fun d => (d.cycle, d.row)) = [(10, .peerIngress)] ∧
    (at_ st w).ingressWaits st = false ∧ (at_ st w).ingress 8 true = some 0x5008 ∧ (done st w).bytes 0x5008 4 = [77, 0, 0, 0] ∧
    ((at_ st w).mediaRange 0x5008 4).Nodup ∧ ops (done st w) = [.answer 9 0 0 0] ∧ ((done st w).packets.map fun p => p.req.dst) = [2] ∧
    (at_ st w).inTorus 2 = true ∧ ops (done (access 0 (.load 4)) w) = [.answer 9 0 4 0] ∧
    ((done (access 0 (.ctrAdd 5)) w).adds.map fun x => (x.ctr, x.amount)) = [(.page 0x5008 0, 5)] ∧
    (at_ st rom).ingress 8 true = none ∧ (at_ st rom).ingress 8 false = some 0xC0000000008 ∧ (at_ st []).ingress 8 false = none ∧
    ops (done st []) = [.answer 9 cPROT 0 0] ∧ ops (done (access 0 (.load 4)) []) = [.answer 9 cPROT 0 0] ∧
    (asks.mediaRange (2 ^ 51) 4).Nodup ∧ (ans 0 4 77).readN (2 ^ 51) 4 = 77 ∧ (ans 0 4 77).agenda = [] ∧
    (ans cPROT 0 0).me.trapCause = BitVec.ofNat 64 cPROT := by
  refine ⟨?_, ?_, ?_, ?_, ?_, ?_, ?_, ?_, ?_, ?_, ?_, ?_, ?_, ?_, ?_, ?_, ?_, ?_, ?_, ?_⟩ <;> decide +kernel

/-- An access that has no answer after 2^19 cycles and one a cycle earlier; one of a mirrored page with the secondary left, and with it
lost; an LDQ and a posted store; a link that goes down, the last one, with an access that awaits its answer (R339, R341, R342). -/
theorem test_witness_LostPeers :
    let h : Hold := { kind := .blocking, instr := .nop, ea := 24, vals := [], since := 5, sync := false }
    let wait (cyc m : Nat) : State :=
      { (mach .nop []).modMe (fun c => { c with act := .waiting h }) with
        ev := .nats [0, 3, 0, 0, 5, m, 5, 9, 2 ^ 51], cycle := cyc, torus := (3, 0, 0) }
    let late := 5 + 2 ^ 19
    let pair (l : Bool) : SMap (List MirrorPair) := [(0, [{ primary := 3, secondary := 2, lostP := false, lostS := l }])]
    let go (s : State) : State := after (exec .peerTimeout s)
    let rsv : State := { (mach .nop []).modMyCore (fun k => { k with qent := [(0, { st := .reserved, data := 0, addr := 0 })] }) with
      ev := .nats [1, 3, 0, 0, 0, 0, 5, 9, 2 ^ 51], cycle := late }
    let pst : State := { (mach .nop []).modMe (fun c => { c with posted := [{ id := 4, ea := 8, fail := 0 }] }) with
      ev := .nats [2, 3, 0, 0, 4, 0, 5, 9, 2 ^ 51], cycle := late }
    let link : State := { asks with ev := .nats [0], linksDown := [1], packets := [{ packet 1 false with port := some 0 }, packet 1 true] }
    (wait late 0).routed = true ∧ (go (wait late 0)).me.trapCause = 0x14 ∧ (go (wait late 0)).flogCnt = 1 ∧
    ((go (wait (late - 1) 0)).agenda.map fun d => (d.cycle, d.row)) = [(late, .peerTimeout)] ∧ (go (wait (late - 1) 0)).me.trapCause = 0 ∧
    (wait late 1).myCore.vifn = 0 ∧ ((go { wait late 1 with mirrors := pair true }).me.trapCause) = 0x14 ∧
    (SMap.get [] (go { wait late 1 with mirrors := pair false }).mirrors 0).map (fun y => y.lostP) = [true] ∧
    ((go { wait late 1 with mirrors := pair false }).agenda.map fun d => d.row) = [.blockingCompletion] ∧
    ((go rsv).myCore.qEntry 0 0).st = .poisoned ∧ (go pst).me.mirrRep = some (0x14, 8) ∧
    ((after (exec .linkDown link)).linksDown, (after (exec .linkDown link)).packets.length) = ([1, 0], 1) ∧
    (after (exec .linkDown link)).routed = false ∧ ((after (exec .linkDown link)).agenda.map fun d => d.cycle) = [9] := by
  refine ⟨?_, ?_, ?_, ?_, ?_, ?_, ?_, ?_, ?_, ?_, ?_, ?_, ?_, ?_⟩ <;> decide +kernel

/-- An enabled ring of 16 entries based at 0. -/
def ring0 : Ring := { Ring.reset with qcfg := w64 (2 ^ 63 + 4 + 4 * 2 ^ 16) }

/-- A machine whose interface 0 has such a ring with the command in entry 0 under way, and a context of a gang. -/
def host (c : HostCmd) : State := { life node0 [] id with nodes := [], graphs := [], ev := .host c, rings := [(0, { ring0 with entry := some 0 })], roots := [(0, 0x10000001)] }

/-- A command of interface 0 with its operands. -/
def hcmd (a b c d e f : Word) : HostCmd := { vi := 0, tag := 7, op0 := a, op1 := b, op2 := c, op3 := d, op4 := e, op5 := f }

/-- Rings enabled well and badly, disabled and written while disabled; an entry found, a stale one, one out of time; a head; a completion
in memory and one that has no place there (R3, R348-R351). -/
theorem test_witness_HostRings :
    let off (b : Word) (q : Nat) : State := { host (hcmd 0 0 0 0 0 0) with ev := .nats [0, q], rings := [(0, { Ring.reset with sqBase := b })] }
    let q := 2 ^ 63 + 4 + 4 * 2 ^ 16
    let ent : State := { (host (hcmd 0 0 0 0 0 0)).writeN (hostAddr 0) 64 (6 + 5 * 2 ^ 32) with ev := .nats [0, 1], rings := [(0, ring0)] }
    let st : Ring := { ring0 with qcfg := ring0.qcfg + 2 ^ 32, reading := some 3, tail := 1 }
    let late (n : Nat) : State := { host (hcmd 0 0 0 0 0 0) with ev := .nats [0, 0], rings := [(0, st)], cycle := n }
    (Ring.reset.badConfig q = false ∧ ((after (exec .qcfgEnable (off 0 q))).ring 0).enabled = true) ∧
    (({ Ring.reset with sqBase := 8 } : Ring).badConfig q = true ∧ ((after (exec .qcfgEnable (off 8 q))).ring 0).reason = 2) ∧
    ((after (exec .sqNotify ent)).ring 0).entry = some 0 ∧ ((after (exec .sqNotify ent)).agenda.map fun d => d.row) = [.submit] ∧
    ((after (exec .stampRetry (late 9))).agenda.map fun d => d.cycle) = [1209] ∧
    ((after (exec .stampTimeout (late 12000003))).ring 0).reason = 1 ∧
    ((host (hcmd 0 0 0 0 0 0)).finishCmd (hcmd 0 0 0 0 0 0) 3 0 0 0).readN (hostAddr 0) 16 = 7 + 3 * 2 ^ 32 + 2 ^ 112 ∧
    ((host (hcmd 0 0 0 0 0 0)).mediaRange (hostAddr 0) 16).Nodup ∧
    (let s : State := { host (hcmd 0 0 0 0 0 0) with ev := .nats [0, 2 ^ 63 - 1] }
     ((after (exec .qcfgDisable s)).ring 0).qcfg = 4 + 4 * 2 ^ 16 ∧
     ((after (exec .qcfgDisable { s with rings := [] })).ring 0).qcfg = 0x3000F000F) ∧
    ent.underReset 0 = false ∧ memKind (hostAddr 0) = some .host ∧
    ((after (exec .eqheadWrite { ent with ev := .nats [0, 5000] })).ring 0).eqHead = 904 ∧
    (let s : State := { host (hcmd 0 0 0 0 0 0) with rings := [(0, { ring0 with entry := some 0, cqBase := 0x100000000000 })] }
     memKind (hostAddr 0x100000000000) ≠ some .host ∧ ((s.finishCmd (hcmd 0 0 0 0 0 0) 3 0 0 0).ring 0).reason = 3 ∧
     (s.finishCmd (hcmd 0 0 0 0 0 0) 3 0 0 0).mem = s.mem) := by
  refine ⟨⟨?_, ?_⟩, ⟨?_, ?_⟩, ?_, ?_, ?_, ?_, ?_, ?_, ?_, ?_, ?_, ?_, ?_⟩ <;> decide +kernel

/-- A host with device ranges that hold everything below 2^38. -/
def owner (c : HostCmd) : State := (host c).modVif 0 fun v => { v with ranges := [(0, (0, 2 ^ 38))] }

/-- The status of the completion in entry 0. -/
def status (o : Host.Outcome State Fault Refusal) : Nat := (after o).byte (hostAddr 4) |>.toNat

/-- CTXCREATE in and outside the interface's ranges, CTXDESTROY with a node, without, and after its invalidation; ITINREG; CREAD of a
counter page, and of one behind a window that is disabled (R302, R372, Table 25-4). -/
theorem test_witness_Contexts :
    let mk := hcmd 0 0x20000 1 0 0 0
    let it (d : Word) : HostCmd := hcmd 0 0x10000 0x10000 d 0 0
    let cr := hcmd 0 0x60000008 0 0 0 0
    let leafs (pa : Nat) : SMap (List TlbEntry) := [(unitFirmware, page 0x60000000 0x10000 (leaf pa 0 4096 - 256) [0])]
    let de := hcmd 0 0 0 0 0 0
    let made := after (exec .ctxcreate { owner mk with ctxs := [] })
    let gone : State := { host de with roots := [] }
    let busy : State := { owner de with nodes := [(3, some { node0 with graph := 2 })], graphs := [(2, some { vi := 0, ctx := 0, handle := 1, nodes := [3], doneCtr := 0, batch := none })] }
    let reads (pa : Nat) : State := { host cr with tlbs := leafs pa }
    (owner mk).ownRange 0 0x20000 4096 = true ∧ (host mk).ownRange 0 0x20000 4096 = false ∧ status (exec .ctxcreate (host mk)) = 3 ∧
    made.root 1 = some 0x20000 ∧ status (exec .ctxcreate (host (hcmd 0 0x20008 1 0 0 0))) = 1 ∧
    (busy.nodesOf 0 fun m => decide (m = 0)) ≠ [] ∧ status (exec .ctxdestroy busy) = 5 ∧
    (owner de).root 0 = some 0x10000000 ∧ ((after (exec .ctxdestroy (owner de))).agenda.any fun d => decide (d.row = .ctxdestroy)) = true ∧
    gone.root 0 = none ∧ gone.cmdTickets 0 = [] ∧ status (exec .ctxdestroy gone) = 0 ∧ ((after (exec .ctxdestroy gone)).ctx 0 0) = none ∧
    status (exec .itinreg (owner (it 0))) = 0 ∧ status (exec .itinreg (host (it 0))) = 3 ∧ status (exec .itinreg (owner (it 1))) = 1 ∧
    (let s : State := { owner (it 1) with ctxs := [(0, some { asid := 0, pool := 0, size := 1, used := [0], itin := [(0x10000, 0x10000)] })] }
     status (exec .itinreg s) = 0) ∧
    okB ((reads 0x30000).check unitFirmware 0 true .load 0x60000008) (fun e => pteC e.ent) = true ∧ (host cr).target 0x30008 false = some 0x30008 ∧
    status (exec .creadCommand (reads 0x30000)) = 0 ∧ okB ((reads (2 ^ 51)).check unitFirmware 0 true .load 0x60000008) (fun e => pteC e.ent) = true ∧
    (host cr).target (2 ^ 51 + 8) false = none ∧ status (exec .creadCommand (reads (2 ^ 51))) = 7 := by
  refine ⟨?_, ?_, ?_, ?_, ?_, ?_, ?_, ?_, ?_, ?_, ?_, ?_, ?_, ?_, ?_, ?_, ?_, ?_, ?_, ?_, ?_, ?_, ?_⟩ <;> decide +kernel

/-- A context with nodes for the 2 MiB at 0: root, two tables and the last one at 0x10003000. -/
def paged (c : HostCmd) : State :=
  ((((owner c).writeN 0x10000000 8 (1 + 0x10001 * 2 ^ 24)).writeN 0x10001000 8 (1 + 0x10002 * 2 ^ 24)).writeN 0x10002000 8 (1 + 0x10003 * 2 ^ 24))

/-- MAP of a 16 KiB counter page at 0x40000, and its removal. -/
def mapped16 (b : Word) : HostCmd := hcmd 0 0x40000 b 0x4000 0x111E0 0
def unmapped16 : HostCmd := hcmd 0 0x40000 0x4000 0 0 0

/-- MAP of a page whose table exists: the page translates at its last byte, by each replica, and PIN is set; one that waits for a move;
one refused and one that splits a page; UNMAP of the page, and of nothing, up to the status of each (R201, R247, R291, R373). -/
theorem test_witness_Mappings :
    let m := mapped16 0x80000
    let s := paged m
    let t := after (exec .map s)
    let x : Ctx := { asid := 0, pool := 0, size := 1, used := [0], itin := [] }
    let reps := (List.range 4).flatMap fun i => (List.range 8).map fun j => 0x10003200 + 8 * i + j
    let v : State := { t with ev := .host unmapped16, rings := s.rings }
    let w := after (exec .unmap v)
    let acked : State := { w with tickets := w.tickets.map fun k => { k with undropped := [], unacked := [], doneAt := some 160 }, cycle := 200 }
    let gib := hcmd 0 0x40000000 0 0x40000000 0x90180 0
    let sp := (owner gib).writeN 0x10000000 8 (1 + 0x10001 * 2 ^ 24)
    let moving : State := { s with dit := [(8, some { DitEntry.identity 8 with mov := true })] }
    let un := hcmd 0 0x40000 0x1000 0 0 0
    status (exec .map (paged (mapped16 0x81000))) = 1 ∧ status (exec .unmap (paged (hcmd 0 1 0x1000 0 0 0))) = 1 ∧
    (let z : State := { s with roots := [] }
     z.cmdCtx m = none ∧ status (exec .map z) = 3 ∧ status (exec .unmap { z with ev := .host un }) = 3) ∧
    s.cmdCtx m = some (0, x, 0x10000000) ∧ s.cmdTickets 0 = [] ∧ mapBad m = false ∧ mapSize m = some (0, 1) ∧ s.mapWaits m = false ∧
    s.mayMap 0 0x80000 0x4000 = true ∧ s.tablesOk 0x40000 0x44000 3 0x10000000 0 = true ∧ s.pagesIn 0x10000000 0x40000 0x44000 = [] ∧
    Claim.tableAt s 0x40000 3 3 0x10000000 = some 0x10003000 ∧ Claim.replicas s 0x40000 0x10003000 0 1 = reps ∧ reps.Nodup ∧
    (∀ a ∈ Claim.tablePath s 0x40000 3 3 0x10000000, ∀ y ∈ s.mediaRange a 8, y ∉ reps) ∧
    status (exec .map s) = 0 ∧ (t.walk 0 0x43FFF 3 0x10000000).map (fun e => (e.pa 0x43FFF, e.vbase, e.size)) = some (0x83FFF, 0x40000, 0x4000) ∧
    (t.lookup 5 0 0x40001).map (fun e => e.ent % 2 ^ 64) = some (7 + 0x11E0 + 0x80 * 2 ^ 24) ∧ (t.ditEntry 8).pin = true ∧
    moving.mapWaits m = true ∧ ((after (exec .map moving)).agenda.map fun d => d.row) = [.map] ∧
    (match sp.doMap gib 0 { x with pool := 0x10000000, size := 9, used := [0, 1] } 0x10000000 with
      | .ok (u, r) => decide (r = false ∧ u.nodes = []) | .error _ => false) = true ∧
    (match (owner m).doMap m 0 { x with pool := 0x10000000 } 0x10000000 with
      | .ok _ => false | .error e => decide (e = 2)) = true ∧
    (v.pagesIn 0x10000000 0x40000 0x44000).map (fun e => (e.vbase, e.size, pteK e.ent)) = [(0x40000, 0x4000, 1)] ∧
    v.tablesOk 0x40000 0x44000 3 0x10000000 0 = true ∧ Claim.tableAt v 0x40000 3 3 0x10000000 = some 0x10003000 ∧
    (w.walk 0 0x43FFF 3 0x10000000) = none ∧ (w.tickets.map fun k => (k.lo, k.len)) = [(0x40000, 0x4000)] ∧ (w.ring 0).result = 1 ∧
    acked.cmdTickets 0 ≠ [] ∧ acked.ticketsDone (acked.cmdTickets 0) = true ∧
    (after (exec .unmap acked)).readN (hostAddr 0) 16 / 2 ^ 64 % 2 ^ 48 = 1 ∧
    (owner un).pagesIn 0x10000000 0x40000 0x41000 = [] ∧ ((after (exec .unmap (owner un))).tickets.map fun k => k.len) = [0x1000] := by
  simp only []
  repeat' apply And.intro
  all_goals decide +kernel

/-- A host whose firmware reads the context's first page at physical 0x40000. -/
def firm (c : HostCmd) : State := { owner c with tlbs := [(unitFirmware, page 0 0x10000 (leaf 0x40000 0 0 - 256) [0, 1])] }

/-- A gather queue of at most one request with one of them. -/
def gather : Corral :=
  { ctx := 0, record := 2 ^ 472, base := 0, n := 1, buffers := 2, deadline := 1, pending := [{ ops := [1, 2, 3, 4, 5, 6], tag := 7, placed := 4 }], seq := 0, nextBuf := 0,
    busy := [], removing := false }

/-- Commands on work and resources with the conditions of their effects (Table 25-4): a graph of one node at 64 with its record at 128. -/
theorem test_witness_HostWork :
    let sub := hcmd 0 64 0 0 0 0
    let graph : State := ((firm sub).writeN 0x40040 32 (128 + 2 ^ 128)).writeN 0x40080 64 (2 ^ 472)
    let cor := hcmd 0 3 0x80 0x1000 (2 + 5 * 2 ^ 32) 0
    let queue (c : HostCmd) (q : Corral) : State := (firm c).modVif 0 fun v => { v with corrals := [(3, some q)] }
    let enq := hcmd (3 * 65536) 0 0 0 0 0
    let bat : State := { queue enq gather with ev := .nats [0, 3] }
    let grp := hcmd 0 0 1 2 0x100 0
    (firm (hcmd 0 0x20000 0 0 0 0)).cmdCtx sub = some (0, { asid := 0, pool := 0, size := 1, used := [0], itin := [] }, 0x10000000) ∧
    (match (firm sub).checkGraph 0 0 0x20000 with | .error e => decide (e = (7, 0)) | .ok _ => false) = true ∧
    (match graph.checkGraph 0 0 64 with | .error _ => false | .ok p => decide (p.recs = [2 ^ 472])) = true ∧
    ((after (exec .submit graph)).liveNodes.map fun e => e.2.st) = [.ready] ∧
    ((firm cor).fwRead 0 0x80 64).isSome = true ∧ ((SMap.get none ((after (exec .corral (firm cor))).vif 0).corrals 3).map fun q => q.deadline) = some 5 ∧
    ((SMap.get none ((after (exec .enqueue (queue enq gather))).vif 0).corrals 3).map fun q => q.pending.length) = some 2 ∧
    (gather.freeBuf = some 0 ∧ gather.forms 160 = true ∧ (bat.ctx 0 0).isSome = true) ∧
    (bat.fwWrite 0 0 (batchBytes gather 3 160 gather.pending)).isSome = true ∧
    ((SMap.get none ((after (exec .batchForm { bat with ctxs := [] })).vif 0).corrals 3).map fun q => (q.pending.length, q.seq)) = some (0, 1) ∧
    ((after (exec .batchForm bat)).liveNodes.map fun e => e.2.st) = [.ready] ∧
    (status (exec .assign (firm (hcmd 0 1 0 0 0 0))) = 1 ∧ (((after (exec .assign (firm (hcmd 5 1 255 0 0 0)))).vif 5).weight = 255)) ∧
    (memKind (hostAddr (0x100 + 511)) = some .host ∧ ((firm grp).writeN (hostAddr 0x100) 1 3).readN (hostAddr 0x100) 512 = 3) ∧
    ((SMap.get [] (after (exec .fabcfgMirror (firm (hcmd 0 1 1 2 0 0)))).mirrors 0).map fun m => (m.primary, m.secondary)) = [(1, 2)] := by
  refine ⟨?_, ?_, ?_, ?_, ?_, ?_, ?_, ⟨?_, ?_, ?_⟩, ?_, ?_, ?_, ⟨?_, ?_⟩, ⟨?_, ?_⟩, ?_⟩ <;> decide +kernel

/-- Resource commands: a reset of another interface, with what it leaves, and one refused; resources given by an interface that may not;
a core that passes from no other interface; a weight and a watchdog; a group; a seventeenth mirror pair; a full queue (R340, R345, R358). -/
theorem test_witness_Resources :
    let five (a b c d : Word) : HostCmd := { hcmd a b c d 0 0 with vi := 5 }
    let base (c : HostCmd) : State := { firm c with ctxs := [], rings := [(0, { ring0 with entry := some 0 }), (5, { ring0 with cqBase := 0x1000, entry := some 0 })] }
    let gone := after (exec .vireset { base (five 0 0 0 0) with groups := [(4096 * 5 + 1, some { root := 0, members := 1, ctx := 0 })] })
    let code (s : State) : Nat := (s.byte (hostAddr 0x1004)).toNat
    let give := firm (hcmd 5 0 8 0 0 0)
    let grp : State := (firm (hcmd 0 0 1 2 0x100 0)).writeN (hostAddr 0x100) 1 3
    let y : Corral := { gather with pending := List.replicate 65536 { ops := [], tag := 7, placed := 4 } }
    (base (five 0 0 0 0)).tickets = [] ∧ (base (five 0 0 0 0)).nodes = [] ∧ ((base (five 0 0 0 0)).resetVif 5).vifQuiet 5 = true ∧
    ((gone.ring 5).enabled, (gone.ring 5).entry, (SMap.get none gone.groups (4096 * 5 + 1)).isSome) = (false, none, false) ∧
    code (after (exec .vireset (base (five 1 0 0 0)))) = 1 ∧ code (after (exec .assign (base (five 0 1 1 0)))) = 3 ∧
    give.assignCores 5 8 = 0 ∧ give.passing 5 8 = [] ∧ ((after (exec .assign give)).vif 5).cores = 8 ∧
    SMap.get 0 (after (exec .assign give)).owners 3 = 6 ∧ ((after (exec .assign (firm (hcmd 5 6 20 0 0 0)))).vif 5).watchdog = 20 ∧
    (SMap.get none (after (exec .fabcfgGroup grp)).groups 1).map (fun g => (g.root, g.members)) = some (2, 3) ∧
    status (exec .fabcfgMirror { firm (hcmd 0 1 1 2 0 0) with
      mirrors := [(0, (List.range 16).map fun i => { primary := 10 + i, secondary := 9, lostP := false, lostS := false })] }) = 2 ∧
    65536 ≤ y.pending.length := by
  refine ⟨?_, ?_, ?_, ?_, ?_, ?_, ?_, ?_, ?_, ?_, ?_, ?_, ?_, ?_⟩ <;> first | (simp only [List.length_replicate, Nat.le_refl]; done) | decide +kernel

/-- The steps of a reset, the firmware's settings of the torus and of a window, a die that heats up, and registers (R359-R364). -/
theorem test_witness_Management :
    let s (ev : List Nat) : State := { State.reset with ev := .nats ev, resetStep := 1, cycle := 1200000, temps := [(2, 95)] }
    let up (ev : List Nat) : State := { s ev with resetStep := 5 }
    let three : State := { (s [3]).writeN scratchBase 1 7 with resetStep := 2 }
    (after (exec .powerOnReset (s [2]))).resetStep = 2 ∧ (after (exec .powerOnReset (s [0]))).cycle = 0 ∧
    (after (exec .rstctlReset { s [] with ev := .none })).resetStep = 1 ∧
    ((after (exec .powerOnReset three)).byte scratchBase, (after (exec .powerOnReset three)).resetStep) = (0, 3) ∧
    ((after (exec .powerOnReset { s [5] with resetStep := 4 })).agenda, (after (exec .powerOnReset { s [5] with resetStep := 4 })).resetStep) = ([], 5) ∧
    (let t := after (exec .powerOnReset (up [6, 16, 1, 2, 15, 0, 1]))
     (t.torus, t.pkg) = ((15, 0, 1), 15 + 256)) ∧
    SMap.get 0 (after (exec .powerOnReset (up [7, 7, 2 ^ 36 + 1]))).windows 7 = 2 ^ 36 + 1 ∧
    (after (exec .configurationRequest (up []))).cfgReply = some true ∧
    SMap.get 0 (after (exec .thermalUpdate (s [2]))).thermal 2 = 1 ∧ (after (exec .thermalTrip (s [2, 110]))).power = false ∧
    (after (exec .thermalTrip (s [2, 109]))).power = true ∧ (after (exec .dbgenWrite (s [1]))).dbgen = true ∧
    (∀ e ∈ (s [0]).cores, e.2.halted = false) ∧ (after (exec .dbgenWrite { s [0] with dbgen := true })).dbgen = false ∧
    ((after (exec .registerWrite (s [3, 0, 4096]))).ring 3).sqBase = 4096 ∧ (after (exec .registerWrite (s [0, 0x8018, 1500]))).pwrCap = 1500 := by
  decide +kernel

/-- An instruction on registers that completes, and the same at the end of a loop (R139). -/
theorem test_witness_RegisterFrame :
    let i : Instr := .add { rd := 4, ra := 1, rb := 2 }
    let s := (mach i regs).modMe fun c => { c with ldepth := 1, lend := [(0, 0)], lstart := [(0, 0x80)], lcount := [(0, 2)] }
    Claim.registerOnly i = true ∧ (mach i regs).issues i ∧ (after (exec i (mach i regs))).faults = (mach i regs).faults ∧
    s.issues i ∧ (after (exec i s)).faults = s.faults ∧ (after (exec i s)).me.pc = 0x80 := by
  simp only [State.issues]; decide +kernel

/-- A tile write that completes, with flags (R63). -/
theorem test_witness_TileWrites :
    (match tileOp 4 1 0 .rne (some 2) (fun _ _ _ => ([7], 4)) (mach .nop []) with
     | .done t => decide (t.myCore.inflight.length = 2 ∧ t.me.latch = some 2)
     | _ => false) = true := by decide +kernel

/-- A store that completes in the own scratchpad, from X2 = -3 to the address in X1 (R131). -/
theorem test_witness_StoreFrame :
    let i : Instr := .stW { rd := 2, ra := 1, imm := 4 }
    let s := mach i [(1, 0x40000000), (2, BitVec.ofInt 64 (-3))]
    s.issues i ∧ okB (s.fresh.access .store 4 0x40000004) (fun r => !pteC r.2.1.ent && decide (pteKind r.2.1.ent ≠ 3) && r.1.own r.2.2) = true ∧
    (after (exec i s)).readN (scratchBase + 4) 8 = 0xFFFFFFFD := by
  simp only [State.issues]; decide +kernel

/-- A well-formed command, and words and bytes of an instruction that decode. -/
theorem test_witness_CommandEncodeDecode_DecodesExactly :
    (cmd true 511 true 3 (.mxrun 3 false true 8)).wf = true ∧ Claim.encodable true 0 .nop ∧
    (match decode (encode true 0 .nop) with | .ok i => decide (i = .nop) | .error _ => false) = true := by
  simp only [Claim.encodable, Claim.scopeListed]; decide +kernel

/-- A privileged instruction in user mode, and software traps that issue. -/
theorem test_witness_PrivilegedTraps_SoftwareTraps :
    Instr.privileged .tret = true ∧ (mach .tret []).me.super = false ∧ (mach .trap []).issues .trap ∧ (mach .bkpt []).issues .bkpt := by
  simp only [State.issues]; decide +kernel

/-- A distribution write with S clear: eight points for each element (R270). -/
theorem test_witness_DistributionWrites :
    (mach .nop []).irSync = false ∧ (∀ j : Nat, ((fun _ => (List.replicate 8 (0, 0), 0)) j : List Point × FFlags).1.length = 8) :=
  ⟨by decide +kernel, fun _ => rfl⟩

/-! ### Further witnesses -/

/-- A machine in a torus of four packages about to issue `i`, whose one cached page at 0x7000 has the leaf `e`. -/
def look (e : Nat) (i : Instr) (x : SMap Word) : State :=
  { mach i x with tlbs := [(unitCore 0, [{ asid := 0, vbase := 0x7000, size := 4096, ent := e, part := 7 }])], torus := (3, 0, 0) }

/-- A state whose cluster has held `i` with `vals` since cycle 3, at its completion. -/
def heldAs (i : Instr) (vals : List Nat) (s : State) : State :=
  { s.modMe (fun c => { c with act := .waiting { kind := .blocking, instr := i, ea := 24, vals := vals, since := 3, sync := false } }) with ev := .nats [0, 0, 3] }

/-- The results that the completion puts in flight. -/
def lands (s : State) : List Write := (after (exec .blockingCompletion s)).myCore.inflight.map fun l => l.w

/-- That the completion lets the cluster go on. -/
def goesOn (s : State) : Bool := decide ((after (exec .blockingCompletion s)).me.act = .running)

/-- A fetch from a page without X, in a mode that may not, and from no page; a store that waits in the DT buffer, and one to HBM4E and
one through a window that is disabled. -/
theorem test_witness_FetchAndStoreFrame :
    let s := mach .nop []
    let i : Instr := .stW { rd := 2, ra := 1, imm := 0 }
    (s.lookup 0 0 0x78000000).map (fun e => pteX e.ent) = some false ∧ (s.lookup 0 0 0x100).map (fun e => pteU e.ent) = some true ∧
    (match (machS .nop []).fetch 0 0 0x100 with | .bad _ k _ _ => decide (k = cPROT) | _ => false) = true ∧
    (s.lookup 0 0 0x80000000).isSome = false ∧
    (mach i [(1, 0x50000000)]).issues i ∧ (after (exec i (mach i [(1, 0x50000000)]))).me.dtBuf.length = 1 ∧
    okB ((mach i [(1, 8)]).dest (leafOf (leaf 0x40000 0 0)) 0x40008 false) (fun l => decide (l = [0x40008])) = true ∧
    (look (leaf (2 ^ 51) 0 0) i [(1, 0x7000)]).issues i ∧
    (match (look (leaf (2 ^ 51) 0 0) i []).dest (leafOf (leaf (2 ^ 51) 0 0)) (2 ^ 51) false with | .error c => decide (c = cPROT) | .ok _ => false) = true := by
  simp only [State.issues]; decide +kernel

/-- CADD of a page in device memory, of one in another package and of one behind a disabled window; CREAD of a member's slot and of a page
and their completions (R143, R145, R244). -/
theorem test_witness_CounterForms :
    let i : Instr := .caddPage { xk := 4, ra := 1 }
    let at_ (pa : Nat) : State := look (leaf pa 0 4096) i [(4, 0x7008), (1, 7)]
    let put (pa : Nat) : State := after (exec i (at_ pa))
    let page (s : State) (f : State → Nat → Bool) : Bool := match s.fresh.landMine.pageLeaf .store 0x7008 with | .ok (u, _, pa) => f u pa | .error _ => false
    let rr : CntRemote := { k := 4, ra := 1, rb := 2 }
    let rp : CntPage := { xk := 4, ra := 1 }
    let slot : State := machF .nop [] fun k => { k with k := [(4, 9)] }
    (at_ 0x30000).issues i ∧ page (at_ 0x30000) (fun u pa => decide (u.target pa true = some 0x30008)) = true ∧ (put 0x30000).readN 0x30008 8 = 7 ∧
    page (at_ (2 ^ 51 + 2 ^ 39)) (fun u pa => (u.target pa true).isSome) = true ∧ (put (2 ^ 51 + 2 ^ 39)).me.posted.length = 1 ∧
    page (at_ (2 ^ 51)) (fun u pa => (u.target pa true).isNone) = true ∧ (put (2 ^ 51)).me.posted.length = 1 ∧
    (gang (.creadRemote rr) [(2, 0)] node0 id).issues (.creadRemote rr) ∧
    okB ((gang (.creadRemote rr) [(2, 0)] node0 id).rankSlot 0 4) (fun c => decide (c = .slot 0 4)) = true ∧
    (look (leaf 0x30000 0 4096) (.creadPage rp) [(4, 0x7008)]).issues (.creadPage rp) ∧
    lands (heldAs (.creadRemote rr) [0, 0, 4, 1] slot) = [.x 1 9] ∧ goesOn (heldAs (.creadRemote rr) [0, 0, 4, 1] slot) = true ∧
    lands (heldAs (.creadPage rp) [1, 0x30008, 0, 1, 0] ((put 0x30000).modMyCore fun k => { k with inflight := [] })) = [.x 1 7] := by
  simp only [State.issues]; decide +kernel

/-- Two CRSTs of one slot and one of a page at the end of their cycle, a waiter that the CRST ends, and a CWAIT of a page that waits (R144,
R146). -/
theorem test_witness_CounterResets :
    let s : State := { machF .nop [] (fun k => { k with k := [(4, 9)] }) with crsts := [(.slot 0 4, 5), (.slot 0 5, 1), (.slot 0 4, 6), (.page 0x30008 0, 8)] }
    let h : Hold := { kind := .cwait (.slot 0 4), instr := .cwait { k := 4, ra := 1, rb := 0 }, ea := 0, vals := [77, 0, 1], since := 0, sync := false }
    let w : State := { (mach .nop []).modMe (fun c => { c with act := .waiting h }) with crsts := [(.slot 0 4, 6)] }
    let p : CWaitPage := { xk := 4, ra := 1, rb := 0 }
    let q := look (leaf 0x30000 0 4096) (.cwaitPage p) [(4, 0x7008), (1, 1)]
    (s.closeCycle.ctrGet (.slot 0 4), s.applyCrsts.ctrGet (.page 0x30008 0)) = (6, 8) ∧ s.closeCycle.crsts = [] ∧ (s.mediaRange 0x30008 8).Nodup ∧
    w.setCrsts.resetWaiters (.slot 0 4) = [(0, 0)] ∧ (w.applyCrsts.myCore.inflight.map fun l => l.w) = [.x 1 2] ∧
    q.issues (.cwaitPage p) ∧ q.me.report = none ∧ okB (q.fresh.pageCtr .load 0x7008) (fun r => decide (r.1.ctrGet r.2.1 = 0)) = true ∧
    (after (exec (.cwaitPage p) q)).me.hold?.map (fun h => h.vals) = some [1, 0, 1] := by
  simp only [State.issues]; decide +kernel

/-- Atomics on device memory, without and with a result, on another core's scratchpad, on host memory and behind a disabled window; their
completions and the arrival of messages (R126, R149, R150, R165, R244). -/
theorem test_witness_AtomicsElsewhere :
    let i (rd : BitVec 5) : Instr := .aadd { rd := rd, ra := 1, rb := 2, dbl := false }
    let x : SMap Word := [(1, 0x7008), (2, 5)]
    let at_ (pa : Nat) (rd : BitVec 5) : State := look (leaf pa 0 0) (i rd) x
    let go (pa : Nat) (rd : BitVec 5) : State := after (exec (i rd) (at_ pa rd))
    let other := scratchBase + scratchSize
    let ok (pa : Nat) (f : State → Nat → Bool) : Bool := okB ((at_ pa 0).fresh.access .atomic 4 0x7008) fun r => f (r.1.reach r.2.2 4 .update) r.2.2
    let vals (pa : Nat) : List Nat := [2, 0, 0, 3, pa, 0, 4, 5, 0, 4, 0, 9, 0x7008, leaf pa 0 0]
    let wait (pa : Nat) : State := heldAs (i 4) (vals pa) ((at_ pa 4).writeN 0x30008 4 7)
    let msg (rd : Nat) : State := { (at_ other 4).writeN (other + 8) 4 7 with ev := .nats [0, 0, 3, other + 8, 0, 4, 5, 0, rd, 0, 9, 0x7008, leaf other 0 0] }
    (at_ 0x30000 4).issues (i 4) ∧ ok 0x30000 (fun u pa => (scratchCore pa).isNone && decide (u.target pa true = some 0x30008)) = true ∧
    (go 0x30000 4).me.hold?.map (fun h => h.vals.length) = some 14 ∧ (go 0x30000 0).readN 0x30008 4 = 5 ∧ (go 0x30000 0).me.pc = 4 ∧
    ok (2 ^ 51) (fun u pa => (scratchCore pa).isNone && (u.target pa true).isNone) = true ∧ (go (2 ^ 51) 0).me.posted.length = 1 ∧
    ok other (fun u pa => decide (scratchCore pa = some 1) && !u.own pa) = true ∧ ((go other 0).agenda.map fun d => d.row) = [.atomicMessageArrival] ∧
    (go other 4).me.hold?.map (fun h => h.vals) = some [1] ∧
    memKind 0x100000000008 = some .host ∧ (go 0x100000000000 0).me.trapCause = BitVec.ofNat 64 cPROT ∧
    lands (heldAs (i 4) [0, 7, 4] (at_ 0x30000 4)) = [.x 4 7] ∧ lands (wait 0x30008) = [.x 4 7] ∧
    (after (exec .blockingCompletion (wait 0x30008))).readN 0x30008 4 = 12 ∧ (wait (2 ^ 51)).target (2 ^ 51) true = none ∧
    (after (exec .blockingCompletion (wait (2 ^ 51)))).me.trapCause = BitVec.ofNat 64 cPROT ∧
    (after (exec .atomicMessageArrival (msg 0))).readN (other + 8) 4 = 12 ∧
    ((after (exec .atomicMessageArrival (heldAs (i 4) [1] (msg 4) |> fun s => { s with ev := (msg 4).ev }))).myCore.inflight.map fun l => l.w) = [.x 4 7] := by
  simp only [State.issues]; decide +kernel

/-- A gang of two cores at its boundary, with a DT store in each and a cluster in QSYNC; QSYNC that finds the gang there at its completion;
FENCEs that wait and that end (R147, R148). -/
theorem test_witness_Boundary :
    let d (v : Byte) : DtStore := { va := 0, pa := 0x30000, size := 1, cells := [(0, v)] }
    let q : Hold := { kind := .qsync, instr := .qsync, ea := 0, vals := [], since := 3, sync := false }
    let out (f : Cluster → Cluster) (k : Core) : Core :=
      { k with node := some 3, cl := (0, f { Cluster.reset with act := .exited }) :: [1, 2, 3].map fun c => (c, { Cluster.reset with act := .exited }) }
    let s : State := { gang .nop [] { node0 with cores := [0, 1] } id with
      cores := [(0, out (fun c => { c with act := .waiting q, arrived := true, dtBuf := [d 1] }) Core.reset), (1, out (fun c => { c with dtBuf := [d 2] }) Core.reset)], ev := .nats [0, 0, 3] }
    let t := s.crossBoundary 0
    let f (fl sc : BitVec 3) : Instr := .fence { flavour := fl.truncate 2, scope := sc }
    let fh (fl sc : BitVec 3) (g : Cluster → Cluster) (ag : List Due) : State := { heldAs (f fl sc) [] ((mach .nop []).modMe g) with agenda := ag }
    let fill : Due := { cycle := 9, row := .ldqFill, args := .nats [0, 0, 0, 0, 0, 0, 1, 0] }
    let at_ : Due := { cycle := 9, row := .atomicMessageArrival, args := .nats [0, 0, 3, 0, 0, 4, 0, 0, 0, 0, 9, 0, 0] }
    let st (c : Cluster) : Cluster := { c with posted := [{ id := 1, ea := 8, fail := 0 }] }
    s.gangOf 0 = [0, 1] ∧ s.atBoundary 0 = true ∧ t.byte 0x30000 = 2 ∧ (t.cluster 1 0).dtBuf = [] ∧ (t.cluster 0 0).act = .running ∧
    goesOn s = true ∧ goesOn (fh 1 0 id [fill]) = false ∧ goesOn (fh 1 0 id [at_]) = false ∧ goesOn (fh 2 0 id [fill]) = true ∧ goesOn (fh 1 0 st []) = true ∧
    goesOn (fh 1 4 st []) = false ∧ goesOn (fh 2 3 st []) = false ∧ goesOn (fh 3 4 id []) = true ∧
    (after (exec .blockingCompletion (fh 3 4 (fun c => { c with mirrRep := some (9, 8) }) []))).me.trapCause = 9 ∧
    (mach (f 3 3) []).issues (f 3 3) ∧ ((after (exec (f 2 3) ((mach (f 2 3) []).modMe st))).me.hold?.map fun h => h.kind) = some .fence := by
  simp only [State.issues]; decide +kernel

/-- Four clusters that present `i`, but cluster 0 that presents `j`, on a core whose locks are `l`. -/
def mixed (j i : Instr) (l : SMap Nat) : State :=
  let h (x : Instr) : Hold := { kind := .rendezvous, instr := x, ea := 0, vals := [encode true 0 x], since := 0, sync := true }
  { (machF .nop [] fun k => { k with locks := l, cl := (List.range 4).map fun c =>
      (c, { Cluster.reset with act := .waiting (h (if c = 0 then j else i)) }) }) with ev := .nats [0] }

/-- A row-axis word that issues, with its destination free and locked; four clusters that present it so, and one whose others present a
word without a row axis. -/
theorem test_witness_RowAxisLocked :
    let i : Instr := .vbcw { d := 1, a := 2, n := 3, m := plain .f32 }
    let s (l : SMap Nat) : State := machF i [] fun k => { k with locks := l }
    let w := encode true 0 i
    let v := encode true 0 .nop
    (s []).me.loopEndTrap i (wordLen ((s []).ir % 2 ^ 32)) = false ∧ (s []).irSync = false ∧
    (s []).myCore.locked (Claim.rowDest i) = false ∧ (s [(1, 2)]).myCore.locked (Claim.rowDest i) = true ∧ (after (exec i (s []))).me.pc = 8 ∧
    (after (exec i (s [(1, 2)]))).me.hold?.map (fun h => h.kind) = some (.lock 1) ∧
    (mixed i i [(1, 2)]).presented 0 = [(0, w, i), (1, w, i), (2, w, i), (3, w, i)] ∧ ((mixed i i [(1, 2)]).core 0).locked (Claim.rowDest i) = true ∧
    (after (exec .wideWordIssue (mixed i i [(1, 2)]))).me.pc = 0 ∧
    (mixed i .nop []).presented 0 = [(0, w, i), (1, v, .nop), (2, v, .nop), (3, v, .nop)] ∧ v ≠ w ∧ Instr.rowAxis .nop = false ∧
    Instr.isDist .nop = false ∧ (after (exec .wideWordIssue (mixed i .nop []))).me.trapCause = BitVec.ofNat 64 cILLFLD := by
  decide +kernel

/-- VLD whose segments lie in HBM4E, and its completion, which reads them; VLDG and its completion; VQPUSH; a store whose second access is
to a counter page and one whose third fails its checks besides (R187-R190). -/
theorem test_witness_TileMemoryElsewhere :
    let o : TMem := { d := 1, a := 1, pitch := 1, pred := 0 }
    let g : TIdx := { d := 1, a := 1, b := 2, pred := 0 }
    let q : TQueue := { d := 2, q := 1, g := 0, pred := 1 }
    let s (i : Instr) (a : Word) : State := mach i [(1, a)]
    let p : Piece := { key := 0, ea := 64, pa := 0x40040, ent := leaf 0x40000 0 0 }
    let m : State := (s .nop 0).setBytes 0x40044 [7]
    let t := after (exec (.vqpush q) (tiles (.vqpush q)))
    okB ((s (.vld o) 64).fresh.checkAll .load 64 ((List.range 16).map fun r => (r, segAddr (s (.vld o) 64) o r)))
      (fun r => r.2.any fun p => !r.1.own p.pa) = true ∧
    ((after (exec (.vld o) (s (.vld o) 64))).me.hold?.map fun h => (h.vals.take 5)) = some [0xFFFF, 0, 64, 0x40040, leaf 0x40000 0 0] ∧
    okB ((heldAs (.vld o) (2 :: Piece.pack [p]) m).dest p.leaf p.pa true) (fun l => decide (l = [0x40040])) = true ∧
    lands (heldAs (.vld o) (2 :: Piece.pack [p]) m) = [.tile [(tileKey 1 0 1, 7)]] ∧ goesOn (heldAs (.vld o) (2 :: Piece.pack [p]) m) = true ∧
    okB ((s (.vldg g) 64).fresh.checkAll .load 4 (gatherAddrs (s (.vldg g) 64) g)) (fun r => decide (r.2.length = 256)) = true ∧
    lands (heldAs (.vldg g) (Piece.pack [{ p with key := 65, pa := 0x40044 }]) m) = [.tile [(1024 + 65, 7)]] ∧
    (tiles (.vqpush q)).issues (.vqpush q) ∧ (tiles (.vqpush q)).myCore.qCount 1 ≠ 8 ∧
    (t.myCore.inflight.map fun l => l.w) = [.queue 1 0 (0x3FC00000 * 2 ^ 32)] ∧
    okB ((mach .nop []).checkEach .store 64 [(0, 0x40000000), (1, 0x60000000)]) (fun r => decide ((r.2.map fun p => pteC p.ent) = [false, true])) = true ∧
    errB ((mach .nop []).checkAll .store 64 [(0, 0x40000000), (1, 0x60000000)]) (cCNTSTORE, 0x60000000) = true ∧
    errB ((mach .nop []).checkAll .store 64 [(0, 0x40000000), (1, 0x60000000), (2, 0x80000000)]) (cXLATE, 0x80000000) = true := by
  simp only [State.issues]; decide +kernel

/-- ILD with its record in HBM4E; the completions of ILD, SLD and CBLD, and one whose window is disabled (R191, R244). -/
theorem test_witness_RecordsComplete :
    let r : RecMem := { d := 5, a := 1 }
    let i : Instr := .ild r
    let p (pa : Nat) : Piece := { key := 0, ea := 128, pa := pa, ent := leaf pa 0 0 }
    let m : State := (mach .nop []).setBytes 0x40082 [9]
    let cb : List Piece := (List.range 16).map fun j => { p (0x40040 + 64 * j) with key := j }
    let bad := heldAs i (Piece.pack [p (2 ^ 51)]) (look (leaf (2 ^ 51) 0 0) .nop [])
    (mach i [(1, 128)]).issues i ∧ okB ((mach i [(1, 128)]).fresh.checkAll .load 128 [(0, 128)]) (fun u => u.2.any fun p => !u.1.own p.pa) = true ∧
    ((after (exec i (mach i [(1, 128)]))).me.hold?.map fun h => h.vals) = some (Piece.pack [{ p 0x40080 with ent := leaf 0x40000 0 0 }]) ∧
    okB ((heldAs i (Piece.pack [p 0x40080]) m).dest (p 0x40080).leaf 0x40080 true) (fun l => decide (l = [0x40080])) = true ∧
    lands (heldAs i (Piece.pack [p 0x40080]) m) = [.ireg 5 0x90000] ∧ lands (heldAs (.sld r) (Piece.pack [p 0x40080]) m) = [.sreg 5 0x90000] ∧
    (cb.all fun p => okB ((heldAs (.cbld { a := 1 }) (Piece.pack cb) m).dest p.leaf p.pa true) fun l => decide (l = [p.pa])) = true ∧
    (lands (heldAs (.cbld { a := 1 }) (Piece.pack cb) m)).map (fun w => match w with | .codebook l => (l.length, l.getD 66 (0, 0)) | _ => (0, (0, 0))) =
      [(1024, (66, 9))] ∧
    (match bad.dest (p (2 ^ 51)).leaf (2 ^ 51) true with | .error c => decide (c = cPROT) | .ok _ => false) = true ∧
    (after (exec .blockingCompletion bad)).me.trapCause = BitVec.ofNat 64 cPROT ∧ (after (exec .blockingCompletion bad)).me.trapInfo = 128 := by
  simp only [State.issues]; decide +kernel

/-- A sweep whose first element of two is stored and goes on, whose only one completes, and whose load fails (R195-R198); the
sweep copies -1.5. -/
theorem test_witness_SweepElements :
    let o : SwpOps := sw 6 0 0 .rne .f32
    let d (n : Nat) : Nat := (iter 0x40001000 n).toNat
    let s (n src : Nat) : State := heldAs (.swp o) (swpVals (d n) [(iter src n).toNat] [0, 0, 0, 0, 0, 0] 0) ((mach .nop []).writeN scratchBase 4 0xBFC00000)
    let go (n src : Nat) : State := after (exec .blockingCompletion (s n src))
    (swpSources o).length = 1 ∧ okB (swpLoads 4 [0, 0, 0, 0, 0, 0] [(iter 0x40000000 1).toNat] (s 1 0x40000000)) (fun r => decide (r.2 = [0xBFC00000])) = true ∧
    okB ((s 1 0x40000000).access .store 4 (dstAddr (d 1) [0, 0, 0, 0, 0, 0])) (fun r => r.1.own r.2.2 && !pteC r.2.1.ent && !pteM r.2.1.ent &&
      decide (pteKind r.2.1.ent ≠ 3)) = true ∧
    nextElem [0] [2] = some [1] ∧ nextElem [0] [1] = none ∧ (go 2 0x40000000).readN (scratchBase + 0x1000) 4 = 0xBFC00000 ∧
    ((go 2 0x40000000).me.hold?.map fun h => h.vals) = some (swpVals (d 2) [(iter 0x40000000 2).toNat] [1, 0, 0, 0, 0, 0] 0) ∧
    goesOn (s 1 0x40000000) = true ∧ lands (s 1 0x40000000) = [.iidx 1 [0, 0, 0, 0, 0, 0]] ∧
    errB (swpLoads 4 [0, 0, 0, 0, 0, 0] [(iter 0x80000000 1).toNat] (s 1 0x80000000)) (cXLATE, 0x80000000) = true ∧
    (go 1 0x80000000).me.trapCause = BitVec.ofNat 64 cXLATE ∧ lands (s 1 0x80000000) = [.iidx 1 [0]] := by
  decide +kernel

/-- A distribution write with S clear and set: one element of each cluster's columns, whose flags both clusters take (R270-R274). -/
theorem test_witness_DistributionForms :
    let f (j : Nat) : List Point × FFlags := (List.replicate 8 (0, 0), if j = 16 then 1 else 0)
    let s (sync : Bool) : State :=
      { machF .nop [] fun k => { k with tagAlloc := 0, cl := (List.range 4).map fun c => (c, { Cluster.reset with p := [(1, if c < 2 then 1 else 0)] }) } with
        ir := encode sync 0 .nop }
    let out (sync : Bool) : List (Nat × Write) := match distOp 6 3 .fresh 1 f (s sync) with
      | .done t => t.myCore.inflight.map fun l => (l.cl, match l.w with | .dist cs => .dist (cs.take 1) | w => w)
      | _ => []
    let p (j : Nat) : Write := .dist [(pointKey 3 j 0, (0, 0))]
    (s false).irSync = false ∧ (s true).irSync = true ∧ out false = [(0, p 0), (0, .dtag 3 1)] ∧
    out true = [(0, p 0), (0, .flags 1), (1, p 16), (1, .flags 1), (2, .dist []), (3, .dist []), (0, .dtag 3 1)] := by
  decide +kernel

/-- DLD with a fresh tag from the own scratchpad and from HBM4E; its completion, alone and with the clusters that issued it with it (R285). -/
theorem test_witness_DistributionLoads :
    let l (m : BitVec 2) : DLdOps := { d := 3, a := 1, mode := m }
    let s (m : BitVec 2) (a : Word) : State := machF (.dld (l m)) [(1, a)] fun k => { k with tagAlloc := 0 }
    let chk (a : Word) (f : State → Piece → Bool) : Bool := okB ((s 0 a).fresh.checkAll .load 64 ((s 0 a).imageAddrs a)) fun r => r.2.any (f r.1)
    let p : Piece := { key := 17, ea := 64, pa := 0x40040, ent := leaf 0x40000 0 0 }
    let h : Hold := { kind := .blocking, instr := .dld (l 0), ea := 64, vals := 7 :: Piece.pack [p], since := 3, sync := true }
    let two : State := { ((machF .nop [] fun k => { k with cl := [0, 1].map fun c => (c, { Cluster.reset with act := .waiting h }) }).setBytes 0x40044 [5]) with ev := .nats [0, 0, 3] }
    (s 0 0x40000000).issues (.dld (l 0)) ∧ chk 0x40000000 (fun u p => u.own p.pa) = true ∧ chk 64 (fun u p => !u.own p.pa) = true ∧
    ((after (exec (.dld (l 0)) (s 0 0x40000000))).agenda.map fun d => (d.cycle, d.row)) = [(7, .blockingCompletion)] ∧
    ((after (exec (.dld (l 0)) (s 0 64))).me.hold?.map fun h => h.vals.take 3) = some [1, 0, 64] ∧
    okB (({ two with curCl := 1 } : State).dest p.leaf p.pa true) (fun as => decide (as = [0x40040])) = true ∧ two.mates h = [1] ∧
    ((lands two).map fun w => match w with | .dist cs => Write.dist ((cs.drop 1).take 1) | w => w) =
      [.dist [(pointKey 3 17 1, (5, 0))], .dtag 3 7] ∧ goesOn two = true ∧ ((after (exec .blockingCompletion two)).cluster 0 1).act = .running := by
  simp only [State.issues]; decide +kernel

/-- EFLUSH of a queue with a command that has issued, and its completion while that command runs, while it is stopped, and after (R220). -/
theorem test_witness_FlushWaits :
    let i : Instr := .eflush { mask := 0x14 }
    let q : QCmd := { qcmd (.cpy 1) with resume := some { (running (.cpy 1)).r with order := 5 } }
    let run : Issued := { running (.cpy 1) with r := { (running (.cpy 1)).r with order := 5 } }
    let s (f : Core → Core) : State := machF i [] fun k => f { k with tokens := [(0, 2)] }
    let t := after (exec i (s fun k => { k with issued := [run], storeQ := [q] }))
    let go (f : Core → Core) : State := after (exec .blockingCompletion (heldAs i [0x14, 5] (s f)))
    (s fun k => { k with issued := [run] }).issues i ∧ (t.me.hold?.map fun h => h.vals) = some [0x14, 5] ∧ t.myCore.queue 2 = [] ∧ t.myCore.tokens = [(0, 2)] ∧
    (after (exec i (s id))).myCore.tokens = [] ∧ (go fun k => { k with issued := [run] }).me.act ≠ .running ∧
    (go fun k => { k with storeQ := [q] }).me.act ≠ .running ∧ (go id).me.act = .running ∧ (go id).myCore.tokens = [] := by
  simp only [State.issues]; decide +kernel

/-- TLBSYNC whose invalidation was acknowledged in an earlier cycle, in this one, and one of a scope narrower than an open one's (R161). -/
theorem test_witness_SyncOfTlbs :
    let k (c : Option Nat) : Ticket := { id := 5, core := 0, cl := 0, asid := some 0, lo := 0, len := 1, scope := 3, undropped := [], unacked := [], doneAt := c }
    let s (w : Nat) (c : Option Nat) : State :=
      { (machS .tlbsync []).modMe (fun c => { c with tlbis := [5] }) with ir := 0x6B * 2 ^ 22 + w, tickets := [k c, { k none with id := 6 }], cycle := 4 }
    let go (w : Nat) (c : Option Nat) : State := after (exec .tlbsync (s w c))
    (s 3 (some 3)).issues .tlbsync ∧ ((s 3 (some 3)).ticket 5).map (fun k => k.doneAt) = some (some 3) ∧ (go 3 (some 3)).me.pc = 4 ∧
    ((go 3 (some 3)).tickets.map fun k => k.id) = [6] ∧ (go 3 (some 3)).me.tlbis = [] ∧
    ((go 3 (some 4)).me.hold?.map fun h => h.kind) = some .tlbsync ∧ (go 2 none).me.trapCause = BitVec.ofNat 64 cILLFLD := by
  simp only [State.issues]; decide +kernel

/-- TESTAT of a counter in each mode, of one past the last and of a channel that is not there; TETHR out of range; HPTCFG's items 0 and 4
at the end of a cycle (R313-R315). -/
theorem test_witness_CountersAndItems :
    let o : TestatOps := { d := 4, a := 1, lane := 3 }
    let s (x : Word) : State := (lanes (.testat o) [(1, x)] Lane.reset).modMe fun c => { c with super := true }
    let e (ch : Nat) : Word := w64 (4 + ch * 2 ^ 8 + 4 * 2 ^ 20)
    let r (x : Word) : State := after (exec (.testat o) ({ s x with chanCtrs := [(63, { ChanCtr.reset with entries := 9 })] } : State))
    let th : TethrOps := { a := 1, b := 2, lane := 3 }
    let t (a b : Word) : State := after (exec (.tethr th) (lanes (.tethr th) [(1, a), (2, b)] { Lane.reset with node := some 3 }))
    let h : State := { State.reset with hptNext := [(0, 8), (4, 9)] }
    (s 4).issues (.testat o) ∧ coreDie 0 = 0 ∧ ((r (e 63)).myCore.inflight.map fun l => l.w) = [.x 4 9] ∧
    (r (e 64)).me.trapCause = BitVec.ofNat 64 cILLFLD ∧ (r (w64 (4 + 5 * 2 ^ 20))).me.trapCause = BitVec.ofNat 64 cILLFLD ∧
    (r (w64 (4 + 319 * 2 ^ 8))).me.trapCause = 0 ∧ (r (w64 (4 + 320 * 2 ^ 8))).me.trapCause = BitVec.ofNat 64 cILLFLD ∧
    (after (exec (.testat o) (lanes (.testat o) [(1, 4)] Lane.reset))).me.trapCause = BitVec.ofNat 64 cPRIV ∧
    (t 65536 0).me.trapCause = BitVec.ofNat 64 cILLFLD ∧ (t 0 2).me.trapCause = BitVec.ofNat 64 cPROT ∧ (t 0 1).me.trapCause = 0 ∧
    SMap.wf 0 h.hptNext = true ∧ (h.applyHpt.hptItem 0 4, h.applyHpt.hptNext) = (8, [(0, 8)]) := by
  simp only [State.issues]; decide +kernel

/-- DITSWP's operands that are misaligned, in no indirected range, of another die, too wide a word and a pool's frame; its completions that
wait, that find a shadow, that set an entry and that free a frame (R296, R316). -/
theorem test_witness_DitForms :
    let x : X3 := { d := 4, a := 1, b := 2 }
    let f : DitFree := { d := 4, a := 1, b := 2, shadow := false }
    let cause (i : Instr) (a b : Word) : Word := (after (exec i ((machS i [(1, a), (2, b)])))).me.trapCause
    let prot := BitVec.ofNat 64 cPROT
    let fin (i : Instr) (vals : List Nat) (e : DitEntry) : State := after (exec .blockingCompletion
      { heldAs i vals ((machS .nop [])) with dit := [(1, some e)], pools := [(0, [3, 9])], poolNew := [(0, 9)] })
    let e := DitEntry.identity 1
    let word (s : State) : List Write := s.myCore.inflight.map fun l => l.w
    (machS (.ditswpFree f) [(1, 0x10000), (2, 0x20000)]).issues (.ditswpFree f) ∧ cause (.ditswpSwap x) 0x10001 0 = BitVec.ofNat 64 cALIGN ∧
    cause (.ditswpSet x) 0x80000000000 0 = prot ∧ cause (.ditswpSwap x) 0 0x1000000000 = prot ∧
    cause (.ditswpSet x) 0 0x20000000000 = BitVec.ofNat 64 cILLFLD ∧ cause (.ditswpFree f) 0 0x800000000000 = prot ∧ cause (.ditswpFree f) 0 0x10000 = 0 ∧
    (fin (.ditswpSet x) [1, 0x10000, 7, 4] { e with mov := true }).me.act ≠ .running ∧
    word (fin (.ditswpSet x) [1, 0x10000, 7, 4] { e with shd := true }) = [.x 4 (w64 (1 + 2 ^ 36 + 2 ^ 39))] ∧
    ((fin (.ditswpSet x) [1, 0x10000, 7, 4] e).ditEntry 1) = { e with mframe := 7, valid := false } ∧
    SMap.get [] (fin (.ditswpFree f) [2, 0x10000, 0x70000, 4] e).pools 0 = [3, 7, 9] ∧
    SMap.get [] (fin (.ditswpFree f) [3, 0x10000, 0x70000, 4] e).pools 2 = [7] ∧ word (fin (.ditswpFree f) [2, 0x10000, 0x70000, 4] e) = [.x 4 0] := by
  simp only [State.issues]; decide +kernel

/-- A record whose page is not there, a read with a link error and a fourth, a record that lies in no range, and the end of a last hop, with
its add, which ends the lane's work (R301-R305, R310). -/
theorem test_witness_ShardEnds :
    let rd (l : Lane) (ev : List Nat) : State := after (exec .shardRecordRead (shards l (.nats ev)))
    let out := record - 0x40000 + 0x60000
    let x : Shard := { index := 0, record := record + 5 * 2 ^ 356 + 2 ^ 365, ready := 0, hops := [(2, { Hop.fresh with st := .active })] }
    let s := shards { Lane.reset with shards := [x] } (.nats [0, 3, 0, 2])
    let t := after (exec .hopDone s)
    (match (shards { Lane.reset with records := 0x80000000 } .none).check (unitTier 0) 0 false .load 0x80000000 with | .error c => decide (c = cXLATE) | .ok _ => false) = true ∧
    ((rd { Lane.reset with records := 0x80000000 } [0, 3, 0, 0]).agenda.map fun d => d.args) = [.nats [0, 3, 0, 1, cXLATE, 0x80000000, 0]] ∧
    ((rd Lane.reset [0, 3, 0, 0, 1, 2]).agenda.map fun d => d.args) = [.nats [0, 3, 0, 0, 0, 3]] ∧
    ((rd Lane.reset [0, 3, 0, 0, 1, 3]).lane 0 3).held = some (cCHKFAIL, chkInfo 0 3 3 5 0 0) ∧
    shCheck out = none ∧ ((shards Lane.reset .none).shPlaces ((shards Lane.reset .none).lane 0 3) out).isSome = true ∧
    ((rd Lane.reset [0, 3, 0, 1, 0, 0, out, 0]).lane 0 3).st = .faulted ∧
    ((s.lane 0 3).shard 0).map (fun y => (y.hop 2).st) = some .active ∧ shRen x.record = true ∧ s.nodeCore (s.lane 0 3).node (shRank x.record) = some 0 ∧
    ((t.lane 0 3).arrived, (t.lane 0 3).st) = (1, .idle) ∧ (t.adds.map fun a => (a.ctr, a.amount)) = [(.slot 0 5, 1)] := by
  decide +kernel

/-- RXSEND with its slot add; RXFREE of more than was received; RXRECV of another layer (R327-R329). -/
theorem test_witness_ChannelForms :
    let send : Rx3 := { d := 4, a := 1, b := 2, ch := 0 }
    let rec_ := chanRecord + 7 * 2 ^ 192 + 2 ^ 256
    let s1 : State := { relay (.rxsend send) [(1, 0x40000000)] Chan.reset with chans := [(0, { Chan.reset with node := some 3, record := rec_, st := .opened })] }
    let s2 := relay (.rxfree { ch := 0 }) [] { Chan.reset with st := .flowing, sent := 1, arrived := 1 }
    let recv : Rx2 := { d := 4, a := 1, ch := 0 }
    let s3 := relay (.rxrecv recv) [(1, 8)] { Chan.reset with st := .flowing, sent := 1, arrived := 1 }
    s1.issues (.rxsend send) ∧ crEnable rec_ 0 = true ∧ ((after (exec (.rxsend send) s1)).adds.map fun a => (a.ctr, a.amount)) = [(.slot 0 7, 1)] ∧
    (after (exec (.rxfree { ch := 0 }) s2)).me.trapCause = BitVec.ofNat 64 cRXPHASE ∧
    (after (exec (.rxrecv recv) s3)).me.trapCause = BitVec.ofNat 64 cRXPHASE := by
  simp only [State.issues]; decide +kernel

/-- A user-mode write of a register that it may only read (log entry 19), and TEGO of misaligned records. -/
theorem test_witness_UserWrites :
    let w : Instr := .swr { rd := 1, num := 0x11 }
    let o : TegoOps := { d := 4, a := 1, b := 2, lane := 3, wl := 0, wh := 1, ws := 7 }
    (mach w []).issues w ∧ (after (exec w (mach w []))).me.trapCause = BitVec.ofNat 64 cILLFLD ∧
    (after (exec (.tego o) (lanes (.tego o) [(1, 32)] Lane.reset))).me.trapCause = BitVec.ofNat 64 cALIGN := by
  simp only [State.issues]; decide +kernel

end Sys2Proof.Tests
end

section
/-!
SUPPORT. Numbers in memory: a number that is written reads back, and a read does not see what lies outside memory and its mapping.
-/

namespace Sys2Proof

@[simp] theorem length_leBytes (n v : Nat) : (leBytes n v).length = n := by
  induction n generalizing v with
  | zero => rfl
  | succ n ih => simp [leBytes, ih]

theorem leNat_leBytes (n v : Nat) : leNat (leBytes n v) = v % 256 ^ n := by
  induction n generalizing v with
  | zero => simp [leBytes, leNat, Nat.mod_one]
  | succ n ih =>
    have low : (BitVec.ofNat 8 v).toNat = v % 256 := BitVec.toNat_ofNat v 8
    rw [leBytes, leNat, ih, low, Nat.pow_succ', Nat.mod_mul]

theorem fld_lt (w lo n : Nat) : fld w lo n < 2 ^ n := Nat.mod_lt _ (Nat.two_pow_pos n)

namespace Machine

@[simp] theorem toNat_w64_fld (w lo : Nat) : (w64 (fld w lo 64)).toNat = fld w lo 64 :=
  (BitVec.toNat_ofNat _ 64).trans (Nat.mod_eq_of_lt (fld_lt w lo 64))

theorem State.bytes_congr {s t : State} (h : ∀ pa, t.byte pa = s.byte pa) (pa n : Nat) : t.bytes pa n = s.bytes pa n := by
  induction n generalizing pa with
  | zero => rfl
  | succ n ih => rw [State.bytes, State.bytes, h, ih]

theorem State.readN_congr {s t : State} (h : ∀ pa, t.byte pa = s.byte pa) (pa n : Nat) : t.readN pa n = s.readN pa n := by
  rw [State.readN, State.readN, State.bytes_congr h]

/-- A number that fits its bytes reads back, when these are bytes of their own. -/
theorem State.readN_writeN {s : State} {pa n v : Nat} (hd : (s.mediaRange pa n).Nodup) (hv : v < 256 ^ n) :
    (s.writeN pa n v).readN pa n = v := by
  have back : (s.setBytes pa (leBytes n v)).bytes pa (leBytes n v).length = leBytes n v :=
    State.bytes_setBytes s pa _ (by rwa [length_leBytes])
  rw [length_leBytes] at back
  rw [State.writeN, State.readN, back, leNat_leBytes, Nat.mod_eq_of_lt hv]

/-- A store of a number changes nothing but memory. -/
theorem State.writeN_eq (s : State) (pa n v : Nat) : ∃ m, s.writeN pa n v = { s with mem := m } :=
  State.setBytes_eq s pa (leBytes n v)

@[simp] theorem State.writeN_ring (s : State) (pa n v w : Nat) : (s.writeN pa n v).ring w = s.ring w := by
  obtain ⟨m, hm⟩ := State.writeN_eq s pa n v; rw [hm]; rfl

@[simp] theorem State.writeN_cores (s : State) (pa n v : Nat) : (s.writeN pa n v).cores = s.cores := by
  obtain ⟨m, hm⟩ := State.writeN_eq s pa n v; rw [hm]

end Machine
end Sys2Proof
end

section
/-!
SUPPORT. The rings of an interface (R348, R349, R351): what each operation on them comes to, case by case, and what it leaves alone.
-/

namespace Sys2Proof.Machine

/-! ### A change of rings, and a step put on the agenda -/

@[simp] theorem State.ring_modRing_same (s : State) (v : Nat) (f : Ring → Ring) : (s.modRing v f).ring v = f (s.ring v) := by
  rw [State.ring_modRing, if_pos rfl]

@[simp] theorem State.modRing_mem (s : State) (v : Nat) (f : Ring → Ring) : (s.modRing v f).mem = s.mem := rfl
@[simp] theorem State.modRing_cores (s : State) (v : Nat) (f : Ring → Ring) : (s.modRing v f).cores = s.cores := rfl
@[simp] theorem State.modRing_cycle (s : State) (v : Nat) (f : Ring → Ring) : (s.modRing v f).cycle = s.cycle := rfl

@[simp] theorem State.modRing_readN (s : State) (v : Nat) (f : Ring → Ring) (pa n : Nat) :
    (s.modRing v f).readN pa n = s.readN pa n :=
  State.readN_congr (s := s) (t := s.modRing v f) (fun _ => rfl) pa n

@[simp] theorem State.schedule_mem (s : State) (c : Nat) (r : Instr) (a : EvArgs) : (s.schedule c r a).mem = s.mem := rfl
@[simp] theorem State.schedule_ring (s : State) (c : Nat) (r : Instr) (a : EvArgs) (v : Nat) :
    (s.schedule c r a).ring v = s.ring v := rfl

@[simp] theorem State.scheduleOpen_mem (s : State) (least : Nat) (r : Instr) (a : EvArgs) :
    (s.scheduleOpen least r a).mem = s.mem := rfl
@[simp] theorem State.scheduleOpen_cores (s : State) (least : Nat) (r : Instr) (a : EvArgs) :
    (s.scheduleOpen least r a).cores = s.cores := rfl
@[simp] theorem State.scheduleOpen_ring (s : State) (least : Nat) (r : Instr) (a : EvArgs) (v : Nat) :
    (s.scheduleOpen least r a).ring v = s.ring v := rfl
@[simp] theorem State.scheduleOpen_readN (s : State) (least : Nat) (r : Instr) (a : EvArgs) (pa n : Nat) :
    (s.scheduleOpen least r a).readN pa n = s.readN pa n :=
  State.readN_congr (s := s) (t := s.scheduleOpen least r a) (fun _ => rfl) pa n

@[simp] theorem State.flushEvents_nil (s : State) (v : Nat) : s.flushEvents v [] = s := rfl

/-! ### Enabling and disabling (R348) -/

/-- Rings enabled with a configuration: only the bases and the events held back are those of before. -/
def Ring.enabledWith (r : Ring) (q : Nat) : Ring :=
  { Ring.reset with sqBase := r.sqBase, cqBase := r.cqBase, eqBase := r.eqBase, qcfg := w64 (q % 2 ^ 63 + 2 ^ 63), held := r.held }

/-- A bad configuration of disabled rings puts them in error. -/
theorem exec_qcfgEnable_bad {s : State} {v q : Nat} (hev : s.ev = .nats [v, q]) (hoff : (s.ring v).enabled = false)
    (hidle : (s.ring v).entry = none) (hbad : (s.ring v).badConfig q = true) : exec .qcfgEnable s = .next (s.ringError v 2) := by
  show execQcfgEnable s = _
  simp [execQcfgEnable, EvArgs.nat, hev, hoff, hidle, hbad]

/-- A good configuration of disabled rings enables them. -/
theorem exec_qcfgEnable_good {s : State} {v q : Nat} (hev : s.ev = .nats [v, q]) (hoff : (s.ring v).enabled = false)
    (hidle : (s.ring v).entry = none) (hgood : (s.ring v).badConfig q = false) (hheld : (s.ring v).held = []) :
    exec .qcfgEnable s = .next (s.modRing v fun r => r.enabledWith q) := by
  show execQcfgEnable s = _
  simp [execQcfgEnable, EvArgs.nat, hev, hoff, hidle, hgood, hheld, Ring.enabledWith]

/-- QCFG of rings after a value whose bit 63 is clear is written (R348): of enabled rings that bit is cleared and no other; of disabled
ones the fields are written, and reserved bits read as zero (R3). -/
def Ring.disabledCfg (r : Ring) (q : Nat) : Word :=
  if r.enabled then w64 (r.qcfg.toNat % 2 ^ 63) else w64 q &&& 0x3000F000F

theorem exec_qcfgDisable {s : State} {v q : Nat} (hev : s.ev = .nats [v, q]) :
    exec .qcfgDisable s = .next (s.modRing v fun r =>
      { r with qcfg := r.disabledCfg q, error := false, reason := 0, reading := none }) := by
  show execQcfgDisable s = _
  simp [execQcfgDisable, EvArgs.nat, hev, Ring.disabledCfg]

/-- Keeping the bits below bit 63 is masking with their ones. -/
theorem w64_mod_two_pow_63 (x : Word) : w64 (x.toNat % 2 ^ 63) = x &&& 0x7FFFFFFFFFFFFFFF := by
  refine BitVec.eq_of_toNat_eq ?_
  have mask : (0x7FFFFFFFFFFFFFFF : Word).toNat = 2 ^ 63 - 1 := rfl
  rw [BitVec.toNat_and, mask, Nat.and_two_pow_sub_one_eq_mod, w64, BitVec.toNat_ofNat]
  omega

theorem Ring.disabledCfg_of_enabled {r : Ring} (h : r.enabled = true) (q : Nat) :
    r.disabledCfg q = r.qcfg &&& 0x7FFFFFFFFFFFFFFF := by
  rw [Ring.disabledCfg, if_pos h, w64_mod_two_pow_63]

theorem Ring.disabledCfg_of_disabled {r : Ring} (h : r.enabled = false) (q : Nat) :
    r.disabledCfg q = w64 q &&& 0x3000F000F := by
  simp [Ring.disabledCfg, h]

/-- Either way bit 63 is clear. -/
theorem Ring.disabledCfg_bit63 (r : Ring) (q : Nat) : (r.disabledCfg q).getLsbD 63 = false := by
  cases h : r.enabled
  · simp [Ring.disabledCfg_of_disabled h]
  · simp [Ring.disabledCfg_of_enabled h]

/-! ### The entry at the head (R349, Table 25-3) -/

/-- The command of interface `v` in a submission entry. -/
def entryCmd (v e : Nat) : HostCmd :=
  { vi := v, tag := BitVec.ofNat 32 (fld e 32 32), op0 := w64 (fld e 64 64), op1 := w64 (fld e 128 64), op2 := w64 (fld e 192 64),
    op3 := w64 (fld e 256 64), op4 := w64 (fld e 320 64), op5 := w64 (fld e 384 64) }

/-- Its fields are those of the entry (Table 25-3). -/
theorem entryCmd_fields (v e : Nat) : (entryCmd v e).vi = v ∧ (entryCmd v e).tag.toNat = fld e 32 32 ∧
    (entryCmd v e).op0.toNat = fld e 64 64 ∧ (entryCmd v e).op1.toNat = fld e 128 64 ∧ (entryCmd v e).op2.toNat = fld e 192 64 ∧
    (entryCmd v e).op3.toNat = fld e 256 64 ∧ (entryCmd v e).op4.toNat = fld e 320 64 ∧ (entryCmd v e).op5.toNat = fld e 384 64 := by
  have tag : (BitVec.ofNat 32 (fld e 32 32)).toNat = fld e 32 32 :=
    (BitVec.toNat_ofNat _ 32).trans (Nat.mod_eq_of_lt (fld_lt e 32 32))
  exact ⟨rfl, tag, toNat_w64_fld .., toNat_w64_fld .., toNat_w64_fld .., toNat_w64_fld .., toNat_w64_fld .., toNat_w64_fld ..⟩

/-- The command of entry `n`, which reads `e`, is in progress on the rings of `v`: its step follows after an open time. -/
def State.started (s : State) (v n e : Nat) (row : Instr) : State :=
  (s.modRing v fun r => { r with entry := some n, reading := none }).scheduleOpen 1 row (.host (entryCmd v e))

@[simp] theorem State.started_mem (s : State) (v n e : Nat) (row : Instr) : (s.started v n e row).mem = s.mem := by
  simp [State.started]

@[simp] theorem State.started_ring (s : State) (v n e : Nat) (row : Instr) :
    (s.started v n e row).ring v = { s.ring v with entry := some n, reading := none } := by
  simp [State.started]

theorem State.due_started (s : State) (v n e : Nat) (row : Instr) :
    ∃ d ∈ (s.started v n e row).agenda, d.row = row ∧ s.cycle < d.cycle ∧ d.args = .host (entryCmd v e) :=
  State.due_scheduleOpen (s.modRing v fun r => { r with entry := some n, reading := none }) Nat.one_pos row (.host (entryCmd v e))

/-- A well-formed entry starts its command. -/
theorem State.startCmd_eq (s : State) {v n e : Nat} {row : Instr} (hrow : commandRow (fld e 0 8) (fld e 128 64) = some row)
    (hlow : fld e 9 23 = 0) (hhigh : fld e 448 48 = 0) : s.startCmd v n e = s.started v n e row := by
  simp [State.startCmd, State.started, cop, hrow, hlow, hhigh, entryCmd]

/-- Device-physical address of the entry at the submission head. -/
def Ring.headAddr (r : Ring) : Nat := hostAddr (r.sqBase.toNat + 64 * (r.handled % r.size))

/-- The rings of `v` have an entry that may be read: they are enabled and not in error, no command is in progress, their interface is not
under reset, and the entry lies in host memory. -/
structure State.EntryDue (s : State) (v : Nat) : Prop where
  enabled : (s.ring v).enabled = true
  noError : (s.ring v).error = false
  idle : (s.ring v).entry = none
  pending : (s.ring v).handled % (s.ring v).size ≠ (s.ring v).tail % (s.ring v).size
  noReset : s.underReset v = false
  inHost : memKind (s.ring v).headAddr = some .host

/-- Without stamps the entry that is due is acted on. -/
theorem State.readEntry_noStamps {s : State} {v : Nat} (h : s.EntryDue v) (hst : (s.ring v).stamps = false) :
    s.readEntry v = s.startCmd v (s.ring v).handled (s.readN (s.ring v).headAddr 64) := by
  obtain ⟨hen, herr, hidle, hpend, hres, hhost⟩ := h
  rw [Ring.headAddr] at hhost
  simp [State.readEntry, Ring.headAddr, hen, herr, hidle, hpend, hres, hhost, hst]

/-- A stale entry that is still awaited is read again after 1,200 cycles. -/
theorem State.readEntry_stale {s : State} {v t0 : Nat} (h : s.EntryDue v) (hst : (s.ring v).stamps = true)
    (hread : (s.ring v).reading = some t0) (hstale : fld (s.readN (s.ring v).headAddr 64) 496 16 ≠ stampOf (s.ring v).handled)
    (htime : s.cycle < t0 + 12000000) :
    s.readEntry v = (s.modRing v fun r => { r with reading := some t0 }).schedule (s.cycle + 1200) .stampRetry
      (.nats [v, (s.ring v).handled]) := by
  obtain ⟨hen, herr, hidle, hpend, hres, hhost⟩ := h
  rw [Ring.headAddr] at hhost hstale
  simp [State.readEntry, hen, herr, hidle, hpend, hres, hhost, hst, hread, hstale, Nat.not_le.mpr htime]

/-- The tail of the submission ring of `v` is written. -/
def State.withTail (s : State) (v x : Nat) : State := s.modRing v fun r => { r with tail := x % 4096 }

@[simp] theorem State.withTail_ring (s : State) (v x : Nat) : (s.withTail v x).ring v = { s.ring v with tail := x % 4096 } :=
  State.ring_modRing_same ..

@[simp] theorem State.withTail_mem (s : State) (v x : Nat) : (s.withTail v x).mem = s.mem := rfl
@[simp] theorem State.withTail_underReset (s : State) (v x w : Nat) : (s.withTail v x).underReset w = s.underReset w := rfl

@[simp] theorem State.withTail_readN (s : State) (v x pa n : Nat) : (s.withTail v x).readN pa n = s.readN pa n :=
  State.modRing_readN ..

/-- A written tail sends the firmware to the entry at the head, unless one is awaited. -/
theorem exec_sqNotify_tail {s : State} {v x : Nat} (hev : s.ev = .nats [v, x]) (hread : (s.ring v).reading = none) :
    exec .sqNotify s = .next ((s.withTail v x).readEntry v) := by
  show execSqNotify s = _
  simp [execSqNotify, State.withTail, EvArgs.nat, hev, hread]

/-- With the tail written, the entry that is now due starts its command. -/
theorem exec_sqNotify_starts {s : State} {v x e : Nat} {row : Instr} (hev : s.ev = .nats [v, x])
    (hread : (s.ring v).reading = none) (hst : (s.ring v).stamps = false) (hdue : (s.withTail v x).EntryDue v)
    (he : e = s.readN (s.ring v).headAddr 64) (hrow : commandRow (fld e 0 8) (fld e 128 64) = some row) (hlow : fld e 9 23 = 0)
    (hhigh : fld e 448 48 = 0) : exec .sqNotify s = .next ((s.withTail v x).started v (s.ring v).handled e row) := by
  have hst' : ((s.withTail v x).ring v).stamps = false := by rw [State.withTail_ring]; exact hst
  have hhead : ((s.withTail v x).ring v).headAddr = (s.ring v).headAddr := by rw [State.withTail_ring]; rfl
  rw [exec_sqNotify_tail hev hread, State.readEntry_noStamps hdue hst', hhead, State.withTail_readN, ← he,
    State.startCmd_eq _ hrow hlow hhigh, State.withTail_ring]

/-- A retry reads the entry at the head again. -/
theorem exec_stampRetry {s : State} {v t0 : Nat} (hev : s.ev = .nats [v, (s.ring v).handled])
    (hread : (s.ring v).reading = some t0) : exec .stampRetry s = .next (s.readEntry v) := by
  show execStampRetry s = _
  simp [execStampRetry, EvArgs.nat, hev, hread]

/-- An entry that was stale for too long puts its ring in error. -/
theorem exec_stampTimeout {s : State} {v t0 : Nat} (hev : s.ev = .nats [v, (s.ring v).handled])
    (hread : (s.ring v).reading = some t0) (htime : t0 + 12000000 ≤ s.cycle) :
    exec .stampTimeout s = .next (s.ringError v 1) := by
  show execStampTimeout s = _
  simp [execStampTimeout, EvArgs.nat, hev, hread, htime]

/-- A written event head is kept; with no events held back nothing else happens. -/
theorem exec_eqheadWrite {s : State} {v x : Nat} (hev : s.ev = .nats [v, x]) (hheld : (s.ring v).held = []) :
    exec .eqheadWrite s = .next (s.modRing v fun r => { r with eqHead := x % 4096 }) := by
  show execEqheadWrite s = _
  simp [execEqheadWrite, EvArgs.nat, hev, hheld]

/-! ### Completions (Table 25-3) -/

/-- The completion entry of command number `n` of a ring. -/
def completionEntry (c : HostCmd) (status detail index value n : Nat) : Nat :=
  c.tag.toNat + status * 2 ^ 32 + detail % 2 ^ 8 * 2 ^ 40 + index % 2 ^ 16 * 2 ^ 48 + value % 2 ^ 48 * 2 ^ 64 + (n % 65535 + 1) * 2 ^ 112

theorem completionEntry_lt (c : HostCmd) {status : Nat} (detail index value n : Nat) (h : status < 256) :
    completionEntry c status detail index value n < 256 ^ 16 := by
  have htag : c.tag.toNat < 2 ^ 32 := c.tag.isLt
  unfold completionEntry
  omega

/-- Device-physical address of the next completion entry. -/
def Ring.completionAddr (r : Ring) : Nat := hostAddr (r.cqBase.toNat + 16 * (r.completions % r.size))

/-- The rings of an interface go on to the entry after `n`. -/
def State.ringOn (s : State) (v n : Nat) : State :=
  (s.modRing v fun r => { r with entry := none, result := 0, completions := r.completions + 1, handled := n + 1 }).scheduleOpen 1
    .sqNotify (.nats [v])

@[simp] theorem State.ringOn_mem (s : State) (v n : Nat) : (s.ringOn v n).mem = s.mem := by
  simp [State.ringOn]

@[simp] theorem State.ringOn_cores (s : State) (v n : Nat) : (s.ringOn v n).cores = s.cores := by
  simp [State.ringOn]

@[simp] theorem State.ringOn_readN (s : State) (v n pa k : Nat) : (s.ringOn v n).readN pa k = s.readN pa k := by
  simp [State.ringOn]

@[simp] theorem State.ringOn_ring (s : State) (v n : Nat) : (s.ringOn v n).ring v =
    { s.ring v with entry := none, result := 0, completions := (s.ring v).completions + 1, handled := n + 1 } := by
  simp [State.ringOn]

/-- A completion in host memory is written there, and the ring goes on. -/
theorem State.finishCmd_inHost {s : State} {c : HostCmd} {n : Nat} (status detail index value : Nat)
    (hentry : (s.ring c.vi).entry = some n) (hhost : memKind (s.ring c.vi).completionAddr = some .host) :
    s.finishCmd c status detail index value =
      (s.writeN (s.ring c.vi).completionAddr 16 (completionEntry c status detail index value n)).ringOn c.vi n := by
  rw [Ring.completionAddr] at hhost
  simp only [State.finishCmd, hentry, hhost, if_true]
  rfl

/-- A completion that has no place in host memory puts the ring in error, and it goes on (log entry 48). -/
theorem State.finishCmd_outside {s : State} {c : HostCmd} {n : Nat} (status detail index value : Nat)
    (hentry : (s.ring c.vi).entry = some n) (hhost : memKind (s.ring c.vi).completionAddr ≠ some .host) :
    s.finishCmd c status detail index value =
      (s.modRing c.vi fun r => { r with error := true, reason := 3 }).ringOn c.vi n := by
  rw [Ring.completionAddr] at hhost
  simp only [State.finishCmd, hentry, if_neg hhost]
  rfl

end Sys2Proof.Machine
end

section
/-!
The rings of an interface: the statement about them, from what each operation comes to.
-/

namespace Sys2Proof.Machine

/-- Settles O55, clause by clause, from what each operation on the rings comes to. -/
theorem hostRings : Obligations.HostRings := by
  refine ⟨?enable, ?disable, ?notify, ?retry, ?timeout, ?head, ?complete, ?outside⟩
  case enable =>
    intro s v q hev hoff hidle
    refine ⟨fun hbad => ⟨_, exec_qcfgEnable_bad hev hoff hidle hbad, ?_⟩,
      fun hgood hheld => ⟨_, exec_qcfgEnable_good hev hoff hidle hgood hheld, ?_⟩⟩
    · simpa [State.ringError, Ring.enabled] using hoff
    · simp [Ring.enabledWith, hheld, Ring.reset]
  case disable =>
    intro s v q hev
    refine ⟨_, exec_qcfgDisable hev, ?_⟩
    simp only [State.ring_modRing_same, State.modRing_mem, true_and]
    exact ⟨Ring.disabledCfg_bit63 _ q, fun h => Ring.disabledCfg_of_enabled h q, fun h => Ring.disabledCfg_of_disabled h q⟩
  case notify =>
    intro s v x e row hev r hen herr hidle hread hst hres hpend hhost he hrow hlow hhigh
    have hdue : (s.withTail v x).EntryDue v := by
      -- Each part is a hypothesis, read through the tail that was written.
      constructor <;> simp only [State.withTail_ring, State.withTail_underReset] <;> assumption
    obtain ⟨hvi, htag, h0, h1, h2, h3, h4, h5⟩ := entryCmd_fields v e
    exact ⟨_, entryCmd v e, exec_sqNotify_starts hev hread hst hdue he hrow hlow hhigh, by simp [r], by simp, by simp,
      hvi, htag, h0, h1, h2, h3, h4, h5, State.due_started ..⟩
  case retry =>
    intro s v t0 r hev hen herr hidle hread hst hres hpend hhost hstale htime
    have hdue : s.EntryDue v := ⟨hen, herr, hidle, hpend, hres, hhost⟩
    refine ⟨_, (exec_stampRetry hev hread).trans (congrArg _ (State.readEntry_stale hdue hst hread hstale htime)), ?_, ?_,
      _, State.due_schedule .., rfl, rfl, rfl⟩
    · simp
    · simp
  case timeout =>
    intro s v t0 hev hread htime
    refine ⟨_, exec_stampTimeout hev hread htime, ?_⟩
    simp [State.ringError]
  case head =>
    intro s v x hev hheld
    refine ⟨_, exec_eqheadWrite hev hheld, ?_⟩
    simp
  case complete =>
    intro s c status detail index value n r a hentry hhost hnodup hstatus
    have hback := State.readN_writeN hnodup (completionEntry_lt c detail index value n hstatus)
    rw [State.finishCmd_inHost status detail index value hentry hhost]
    refine ⟨(State.ringOn_readN ..).trans hback, ?_⟩
    simp [r]
  case outside =>
    intro s c status detail index value n r hentry hhost
    rw [State.finishCmd_outside status detail index value hentry hhost]
    simp

end Sys2Proof.Machine
end

section
/-!
SUPPORT. Packets in the mesh and at the switches (R23, R337, R338): what one hop, one switch and one cycle of the switches do with a
packet that is alone in its package.
-/

namespace Sys2Proof.Machine

/-! ### The mesh (R337) -/

theorem minimalPorts_ne_nil {a b : Nat} (h : a ≠ b) : minimalPorts a b ≠ [] := by
  unfold minimalPorts
  split
  · simp
  · split
    · simp
    · split
      · simp
      · split
        · simp
        · omega

/-- A minimal port is one of the four, in a dimension and sense in which the router is off its goal. -/
theorem mem_minimalPorts {a b d : Nat} (h : d ∈ minimalPorts a b) :
    (d = 0 ∧ a % 16 < b % 16) ∨ (d = 1 ∧ b % 16 < a % 16) ∨ (d = 2 ∧ a / 16 < b / 16) ∨ (d = 3 ∧ b / 16 < a / 16) := by
  unfold minimalPorts at h
  rw [List.mem_append] at h
  rcases h with h | h
  · split at h
    · simp_all
    · split at h <;> simp_all
  · split at h
    · simp_all
    · split at h <;> simp_all

theorem beyond_xPlus (a : Nat) : beyond a 0 = a + 1 := rfl
theorem beyond_xMinus (a : Nat) : beyond a 1 = a - 1 := rfl
theorem beyond_yPlus (a : Nat) : beyond a 2 = a + 16 := rfl
theorem beyond_yMinus (a : Nat) : beyond a 3 = a - 16 := rfl

/-- `x'` is the coordinate one on from `x` toward `y`. -/
def oneToward (x x' y : Nat) : Prop := x < y ∧ x' = x + 1 ∨ y < x ∧ x' + 1 = x

/-- Where a hop leads: one on in its dimension, and no further in the other. -/
theorem beyond_coords {a b d : Nat} (h : d ∈ minimalPorts a b) :
    (beyond a d / 16 = a / 16 ∧ oneToward (a % 16) (beyond a d % 16) (b % 16)) ∨
    (beyond a d % 16 = a % 16 ∧ oneToward (a / 16) (beyond a d / 16) (b / 16)) := by
  rcases mem_minimalPorts h with ⟨rfl, hlt⟩ | ⟨rfl, hlt⟩ | ⟨rfl, hlt⟩ | ⟨rfl, hlt⟩
  · rw [beyond_xPlus]
    exact .inl ⟨by omega, .inl ⟨hlt, by omega⟩⟩
  · rw [beyond_xMinus]
    exact .inl ⟨by omega, .inr ⟨hlt, by omega⟩⟩
  · rw [beyond_yPlus]
    exact .inr ⟨by omega, .inl ⟨hlt, by omega⟩⟩
  · rw [beyond_yMinus]
    exact .inr ⟨by omega, .inr ⟨hlt, by omega⟩⟩

/-- One step toward `y` is one less between. -/
theorem max_sub_min_toward {x x' y : Nat} (h : oneToward x x' y) : max x' y - min x' y + 1 = max x y - min x y := by
  unfold oneToward at h
  omega

/-- A hop by a minimal port brings the goal one router nearer. -/
theorem meshDist_beyond {a b d : Nat} (h : d ∈ minimalPorts a b) : Claim.meshDist (beyond a d) b + 1 = Claim.meshDist a b := by
  unfold Claim.meshDist
  rcases beyond_coords h with ⟨hsame, hnear⟩ | ⟨hsame, hnear⟩
  · rw [hsame, ← max_sub_min_toward hnear, Nat.add_right_comm]
  · rw [hsame, ← max_sub_min_toward hnear, Nat.add_assoc]

/-- A choice that a fold makes between what it holds and the next entry is what it began with, or an entry. -/
theorem foldl_choose_mem {α : Type} (better : α → α → Prop) [DecidableRel better] (l : List α) (a : α) :
    l.foldl (fun a d => if better a d then d else a) a ∈ a :: l := by
  induction l generalizing a with
  | nil => simp
  | cons d t ih =>
    rw [List.foldl_cons]
    split
    · exact List.mem_cons_of_mem _ (ih d)
    · exact List.cons_subset_cons a (List.subset_cons_self d t) (ih a)

/-- The minimal ports of a packet whose channel has a slot free. -/
def State.openPorts (s : State) (p : Packet) : List Nat :=
  (minimalPorts p.place p.goal).filter fun d => decide (0 < SMap.get 0 s.meshFree (meshKey p.place d p.vc))

/-- The free slots of the channel of a packet at a port, less its queue. -/
def State.portScore (s : State) (p : Packet) (d : Nat) : Int :=
  Int.ofNat (SMap.get 0 s.meshFree (meshKey p.place d p.vc)) - Int.ofNat (SMap.get 0 s.meshQueue (meshKey p.place d p.vc))

/-- The port with the best score among some ports is one of them. -/
theorem State.bestPort_mem {s : State} {p : Packet} {l : List Nat} (h : l ≠ []) (d : Nat) :
    l.foldl (fun a d => if s.portScore p a < s.portScore p d then d else a) (l.headD d) ∈ l := by
  obtain ⟨a, t, rfl⟩ := List.exists_cons_of_ne_nil h
  have hm := foldl_choose_mem (fun a d => s.portScore p a < s.portScore p d) (a :: t) a
  simpa using hm

/-- The port that a packet takes: in the escape channel `first`, which goes X first (R337), else the best open one. -/
def State.routePort (s : State) (p : Packet) (first : Nat) : Nat :=
  if p.escape || (s.openPorts p).isEmpty then first
  else (s.openPorts p).foldl (fun a d => if s.portScore p a < s.portScore p d then d else a) ((s.openPorts p).headD first)

/-- It is a minimal one. -/
theorem State.routePort_mem {s : State} {p : Packet} {first : Nat} (h : first ∈ minimalPorts p.place p.goal) :
    s.routePort p first ∈ minimalPorts p.place p.goal := by
  unfold State.routePort
  split
  · exact h
  · rename_i hesc
    have hne : s.openPorts p ≠ [] := fun h => hesc (by simp [h])
    exact List.mem_of_mem_filter (State.bestPort_mem hne first)

/-- A packet that is not at its goal goes on by a minimal port, in the escape channel when no channel is open to it. -/
theorem exec_meshRoute {s : State} {p : Packet} (hev : s.ev = .nats [p.id]) (hp : s.packets = [p]) (hgo : p.place ≠ p.goal) :
    ∃ d ∈ minimalPorts p.place p.goal, exec .meshRoute s =
      .next { s with packets := [{ p with escape := p.escape || (s.openPorts p).isEmpty, place := beyond p.place d }] } := by
  obtain ⟨first, rest, hm⟩ := List.exists_cons_of_ne_nil (minimalPorts_ne_nil hgo)
  refine ⟨s.routePort p first, State.routePort_mem (hm ▸ List.mem_cons_self), ?_⟩
  show execMeshRoute s = _
  simp only [execMeshRoute, EvArgs.nat, hev, hp, List.getD_cons_zero, List.find?_cons, decide_true, hm, State.modPacket, List.map_cons,
    List.map_nil, if_true, State.routePort, State.openPorts]
  rfl

/-! ### Ports -/

theorem State.goodPort_away {s : State} {p : Packet} (h : p.req.dst ≠ s.pkg) (port : Nat) :
    s.goodPort p port = (s.productive p.req.dst (if port < 8 then port else port - 8) &&
      !s.linksDown.contains (if port < 8 then port else port - 8)) := by
  simp [State.goodPort, h]

/-- The ports of a switch: the link of its die, while it is up, and the ways to the other dies. -/
theorem State.mem_diePorts {s : State} {d e : Nat} :
    e ∈ s.diePorts d ↔ (e = d ∧ d ∉ s.linksDown) ∨ ∃ x, x < 6 ∧ x ≠ d ∧ e = 8 + x := by
  simp only [State.diePorts, List.mem_append, List.mem_map, List.mem_filter, List.mem_range, decide_eq_true_eq, List.contains_eq_mem]
  constructor
  · rintro (h | ⟨x, ⟨h1, h2⟩, rfl⟩)
    · split at h <;> simp_all
    · exact .inr ⟨x, h1, h2, rfl⟩
  · rintro (⟨rfl, h⟩ | ⟨x, h1, h2, rfl⟩)
    · simp [h]
    · exact .inr ⟨x, ⟨h1, h2⟩, rfl⟩

theorem State.diePorts_ne_nil (s : State) (d : Nat) : s.diePorts d ≠ [] := by
  have h : ∃ x, x < 6 ∧ x ≠ d := if h : d = 0 then ⟨1, by omega⟩ else ⟨0, by omega⟩
  obtain ⟨x, hx, hd⟩ := h
  exact List.ne_nil_of_mem (State.mem_diePorts.mpr (.inr ⟨x, hx, hd, rfl⟩))

/-- Every productive direction whose link is up has a port at the switch of every die: the link, or the way to the die that has it. -/
theorem State.exists_goodPort {s : State} {p : Packet} {d e : Nat} (hdst : p.req.dst ≠ s.pkg) (he : e < 6)
    (hup : e ∉ s.linksDown) (hprod : s.productive p.req.dst e = true) : ∃ x ∈ s.diePorts d, s.goodPort p x = true := by
  by_cases h : e = d
  · exact ⟨e, State.mem_diePorts.mpr (.inl ⟨h, h ▸ hup⟩), by
      simp [State.goodPort_away hdst, show e < 8 by omega, hprod, hup]⟩
  · exact ⟨8 + e, State.mem_diePorts.mpr (.inr ⟨e, he, h, rfl⟩), by simp [State.goodPort_away hdst, hprod, hup]⟩

/-- A productive port of the switch of die `d`: its link, or the way to a die, whose link is up and in a productive direction. -/
theorem State.goodPort_spec {s : State} {p : Packet} {d e : Nat} (hd : d < 6) (hdst : p.req.dst ≠ s.pkg) (he : e ∈ s.diePorts d)
    (hgood : s.goodPort p e = true) :
    (e = d ∨ (8 ≤ e ∧ e < 14)) ∧ e % 8 ∉ s.linksDown ∧ s.productive p.req.dst (e % 8) = true := by
  rw [State.goodPort_away hdst] at hgood
  rcases State.mem_diePorts.mp he with ⟨rfl, -⟩ | ⟨x, hx, -, rfl⟩
  · simp only [show e < 8 by omega, if_true, show e % 8 = e by omega] at hgood ⊢
    exact ⟨.inl trivial, by simp_all⟩
  · simp only [show ¬8 + x < 8 by omega, if_false, show 8 + x - 8 = x by omega, show (8 + x) % 8 = x by omega] at hgood ⊢
    exact ⟨.inr (by omega), by simp_all⟩

theorem State.pickPort_mem (s : State) {l : List Nat} (h : l ≠ []) : (s.pickPort l).1 ∈ l := by
  have hlt : (Config.freeWord s.freeCtr).toNat % l.length < l.length := Nat.mod_lt _ (List.length_pos_iff.mpr h)
  rw [State.pickPort, List.getD_eq_getElem _ _ hlt]
  exact List.getElem_mem hlt

/-! ### One switch (R338) -/

/-- A packet of this die is ejected, while the ejection port is free. -/
theorem State.switchPorts_ejects {s : State} {p : Packet} {d : Nat} (hp : s.packets = [p]) (hdst : p.req.dst = s.pkg)
    (hdie : p.req.dstDie = d) (free : List Nat) : s.switchPorts d [p] free true =
      ({ s with packets := [], agenda := insertDue { cycle := s.cycle, row := .peerIngress, args := .peer p.req } s.agenda }, free) := by
  simp [State.switchPorts, hdst, hdie, hp]

/-- The ports that a packet may leave by: the free productive ones if there are any, else every free one. -/
def State.portChoices (s : State) (p : Packet) (free : List Nat) : List Nat :=
  if (free.filter fun x => s.goodPort p x).isEmpty then free else free.filter fun x => s.goodPort p x

theorem State.portChoices_ne_nil {s : State} {p : Packet} {free : List Nat} (h : free ≠ []) : s.portChoices p free ≠ [] := by
  unfold State.portChoices
  split
  · exact h
  · rename_i hne
    exact fun h => hne (by rw [h]; rfl)

theorem State.portChoices_subset (s : State) (p : Packet) (free : List Nat) : s.portChoices p free ⊆ free := by
  unfold State.portChoices
  split
  · exact List.Subset.refl _
  · exact List.filter_subset_self _

theorem State.good_of_mem_portChoices {s : State} {p : Packet} {free : List Nat} (h : ∃ x ∈ free, s.goodPort p x = true) {e : Nat}
    (he : e ∈ s.portChoices p free) : s.goodPort p e = true := by
  obtain ⟨x, hx, hgood⟩ := h
  have hne : (free.filter fun x => s.goodPort p x).isEmpty = false :=
    List.isEmpty_eq_false_iff.mpr (List.ne_nil_of_mem (List.mem_filter.mpr ⟨hx, hgood⟩))
  rw [State.portChoices, hne] at he
  exact (List.mem_filter.mp he).2

/-- A packet that is not ejected leaves by a free port, a productive one if there is one. -/
theorem State.switchPorts_leaves {s : State} {p : Packet} {d : Nat} {free : List Nat} {eject : Bool} (hp : s.packets = [p])
    (hstay : ¬(p.req.dst = s.pkg ∧ p.req.dstDie = d ∧ eject = true)) (hfree : free ≠ []) :
    ∃ e ∈ free, ((∃ x ∈ free, s.goodPort p x = true) → s.goodPort p e = true) ∧ s.switchPorts d [p] free eject =
      ({ s with freeCtr := s.freeCtr + 1, packets := [p.leave e] }, free.filter fun x => decide (x ≠ e)) := by
  have hne := State.portChoices_ne_nil (s := s) (p := p) hfree
  have hmem := s.pickPort_mem hne
  refine ⟨_, s.portChoices_subset p free hmem, fun h => State.good_of_mem_portChoices h hmem, ?_⟩
  rw [State.switchPorts, if_neg hstay]
  show (if (s.portChoices p free).isEmpty then _ else _) = _
  rw [List.isEmpty_eq_false_iff.mpr hne]
  simp [State.switchPorts, State.modPacket, State.pickPort, hp, State.portChoices]

/-- Where no packet of the die waits, none enters. -/
theorem State.enterSwitch_none {s : State} {d : Nat} (h : ∀ p ∈ s.packets, s.waitsPort d p = false) (free : List Nat) (k : Nat) :
    s.enterSwitch d free k = s := by
  cases k with
  | zero => rfl
  | succ k =>
    have hnone (i : Nat) : (s.packets.find? fun p => s.waitsPort d p && decide (p.vc = (SMap.get 0 s.portTurn d + i) % 8)) = none :=
      List.find?_eq_none.mpr fun p hp => by simp [h p hp]
    simp only [State.enterSwitch, hnone]
    rw [List.findSome?_eq_none_iff.mpr fun _ _ => rfl]

theorem State.switchDie_quiet {s : State} {d : Nat} (hat : ∀ p ∈ s.packets, p.atSwitch = true → p.die ≠ d)
    (hwait : ∀ p ∈ s.packets, s.waitsPort d p = false) : s.switchDie d = s := by
  have hnone : (s.packets.filter fun p => p.atSwitch && decide (p.die = d)) = [] :=
    List.filter_eq_nil_iff.mpr fun p hp => by simpa using hat p hp
  simp only [State.switchDie, hnone, rankPackets, List.foldl_nil, State.switchPorts, State.enterSwitch_none hwait]

theorem State.waitsPort_iff {s : State} {d : Nat} {p : Packet} : s.waitsPort d p = true ↔
    p.die = d ∧ p.atSwitch = false ∧ p.port = none ∧ p.place = p.goal ∧ 0 < SMap.get 0 s.meshFree (meshKey p.place 4 p.vc) := by
  simp [State.waitsPort, and_assoc]

/-- Packets that are crossing, and those of other dies, leave a switch as it is. -/
theorem State.switchDie_apart {s : State} {d : Nat}
    (h : ∀ p ∈ s.packets, p.die ≠ d ∨ (p.atSwitch = false ∧ p.port.isSome = true)) : s.switchDie d = s := by
  refine State.switchDie_quiet (fun p hp hat => ?_) (fun p hp => ?_)
  · rcases h p hp with hd | ⟨hoff, -⟩
    · exact hd
    · simp [hat] at hoff
  · rw [Bool.eq_false_iff, ne_eq, State.waitsPort_iff]
    rintro ⟨hd, -, hport, -⟩
    rcases h p hp with hne | ⟨-, hsome⟩
    · exact hne hd
    · simp [hport] at hsome

theorem State.switchDie_ejects {s : State} {p : Packet} (hp : s.packets = [p]) (hat : p.atSwitch = true) (hdst : p.req.dst = s.pkg)
    (hdie : p.die = p.req.dstDie) : s.switchDie p.die =
      { s with packets := [], agenda := insertDue { cycle := s.cycle, row := .peerIngress, args := .peer p.req } s.agenda } := by
  have hall : (s.packets.filter fun q => q.atSwitch && decide (q.die = p.die)) = [p] := by simp [hp, hat]
  simp only [State.switchDie, hall, rankPackets, List.foldl_cons, List.foldl_nil, List.takeWhile_nil, List.dropWhile_nil, List.nil_append,
    List.append_nil, State.switchPorts_ejects hp hdst hdie.symm]
  exact State.enterSwitch_none (by simp) _ _

theorem State.switchDie_leaves {s : State} {p : Packet} (hp : s.packets = [p]) (hat : p.atSwitch = true) (hdst : p.req.dst ≠ s.pkg) :
    ∃ e ∈ s.diePorts p.die, ((∃ x ∈ s.diePorts p.die, s.goodPort p x = true) → s.goodPort p e = true) ∧
      s.switchDie p.die = { s with freeCtr := s.freeCtr + 1, packets := [p.leave e] } := by
  have hall : (s.packets.filter fun q => q.atSwitch && decide (q.die = p.die)) = [p] := by simp [hp, hat]
  obtain ⟨e, he, hgood, hswitch⟩ :=
    State.switchPorts_leaves (d := p.die) (eject := true) hp (fun h => hdst h.1) (s.diePorts_ne_nil p.die)
  refine ⟨e, he, hgood, ?_⟩
  simp only [State.switchDie, hall, rankPackets, List.foldl_cons, List.foldl_nil, List.takeWhile_nil, List.dropWhile_nil, List.nil_append,
    List.append_nil, hswitch]
  exact State.enterSwitch_none (by simp [State.waitsPort, Packet.leave]) _ _

/-- The round-robin turn of a switch comes to the channel of a packet that waits alone. -/
theorem State.findSome_waiting {s : State} {p : Packet} {d : Nat} (hp : s.packets = [p]) (hvc : p.vc < 8) (hwait : s.waitsPort d p = true)
    (turn : Nat) : ((List.range 8).findSome? fun i =>
      s.packets.find? fun p => s.waitsPort d p && decide (p.vc = (turn + i) % 8)) = some p := by
  cases h : (List.range 8).findSome? fun i => s.packets.find? fun p => s.waitsPort d p && decide (p.vc = (turn + i) % 8) with
  | none =>
    have hi := List.findSome?_eq_none_iff.mp h ((p.vc + 8 - turn % 8) % 8) (List.mem_range.mpr (Nat.mod_lt _ (by omega)))
    have hne : p.vc ≠ (turn + (p.vc + 8 - turn % 8) % 8) % 8 := by simpa [hp, hwait] using hi
    omega
  | some q =>
    obtain ⟨i, -, hi⟩ := List.exists_of_findSome?_eq_some h
    have hq := List.mem_of_find?_eq_some hi
    rw [hp, List.mem_singleton] at hq
    rw [hq]

/-- The turn of the switch of die `d` goes on to channel `c`. -/
def State.turnTo (s : State) (d c : Nat) : State := { s with portTurn := SMap.set 0 s.portTurn d c }

/-- A packet that waits alone takes a port of the switch, and the turn goes on. -/
theorem State.enterSwitch_alone {s : State} {p : Packet} {d : Nat} {free : List Nat} (hp : s.packets = [p]) (hvc : p.vc < 8)
    (hwait : s.waitsPort d p = true) (hfree : free ≠ []) (k : Nat) :
    ∃ e ∈ free, s.enterSwitch d free (k + 1) = { s.turnTo d (p.vc + 1) with freeCtr := s.freeCtr + 1, packets := [p.leave e] } := by
  obtain ⟨e, he, -, hswitch⟩ := State.switchPorts_leaves (s := s.turnTo d (p.vc + 1)) (d := d) (eject := false) hp (by simp) hfree
  have hless : (free.filter fun x => decide (x ≠ e)).length < free.length :=
    List.length_filter_lt_length_iff_exists.mpr ⟨e, he, by simp⟩
  refine ⟨e, he, ?_⟩
  simp only [State.enterSwitch, State.findSome_waiting hp hvc hwait]
  show (let r := (s.turnTo d (p.vc + 1)).switchPorts d [p] free false
    if r.2.length < free.length then r.1.enterSwitch d r.2 k else s) = _
  rw [hswitch]
  refine (if_pos hless).trans (State.enterSwitch_none (fun q hq => ?_) _ k)
  rw [List.mem_singleton.mp hq, State.waitsPort, Packet.leave]
  simp

/-- A packet of the mesh enters the switch of its die and leaves by a port of it in the same cycle. -/
theorem State.switchDie_enters {s : State} {p : Packet} (hp : s.packets = [p]) (hvc : p.vc < 8) (hwait : s.waitsPort p.die p = true) :
    ∃ e ∈ s.diePorts p.die, s.switchDie p.die =
      { s.turnTo p.die (p.vc + 1) with freeCtr := s.freeCtr + 1, packets := [p.leave e] } := by
  obtain ⟨-, hoff, -⟩ := State.waitsPort_iff.mp hwait
  have hnone : (s.packets.filter fun q => q.atSwitch && decide (q.die = p.die)) = [] := by simp [hp, hoff]
  simp only [State.switchDie, hnone, rankPackets, List.foldl_nil, State.switchPorts]
  exact State.enterSwitch_alone hp hvc hwait (s.diePorts_ne_nil p.die) 5

/-- A cycle of the switches in which only that of die `k` has anything to do. -/
theorem State.foldl_switchDie_at {s t : State} {k : Nat} (hk : k < 6) (hat : s.switchDie k = t)
    (hbefore : ∀ e, e ≠ k → s.switchDie e = s) (hafter : ∀ e, e ≠ k → t.switchDie e = t) :
    (List.range 6).foldl State.switchDie s = t := by
  interval_cases k <;> simp [List.range_succ, hat, hbefore, hafter]

/-! ### A cycle of the switches -/

theorem State.packets_self {s : State} {l : List Packet} (h : s.packets = l) : { s with packets := l } = s := by
  rw [← h]

/-- A packet that is not crossing stays where it is. -/
theorem State.crossed_standing {s : State} {p : Packet} (hp : s.packets = [p]) (hport : p.port = none) : s.crossed = s := by
  simp [State.crossed, hp, hport, State.packets_self]

/-- A packet on the way to die `d` reaches it. -/
theorem State.crossed_way {s : State} {p : Packet} {d : Nat} (hp : s.packets = [p]) (hport : p.port = some (8 + d)) :
    s.crossed = { s with packets := [{ p with die := d, atSwitch := true, port := none }] } := by
  simp [State.crossed, hp, hport]

/-- A packet that crosses a link to another package leaves this one. -/
theorem State.crossed_link {s : State} {p : Packet} {e : Nat} (hp : s.packets = [p]) (hport : p.port = some e) (he : e < 6)
    (hext : s.extent (e / 2) ≠ 1) : s.crossed = { s with packets := [] } := by
  simp [State.crossed, hp, hport, hext, show ¬8 ≤ e by omega]

theorem exec_switchCycle {s : State} (hev : s.ev = .none) :
    exec .switchCycle s = .next ((List.range 6).foldl State.switchDie s.crossed) := by
  show execSwitchCycle s = _
  rw [execSwitchCycle, hev]

/-- With no packet left to switch nothing more happens. -/
theorem exec_switchCycle_gone {s : State} (hev : s.ev = .none) (hp : s.crossed.packets = []) : exec .switchCycle s = .next s.crossed := by
  rw [exec_switchCycle hev, List.foldl_fixed' fun d => State.switchDie_apart (by simp [hp])]

/-- The cycle for a packet that stands alone: what the switch of its die makes of it, once nothing is left for another switch. -/
theorem exec_switchCycle_alone {s u t : State} {p : Packet} (hev : s.ev = .none) (hcross : s.crossed = u) (hp : u.packets = [p])
    (hdie : p.die < 6) (hat : u.switchDie p.die = t) (hgone : ∀ q ∈ t.packets, q.atSwitch = false ∧ q.port.isSome = true) :
    exec .switchCycle s = .next t := by
  rw [exec_switchCycle hev, hcross, State.foldl_switchDie_at hdie hat]
  · exact fun e he => State.switchDie_apart (by simpa [hp] using .inl he.symm)
  · exact fun e _ => State.switchDie_apart fun q hq => .inr (hgone q hq)

/-- A packet for this die is ejected. -/
theorem exec_switchCycle_ejects {s u : State} {p : Packet} (hev : s.ev = .none) (hcross : s.crossed = u) (hp : u.packets = [p])
    (hat : p.atSwitch = true) (hdst : p.req.dst = u.pkg) (hdie : p.die = p.req.dstDie) (hlt : p.die < 6) : exec .switchCycle s =
      .next { u with packets := [], agenda := insertDue { cycle := u.cycle, row := .peerIngress, args := .peer p.req } u.agenda } :=
  exec_switchCycle_alone hev hcross hp hlt (State.switchDie_ejects hp hat hdst hdie) (by simp)

/-- Nothing arrives by a link that is down. -/
theorem exec_switchCycle_linkDown {s : State} {p : Packet} (hev : s.ev = .packet p) (hdown : s.linksDown.contains p.die = true) :
    exec .switchCycle s = .next s := by
  show execSwitchCycle s = _
  simp [execSwitchCycle, hev, List.contains_iff_mem.mp hdown]

/-- A packet arrives by the link of its die. -/
theorem exec_switchCycle_arrives {s : State} {p : Packet} (hev : s.ev = .packet p) (hdie : p.die < 6)
    (hup : s.linksDown.contains p.die = false) : exec .switchCycle s =
      .next { s with nextId := s.nextId + 1,
                     packets := s.packets ++ [{ p with id := s.nextId, owner := .none, atSwitch := true, port := none }] } := by
  show execSwitchCycle s = _
  rw [execSwitchCycle, hev]
  exact if_neg (by simpa [hdie] using hup)

end Sys2Proof.Machine
end

section
/-!
The packets of the fabric: the statement about them, clause by clause.
-/

namespace Sys2Proof.Machine

/-- The first clauses of O54: what becomes of a packet in the mesh, at the switches and on the links. -/
theorem claimPackets : Claim.Packets := by
  refine ⟨?mesh, ?eject, ?away, ?enter, ?link, ?arrive⟩
  case mesh =>
    intro s p hev hp hgo
    obtain ⟨d, hd, hexec⟩ := exec_meshRoute hev hp hgo
    refine ⟨_, _, hexec, rfl, meshDist_beyond hd, rfl, rfl, ?_, rfl, fun hfull => ?_⟩
    · intro h; simp [h]
    · have hnone : s.openPorts p = [] := List.filter_eq_nil_iff.mpr fun d hd => by simp [meshKey, hfull d hd]
      simp [hnone]
  case eject =>
    intro s p hev hp hdst hdie hplace
    rcases hplace with ⟨hat, hport, hd⟩ | hport
    · have hexec := exec_switchCycle_ejects hev (State.crossed_standing hp hport) hp hat hdst hd (hd ▸ hdie)
      exact ⟨_, hexec, rfl, rfl, _, mem_insertDue.mpr (.inl rfl), rfl, rfl, rfl⟩
    · have hexec := exec_switchCycle_ejects hev (State.crossed_way hp hport) rfl rfl hdst rfl hdie
      exact ⟨_, hexec, rfl, rfl, _, mem_insertDue.mpr (.inl rfl), rfl, rfl, rfl⟩
  case away =>
    intro s p d hev hp hat hport hdie hdst hd hup hprod
    obtain ⟨e, he, hgood, hswitch⟩ := State.switchDie_leaves hp hat hdst
    have hexec := exec_switchCycle_alone hev (State.crossed_standing hp hport) hp hdie hswitch (by simp [Packet.leave])
    obtain ⟨hport, hdown, hway⟩ := State.goodPort_spec hdie hdst he (hgood (State.exists_goodPort hdst hd hup hprod))
    exact ⟨_, _, e, hexec, rfl, rfl, rfl, hport, hdown, hway, rfl, rfl, rfl, rfl⟩
  case enter =>
    intro s p hev hp hat hport hdie hgoal hvc hfree
    have hwait : s.waitsPort p.die p = true := State.waitsPort_iff.mpr ⟨rfl, hat, hport, hgoal, hfree⟩
    obtain ⟨e, he, hswitch⟩ := State.switchDie_enters hp hvc hwait
    have hexec := exec_switchCycle_alone hev (State.crossed_standing hp hport) hp hdie hswitch (by simp [Packet.leave])
    exact ⟨_, _, e, hexec, rfl, rfl, he, rfl, rfl, rfl, rfl⟩
  case link =>
    intro s p e hev hp hport he hext
    have hcross := State.crossed_link hp hport he hext
    refine ⟨_, exec_switchCycle_gone hev (by rw [hcross]), ?_⟩
    simp [hcross]
  case arrive =>
    intro s p hev hdie
    exact ⟨exec_switchCycle_linkDown hev, fun hup => ⟨_, exec_switchCycle_arrives hev hdie hup, rfl, rfl⟩⟩

end Sys2Proof.Machine
end

section
/-!
SUPPORT. Accesses that arrive and answers (R244, R256, R258, R262): what the ingress comes to, case by case, and what it leaves alone.
-/

namespace Sys2Proof.Machine

/-! ### What the steps of an access leave alone -/

/-- The tracker and the bursts of an access change no memory, no mapping and no core. -/
theorem State.hit_traffic_eq (s : State) (a n : Nat) (k : Traffic) : ∃ hits seen ctrs moves,
    (s.hit a n).traffic a n k = { s with hits := hits, hitSeen := seen, chanCtrs := ctrs, moves := moves } := by
  rw [State.traffic, State.bursts_eq, State.hit_eq]
  exact ⟨_, _, _, _, rfl⟩

/-- A packet that enters the mesh changes the packets and their numbers only. -/
theorem State.inject_eq (s : State) (o : Owner) (place : Nat) (r : PeerReq) : ∃ id seqs packets,
    s.inject o place r = { s with nextId := id, seqs := seqs, packets := packets } := ⟨_, _, _, rfl⟩

/-- So does a response. -/
theorem State.respond_eq (s : State) (r : PeerReq) (fail n v : Nat) : ∃ id seqs packets,
    s.respond r fail n v = { s with nextId := id, seqs := seqs, packets := packets } := by
  unfold State.respond
  split
  · exact ⟨_, _, _, rfl⟩
  · exact State.inject_eq ..

@[simp] theorem State.respond_mem (s : State) (r : PeerReq) (fail n v : Nat) : (s.respond r fail n v).mem = s.mem := by
  obtain ⟨_, _, _, h⟩ := s.respond_eq r fail n v; rw [h]

@[simp] theorem State.respond_adds (s : State) (r : PeerReq) (fail n v : Nat) : (s.respond r fail n v).adds = s.adds := by
  obtain ⟨_, _, _, h⟩ := s.respond_eq r fail n v; rw [h]

@[simp] theorem State.respond_byte (s : State) (r : PeerReq) (fail n v pa : Nat) : (s.respond r fail n v).byte pa = s.byte pa := by
  obtain ⟨_, _, _, h⟩ := s.respond_eq r fail n v; rw [h]; rfl

/-- The response to an access of another package of the torus is a packet for it. -/
theorem State.respond_answers {s : State} {r : PeerReq} (hsrc : r.src ≠ s.pkg) (hin : s.inTorus r.src = true) (fail n v : Nat) :
    ∃ p ∈ (s.respond r fail n v).packets, p.req.dst = r.src ∧ p.req.op = .answer r.id fail n v := by
  rw [State.respond, if_neg (by simp [hsrc, hin]), State.inject]
  exact ⟨_, List.mem_append_right _ (List.mem_singleton_self _), rfl, rfl⟩

theorem State.bytes_writeN {s : State} {pa n : Nat} (h : (s.mediaRange pa n).Nodup) (v : Nat) :
    (s.writeN pa n v).bytes pa n = leBytes n v := by
  have back : (s.setBytes pa (leBytes n v)).bytes pa (leBytes n v).length = leBytes n v :=
    State.bytes_setBytes s pa _ (by rwa [length_leBytes])
  rwa [length_leBytes] at back

theorem State.sameBytesBut_writeN (s : State) (pa n v : Nat) : s.sameBytesBut (s.writeN pa n v) (s.mediaRange pa n) :=
  fun q hq => State.byte_setBytes_other s pa _ q (by rwa [length_leBytes])

/-! ### The ingress -/

/-- Whether an access performs something at an address of the package it reaches. -/
def PeerOp.performs : PeerOp → Bool
  | .answer .. | .mcast .. => false
  | _ => true

/-- Whether it stores there. -/
def PeerOp.stores : PeerOp → Bool
  | .load _ => false
  | _ => true

/-- An access that must follow others comes again in the next cycle. -/
theorem exec_peerIngress_waits {s : State} {r : PeerReq} (hev : s.ev = .peer r) (hwait : s.ingressWaits r = true) :
    exec .peerIngress s =
      .next { s with agenda := insertDue { cycle := s.cycle + 1, row := .peerIngress, args := .peer r } s.agenda } := by
  show execPeerIngress s = _
  simp only [execPeerIngress, hev, hwait, if_true]

/-- An access that has none to follow is performed where its window leads, and answered; where it leads nowhere it fails as PROT. -/
theorem exec_peerIngress_goes {s : State} {r : PeerReq} (hev : s.ev = .peer r) (hgo : s.ingressWaits r = false)
    (hop : PeerOp.performs r.op = true) : exec .peerIngress s = .next ((s.ingress r.aperture (PeerOp.stores r.op)).elim
      (s.fresh.respond r cPROT 0 0) fun a =>
        (s.fresh.performPeer a r.op).1.respond r 0 (PeerOp.answerBytes r.op) (s.fresh.performPeer a r.op).2) := by
  show execPeerIngress s = _
  unfold execPeerIngress
  split
  · rename_i q hq
    obtain rfl : r = q := by simpa [hev] using hq
    rw [if_neg (by simp [hgo])]
    split
    · rename_i h; simp [PeerOp.performs, h] at hop
    · rename_i h; simp [PeerOp.performs, h] at hop
    · change (match s.ingress r.aperture (PeerOp.stores r.op) with | none => _ | some a => _) = _
      cases s.ingress r.aperture (PeerOp.stores r.op) <;> rfl
  · rename_i h; exact absurd hev (h r)

/-- A store that is performed writes its bytes; besides memory only the tracker and the pseudo-channels change. -/
theorem State.performPeer_store (s : State) (a n d : Nat) : ∃ hits seen ctrs moves,
    s.performPeer a (.store n d) =
      (({ s with hits := hits, hitSeen := seen, chanCtrs := ctrs, moves := moves } : State).writeN a n d, 0) := by
  obtain ⟨hits, seen, ctrs, moves, h⟩ := s.hit_traffic_eq a n .write
  exact ⟨hits, seen, ctrs, moves, by rw [State.performPeer, h]⟩

/-- A load that is performed brings the bytes there, and changes no memory. -/
theorem State.performPeer_load (s : State) (a n : Nat) : ∃ hits seen ctrs moves,
    s.performPeer a (.load n) = ({ s with hits := hits, hitSeen := seen, chanCtrs := ctrs, moves := moves }, s.readN a n) := by
  obtain ⟨hits, seen, ctrs, moves, h⟩ := s.hit_traffic_eq a n .read
  exact ⟨hits, seen, ctrs, moves, by rw [State.performPeer, h]⟩

theorem mem_insertAdd {a x : AddReq} {l : List AddReq} : x ∈ insertAdd a l ↔ x = a ∨ x ∈ l := by
  induction l with
  | nil => simp [insertAdd]
  | cons b t ih =>
    simp only [insertAdd]
    split
    · simp only [List.mem_cons, ih]; tauto
    · simp

/-! ### Answers -/

/-- An answer comes after no other access (R256): it never waits. -/
theorem State.ingressWaits_answer {s : State} {r : PeerReq} {id fail k v : Nat} (hop : r.op = .answer id fail k v) :
    s.ingressWaits r = false := by
  have hnever (q : PeerReq) : PeerReq.mustFollow r q = false := by simp [PeerReq.mustFollow, hop]
  simp only [State.ingressWaits, hnever, Bool.or_eq_false_iff, List.any_eq_false]
  refine ⟨by simp, fun d _ => ?_⟩
  cases d.args <;> simp

/-- A response goes to the access that awaits it. -/
theorem exec_peerIngress_answer {s : State} {r : PeerReq} {id fail k v : Nat} (hev : s.ev = .peer r) (hop : r.op = .answer id fail k v) :
    exec .peerIngress s = .next (s.fresh.answer id fail k v) := by
  show execPeerIngress s = _
  unfold execPeerIngress
  split
  · rename_i q hq
    obtain rfl : r = q := by simpa [hev] using hq
    rw [if_neg (by simp [State.ingressWaits_answer hop]), hop]
    rfl
  · rename_i h; exact absurd hev (h r)

@[simp] theorem State.trapHeld_agenda (s : State) (h : Hold) (cause : Nat) (info : Word) :
    (s.trapHeld h cause info).agenda = s.agenda := rfl

@[simp] theorem State.writeN_agenda (s : State) (pa n v : Nat) : (s.writeN pa n v).agenda = s.agenda := by
  obtain ⟨m, hm⟩ := State.writeN_eq s pa n v; rw [hm]

@[simp] theorem State.writeN_pkg (s : State) (pa n v : Nat) : (s.writeN pa n v).pkg = s.pkg := by
  obtain ⟨m, hm⟩ := State.writeN_eq s pa n v; rw [hm]

@[simp] theorem State.writeN_inTorus (s : State) (pa n v p : Nat) : (s.writeN pa n v).inTorus p = s.inTorus p := by
  obtain ⟨m, hm⟩ := State.writeN_eq s pa n v; rw [hm]; rfl

theorem State.hasten_nil {s : State} (h : s.agenda = []) (f : Due → Bool) : s.hasten f = s := by
  simp [State.hasten, h]

/-- Cluster `c` of core `n` is held by `h` since cycle `since`, as an access is that awaits its response. -/
structure State.Blocked (s : State) (n c since : Nat) (h : Hold) : Prop where
  held : (s.cluster n c).act = .waiting h
  since_eq : h.since = since
  blocking : h.kind = .blocking

theorem State.Blocked.hold {s : State} {n c since : Nat} {h : Hold} (hb : s.Blocked n c since h) :
    (s.cluster n c).hold? = some h := by
  simp [Cluster.hold?, hb.held]

/-- A failure ends the wait of a blocked access with a trap. -/
theorem State.answerFails_blocked {s : State} {n c since : Nat} {h : Hold} (hb : s.Blocked n c since h) (cause : Nat) :
    s.answerFails (.blocked n c since) cause = ({ s with curCore := n, curCl := c } : State).trapHeld h cause h.ea := by
  simp [State.answerFails, hb.hold, hb.since_eq, hb.blocking]

/-- The only access that awaits a response is a blocked one, under number `id`, and reads to address `a`. -/
def State.AwaitsOne (s : State) (id n c since a : Nat) : Prop :=
  ∃ x : Due, s.agenda = [x] ∧ x.row = .peerTimeout ∧ x.args.nat 7 = id ∧ x.args.nat 8 = a ∧ x.owner = .blocked n c since

theorem State.AwaitsOne.answer_fails {s : State} {id n c since a fail k v : Nat} {h : Hold} (hone : s.AwaitsOne id n c since a)
    (hb : s.Blocked n c since h) (hfail : fail ≠ 0) : s.answer id fail k v =
      ({ s with agenda := [], curCore := n, curCl := c } : State).trapHeld h fail h.ea := by
  obtain ⟨x, hag, hrow, hid, -, howner⟩ := hone
  have hb' : ({ s with agenda := [] } : State).Blocked n c since h := ⟨hb.held, hb.since_eq, hb.blocking⟩
  simp only [State.answer, hag, List.find?_cons, hrow, hid, decide_true, Bool.and_self, howner, List.erase_cons_head, if_pos hfail,
    State.answerFails_blocked hb', State.trapHeld_agenda, List.any_nil, Bool.false_eq_true, if_false]
  exact State.hasten_nil rfl _

theorem State.AwaitsOne.answer_reads {s : State} {id n c since a k v : Nat} (hone : s.AwaitsOne id n c since a) (hk : k ≠ 0) :
    s.answer id 0 k v = ({ s with agenda := [] } : State).writeN a k v := by
  obtain ⟨x, hag, hrow, hid, ha, howner⟩ := hone
  simp only [State.answer, hag, List.find?_cons, hrow, hid, decide_true, Bool.and_self, howner, List.erase_cons_head, ne_eq,
    not_true_eq_false, if_false, if_neg hk, ha, State.writeN_agenda, List.any_nil, Bool.false_eq_true]
  exact State.hasten_nil (State.writeN_agenda ..) _

end Sys2Proof.Machine
end

section
/-!
Accesses that arrive at the package: the statement about them, clause by clause.
-/

namespace Sys2Proof.Machine

/-- The clauses of O54 on accesses that arrive: they wait, are performed or refused, and are answered. -/
theorem claimPeerAccesses : Claim.PeerAccesses := by
  refine ⟨?waits, ?arrives, ?answered⟩
  case waits =>
    intro s r hev hwait
    exact ⟨_, exec_peerIngress_waits hev hwait, rfl, rfl, _, mem_insertDue.mpr (.inl rfl), rfl, rfl, rfl⟩
  case arrives =>
    intro s r hev hgo answers
    have hgoes := fun hop => exec_peerIngress_goes (r := r) hev hgo hop
    refine ⟨?store, ?load, ?add, ?refused⟩
    case store =>
      intro n d a hop ha hnodup
      obtain ⟨hits, seen, ctrs, moves, hput⟩ := s.fresh.performPeer_store a n d
      simp only [hop, PeerOp.performs, PeerOp.stores, ha, Option.elim_some, hput, PeerOp.answerBytes, forall_const] at hgoes
      refine ⟨_, hgoes, ?_, fun pa hpa => ?_, fun hsrc hin => ?_⟩
      · exact (State.bytes_congr (fun _ => State.respond_byte ..) a n).trans (State.bytes_writeN (by exact hnodup) d)
      · exact (State.respond_byte ..).trans (State.sameBytesBut_writeN _ a n d pa hpa)
      · exact State.respond_answers (by rwa [State.writeN_pkg]) (by rwa [State.writeN_inTorus]) ..
    case load =>
      intro n a hop ha
      obtain ⟨hits, seen, ctrs, moves, hget⟩ := s.fresh.performPeer_load a n
      simp only [hop, PeerOp.performs, PeerOp.stores, ha, Option.elim_some, hget, PeerOp.answerBytes, forall_const] at hgoes
      have hread : s.fresh.readN a n = s.readN a n := State.readN_congr (s := s) (t := s.fresh) (fun _ => rfl) a n
      exact ⟨_, hgoes, State.respond_mem .., fun hsrc hin => hread ▸ State.respond_answers (by exact hsrc) (by exact hin) ..⟩
    case add =>
      intro v a hop ha
      simp only [hop, PeerOp.performs, PeerOp.stores, ha, Option.elim_some, forall_const] at hgoes
      refine ⟨_, hgoes, State.respond_mem .., { ctr := .page a 0, amount := v, src := .silent false }, ?_, rfl, rfl⟩
      rw [State.respond_adds]
      exact mem_insertAdd.mpr (.inl rfl)
    case refused =>
      rintro ch (⟨⟨n, hop⟩, rfl⟩ | ⟨⟨n, d, hop⟩, rfl⟩) ha <;>
      · simp only [hop, PeerOp.performs, PeerOp.stores, ha, Option.elim_none, forall_const] at hgoes
        exact hgoes
  case answered =>
    intro s r x pkg n c since m sent id ad fail k v h hev hop hag hrow hargs hheld hsince hkind
    have hone : s.fresh.AwaitsOne id n c since ad :=
      ⟨x, hag, hrow, by rw [hargs]; rfl, by rw [hargs]; rfl, by rw [Due.owner, hargs]; rfl⟩
    have hb : s.fresh.Blocked n c since h := ⟨hheld, hsince, hkind⟩
    have hexec := exec_peerIngress_answer hev hop
    refine ⟨fun hfail => ?_, fun hfail hk hv hnodup => ?_⟩
    · rw [hone.answer_fails hb hfail] at hexec
      exact ⟨_, hexec, rfl, rfl, rfl, rfl, rfl⟩
    · subst hfail
      rw [hone.answer_reads hk] at hexec
      have hfits : v < 256 ^ k := by rwa [show (256 : Nat) = 2 ^ 8 from rfl, ← Nat.pow_mul]
      exact ⟨_, hexec, State.readN_writeN hnodup hfits, fun pa hpa => State.sameBytesBut_writeN _ ad k v pa hpa, State.writeN_cores ..,
        State.writeN_agenda ..⟩

end Sys2Proof.Machine
end

section
/-!
SUPPORT. Lost peers and links (R339, R341, R342, R367): what PEER_TIMEOUT and LINK_DOWN come to, case by case, and what they leave alone.
-/

namespace Sys2Proof.Machine

/-! ### What the egress leaves alone -/

/-- From `s` to `t` accesses have been sent: only the packets, their numbers and the agenda have changed. -/
def State.Sends (s t : State) : Prop :=
  ∃ id seqs packets agenda, t = { s with nextId := id, seqs := seqs, packets := packets, agenda := agenda }

theorem State.Sends.refl (s : State) : s.Sends s := ⟨_, _, _, _, rfl⟩

theorem State.Sends.trans {s t u : State} (h : s.Sends t) (g : t.Sends u) : s.Sends u := by
  obtain ⟨_, _, _, _, rfl⟩ := h
  obtain ⟨_, _, _, _, rfl⟩ := g
  exact ⟨_, _, _, _, rfl⟩

theorem State.Sends.foldl {α : Type} {f : State → α → State} (h : ∀ (s : State) (a : α), s.Sends (f s a)) (l : List α)
    (s : State) : s.Sends (l.foldl f s) := by
  induction l generalizing s with
  | nil => exact .refl s
  | cons a t ih => exact (h s a).trans (ih (f s a))

theorem State.sendAwait_sends (s : State) (o : Owner) (n ent a : Nat) (sync : Bool) (op : PeerOp) (who : List Nat) :
    s.Sends (s.sendAwait o n ent a sync op who) := ⟨_, _, _, _, rfl⟩

/-- The egress of a wait only sends. -/
theorem State.sendHold_sends (s : State) (n c : Nat) (h : Hold) : s.Sends (s.sendHold n c h) :=
  .foldl (fun s _ => .foldl (fun s _ => s.sendAwait_sends ..) _ s) _ s

/-! ### What the event log leaves alone (R367) -/

/-- The event log holds `flog`, and counts `count` events. -/
def State.withLog (s : State) (flog : SMap Nat) (count : Nat) : State := { s with flog := flog, flogCnt := count }

/-- A recorded event changes the log and its count only. What stands in the log is left open here: its entries are large sums, which a
comparison of whole states need not look into. -/
theorem State.logFabric_eq (s : State) (kind die pkg vi : Nat) : ∃ flog count, count = (s.flogCnt + 1) % 2 ^ 32 ∧
    s.logFabric kind die pkg vi = s.withLog flog count := ⟨_, _, rfl, rfl⟩

/-! ### PEER_TIMEOUT (R339) -/

/-- The owner of the access that PEER_TIMEOUT names in its operands. -/
def State.timedOwner (s : State) : Owner := ({ cycle := s.cycle, row := .peerTimeout, args := s.ev } : Due).owner

/-- The interface whose access it is, unless it is a multicast row. -/
def State.timedVif (s : State) : Nat := (s.core (s.ev.nat 2)).vifn.toNat

theorem State.timedOwner_eq (s : State) :
    ({ cycle := s.cycle, row := .peerTimeout, args := s.ev } : Due).owner = s.timedOwner := rfl

theorem State.timedOwner_ne_row {s : State} (h : s.ev.nat 0 < 3) (i : Nat) : s.timedOwner ≠ .row i := by
  have hcases : s.ev.nat 0 = 0 ∨ s.ev.nat 0 = 1 ∨ s.ev.nat 0 = 2 := by omega
  rcases hcases with h0 | h0 | h0 <;> simp [State.timedOwner, Due.owner, h0]

/-- PEER_TIMEOUT of an access that is still open and no multicast row's. -/
theorem exec_peerTimeout {s : State} (hkind : s.ev.nat 0 < 3) (hopen : s.openFor s.timedOwner = true) : exec .peerTimeout s =
    if s.cycle < s.ev.nat 6 + 2 ^ 19 ∧ s.routed = true then .next (s.schedule (s.ev.nat 6 + 2 ^ 19) .peerTimeout s.ev)
    else if s.ev.nat 5 = 1 then
      if (s.loseCopy s.timedVif (s.ev.nat 1) (coreDie (s.ev.nat 2))).copyLeft s.timedVif (s.ev.nat 1) = true then
        .next ((s.loseCopy s.timedVif (s.ev.nat 1) (coreDie (s.ev.nat 2))).reissue s.timedOwner)
      else .next ((s.loseCopy s.timedVif (s.ev.nat 1) (coreDie (s.ev.nat 2))).losePeer s.timedOwner (s.ev.nat 1))
    else .next ((s.logFabric 3 (coreDie (s.ev.nat 2)) (s.ev.nat 1) s.timedVif).losePeer s.timedOwner (s.ev.nat 1)) := by
  show execPeerTimeout s = _
  simp only [execPeerTimeout, State.timedOwner_eq, hopen, show s.ev.nat 0 ≠ 3 by omega, Bool.not_true, Bool.false_eq_true, if_false]
  cases ho : s.timedOwner with
  | row i => exact absurd ho (State.timedOwner_ne_row hkind i)
  | none | blocked | ldq | posted => rfl

theorem not_early {s : State} {sent : Nat} (h : sent + 2 ^ 19 ≤ s.cycle ∨ s.routed = false) :
    ¬(s.cycle < sent + 2 ^ 19 ∧ s.routed = true) := by
  rintro ⟨hearly, hroute⟩
  rcases h with h | h
  · omega
  · simp [h] at hroute

section
variable {s : State} (hkind : s.ev.nat 0 < 3) (hopen : s.openFor s.timedOwner = true)
include hkind hopen

/-- Before its time, and with a route left, it goes on waiting. -/
theorem exec_peerTimeout_early (h : ¬(s.ev.nat 6 + 2 ^ 19 ≤ s.cycle ∨ s.routed = false)) :
    exec .peerTimeout s = .next (s.schedule (s.ev.nat 6 + 2 ^ 19) .peerTimeout s.ev) := by
  rw [exec_peerTimeout hkind hopen, if_pos (by simpa using h)]

variable (hlate : s.ev.nat 6 + 2 ^ 19 ≤ s.cycle ∨ s.routed = false)
include hlate

/-- Then one to a page that is not mirrored has lost its peer, and that is recorded. -/
theorem exec_peerTimeout_plain (hm : s.ev.nat 5 ≠ 1) : ∃ flog count, count = (s.flogCnt + 1) % 2 ^ 32 ∧
    exec .peerTimeout s = .next ((s.withLog flog count).losePeer s.timedOwner (s.ev.nat 1)) := by
  obtain ⟨flog, count, hcount, hlog⟩ := s.logFabric_eq 3 (coreDie (s.ev.nat 2)) (s.ev.nat 1) s.timedVif
  exact ⟨flog, count, hcount, by rw [exec_peerTimeout hkind hopen, if_neg (not_early hlate), if_neg hm, hlog]⟩

/-- One to a mirrored page has lost a copy, and goes on while another is left. -/
theorem exec_peerTimeout_mirrored (hm : s.ev.nat 5 = 1) {u : State}
    (hu : u = s.loseCopy s.timedVif (s.ev.nat 1) (coreDie (s.ev.nat 2))) :
    exec .peerTimeout s = .next (if u.copyLeft s.timedVif (s.ev.nat 1) = true then u.reissue s.timedOwner
      else u.losePeer s.timedOwner (s.ev.nat 1)) := by
  rw [exec_peerTimeout hkind hopen, if_neg (not_early hlate), if_pos hm, ← hu]
  exact (apply_ite Host.Outcome.next _ _ _).symm

end

/-! ### The mirror map (R341) -/

/-- The copies that the pairs of an interface have in a package are lost. -/
def State.withoutCopies (s : State) (vi pkg : Nat) : State :=
  { s with mirrors := SMap.set [] s.mirrors vi ((SMap.get [] s.mirrors vi).map fun (p : MirrorPair) =>
      { p with lostP := p.lostP || decide (p.primary = pkg), lostS := p.lostS || decide (p.secondary = pkg) }) }

/-- The loss of copies is recorded. -/
theorem State.loseCopy_eq (s : State) (vi pkg die : Nat) : ∃ flog count, count = (s.flogCnt + 1) % 2 ^ 32 ∧
    s.loseCopy vi pkg die = (s.withoutCopies vi pkg).withLog flog count :=
  (s.withoutCopies vi pkg).logFabric_eq _ die pkg vi

/-- The only pair of an interface loses its primary copy. -/
theorem State.withoutCopies_primary {s : State} {vi pkg : Nat} {y : MirrorPair} (hl : SMap.get [] s.mirrors vi = [y])
    (hp : y.primary = pkg) (hs : y.secondary ≠ pkg) :
    SMap.get [] (s.withoutCopies vi pkg).mirrors vi = [{ y with lostP := true }] := by
  simp [State.withoutCopies, hl, hp, hs]

/-- With the primary copy of the only pair lost, a copy is left while the secondary is not. -/
theorem State.copyLeft_secondary {s : State} {vi pkg : Nat} {y : MirrorPair} (hl : SMap.get [] s.mirrors vi = [{ y with lostP := true }])
    (hp : y.primary = pkg) : s.copyLeft vi pkg = !y.lostS := by
  simp [State.copyLeft, hl, hp]

/-! ### What becomes of the access -/

theorem State.Blocked.openFor {s : State} {n c since : Nat} {h : Hold} (hb : s.Blocked n c since h) :
    s.openFor (.blocked n c since) = true := by
  simp [State.openFor, hb.hold, hb.since_eq, hb.blocking]

theorem State.Blocked.withLog {s : State} {n c since : Nat} {h : Hold} (hb : s.Blocked n c since h) (flog : SMap Nat) (count : Nat) :
    (s.withLog flog count).Blocked n c since h := ⟨hb.held, hb.since_eq, hb.blocking⟩

theorem State.Blocked.withoutCopies {s : State} {n c since : Nat} {h : Hold} (hb : s.Blocked n c since h) (vi pkg : Nat) :
    (s.withoutCopies vi pkg).Blocked n c since h := ⟨hb.held, hb.since_eq, hb.blocking⟩

/-- A blocked access that has lost its peer traps with MIRRFAIL. -/
theorem State.losePeer_blocked {s : State} {n c since : Nat} {h : Hold} (hb : s.Blocked n c since h) (pkg : Nat) :
    s.losePeer (.blocked n c since) pkg =
      ({ s.dropCompletion (.blocked n c since) with curCore := n, curCl := c } : State).trapHeld h cMIRRFAIL h.ea := by
  have hhold : ((s.dropCompletion (.blocked n c since)).cluster n c).hold? = some h := hb.hold
  simp only [State.losePeer, hhold]

/-- One that is sent again completes after an open time. -/
theorem State.resend_blocked {s : State} {n c since : Nat} {h : Hold} (hb : s.Blocked n c since h) : s.resend (.blocked n c since) =
    (({ s.dropCompletion (.blocked n c since) with curCore := n, curCl := c } : State).sendHold n c h).scheduleOpen 1
      .blockingCompletion (.nats [n, c, since]) := by
  simp only [State.resend, hb.hold]

/-- One that goes on is sent again. -/
theorem State.reissue_blocked {s : State} {n c since : Nat} {h : Hold} (hb : s.Blocked n c since h) : ∃ agenda t,
    ({ s with agenda := agenda, curCore := n, curCl := c } : State).Sends t ∧
      s.reissue (.blocked n c since) = t.scheduleOpen 1 .blockingCompletion (.nats [n, c, since]) :=
  ⟨_, _, State.sendHold_sends .., State.resend_blocked
    (s := { s with agenda := s.agenda.filter fun d => !d.awaits (.blocked n c since) }) ⟨hb.held, hb.since_eq, hb.blocking⟩⟩

/-- An LDQ entry that has lost its peer is poisoned (R132). -/
theorem State.losePeer_ldq (s : State) (n q e pkg : Nat) :
    (((s.losePeer (.ldq n q e) pkg).core n).qEntry q e).st = .poisoned ∧ (s.losePeer (.ldq n q e) pkg).mem = s.mem := by
  simp [State.losePeer, State.dropCompletion, Core.qEntry, Core.setQEntry]

/-- A posted store that has lost its peer leaves its report, if none is pending. -/
theorem State.losePeer_posted {s : State} {n c i : Nat} {p : Posted}
    (hp : (s.cluster n c).posted.find? (fun p => decide (p.id = i)) = some p) (hrep : (s.cluster n c).mirrRep = none) (pkg : Nat) :
    ((s.losePeer (.posted n c i) pkg).cluster n c).mirrRep = some (cMIRRFAIL, p.ea) ∧ (s.losePeer (.posted n c i) pkg).mem = s.mem := by
  have hp' : ((s.dropCompletion (.posted n c i)).cluster n c).posted.find? (fun q => decide (q.id = i)) = some p := hp
  have hrep' : ((s.dropCompletion (.posted n c i)).cluster n c).mirrRep = none := hrep
  simp only [State.losePeer, State.cluster_modCluster, State.modCluster_mem, hp', hrep', true_and]
  rfl

/-! ### LINK_DOWN (R342) -/

/-- Completions that do not come leave the agenda only. -/
theorem State.dropCompletions_eq (l : List Packet) (s : State) : ∃ agenda,
    l.foldl (fun (s : State) p => s.dropCompletion p.owner) s = { s with agenda := agenda } := by
  induction l generalizing s with
  | nil => exact ⟨_, rfl⟩
  | cons p t ih =>
    obtain ⟨agenda, h⟩ := ih (s.dropCompletion p.owner)
    exact ⟨agenda, h⟩

/-- Steps that are hastened fall due in this cycle. -/
theorem State.cycle_of_mem_hasten {s : State} {f : Due → Bool} {x : Due} (hx : x ∈ (s.hasten f).agenda) (hf : f x = true) :
    x.cycle = s.cycle := by
  unfold State.hasten at hx
  split at hx
  · rcases List.mem_append.mp hx with h | h
    · obtain ⟨d, -, rfl⟩ := List.mem_map.mp h; rfl
    · simp [hf] at h
  · rename_i hnone
    exact absurd (List.any_eq_true.mpr ⟨x, hx, hf⟩) hnone

/-- The package beyond a link. -/
def State.beyondLink (s : State) (d : Nat) : Nat :=
  let n := s.extent (d / 2)
  let at_ := pkgCoord s.pkg (d / 2)
  s.pkg - at_ * 16 ^ (d / 2) + (if d % 2 = 0 then (at_ + 1) % n else (at_ + n - 1) % n) * 16 ^ (d / 2)

theorem State.beyondLink_eq (s : State) (d : Nat) : s.pkg - pkgCoord s.pkg (d / 2) * 16 ^ (d / 2) +
    (if d % 2 = 0 then (pkgCoord s.pkg (d / 2) + 1) % s.extent (d / 2)
      else (pkgCoord s.pkg (d / 2) + s.extent (d / 2) - 1) % s.extent (d / 2)) * 16 ^ (d / 2) = s.beyondLink d := rfl

/-- A link is no port any more, what was crossing it is lost, and the agenda is `agenda`. -/
def State.withoutLink (s : State) (d : Nat) (agenda : List Due) : State :=
  { s with linksDown := s.linksDown ++ [d], packets := s.packets.filter fun p => decide (p.port ≠ some d), agenda := agenda }

/-- With no route left, every access that awaits a response has lost its peer. -/
def State.lostRoutes (s : State) : State := if s.routed then s else s.hasten fun x => decide (x.row = .peerTimeout)

theorem State.lostRoutes_eq (s : State) : ∃ agenda, s.lostRoutes = { s with agenda := agenda } ∧
    (s.routed = false → ∀ x ∈ agenda, x.row = .peerTimeout → x.cycle = s.cycle) := by
  unfold State.lostRoutes
  split
  · rename_i hroute
    exact ⟨s.agenda, rfl, fun hno => by simp [hroute] at hno⟩
  · exact ⟨_, s.hasten_eq _, fun _ x hx hrow => State.cycle_of_mem_hasten hx (by simp [hrow])⟩

/-- A link goes down: completions that it carried do not come, and with no route left every access has lost its peer. -/
theorem exec_linkDown {s : State} {d : Nat} (hev : s.ev = .nats [d]) (hd : d < 6) (hup : s.linksDown.contains d = false) :
    ∃ flog count agenda, count = (s.flogCnt + 1) % 2 ^ 32 ∧ exec .linkDown s =
      .next (((s.withLog flog count).withoutLink d agenda).lostRoutes) := by
  obtain ⟨flog, count, hcount, hlog⟩ := s.logFabric_eq 2 d (s.beyondLink d) 0xFF
  obtain ⟨agenda, hgone⟩ := State.dropCompletions_eq (s.packets.filter fun p => decide (p.port = some d))
    ((s.withLog flog count).withoutLink d s.agenda)
  have h0 : s.ev.nat 0 = d := by rw [hev]; rfl
  refine ⟨flog, count, agenda, hcount, ?_⟩
  show execLinkDown s = _
  simp only [execLinkDown, h0, State.beyondLink_eq, hlog]
  refine (if_neg (by simpa [hd] using hup)).trans ?_
  exact congrArg (fun t : State => Host.Outcome.next t.lostRoutes) hgone

end Sys2Proof.Machine
end

section
/-!
Lost peers and links: the statement about them, clause by clause, and O54.
-/

namespace Sys2Proof.Machine

/-- The clauses of O54 on lost peers and links. -/
theorem claimLostPeers : Claim.LostPeers := by
  refine ⟨?blocked, ?ldq, ?posted, ?link⟩
  case blocked =>
    intro s pkg n c x m sent id ad h hev hheld hsince hkind past lost
    have hb : s.Blocked n c x h := ⟨hheld, hsince, hkind⟩
    have howner : s.timedOwner = .blocked n c x := by rw [State.timedOwner, hev]; rfl
    have hsmall : s.ev.nat 0 < 3 := by rw [hev]; exact Nat.zero_lt_succ 2
    have hopen : s.openFor s.timedOwner = true := howner ▸ hb.openFor
    have hsent : s.ev.nat 6 = sent := by rw [hev]; rfl
    have hmirr : s.ev.nat 5 = m := by rw [hev]; rfl
    have hpkg : s.ev.nat 1 = pkg := by rw [hev]; rfl
    have hvif : s.timedVif = (s.core n).vifn.toNat := by rw [State.timedVif, hev]; rfl
    refine ⟨fun hearly => ?_, fun hlate hm => ?_, fun y hpair hprim hsec hlate hm => ?_⟩
    · have hexec := exec_peerTimeout_early hsmall hopen (by rwa [hsent])
      rwa [hsent] at hexec
    · obtain ⟨flog, count, hcount, hexec⟩ := exec_peerTimeout_plain hsmall hopen (by rwa [hsent]) (by rw [hmirr]; omega)
      rw [howner, State.losePeer_blocked (hb.withLog flog count)] at hexec
      exact ⟨_, hexec, rfl, rfl, rfl, rfl, hcount⟩
    · have hexec := exec_peerTimeout_mirrored hsmall hopen (by rwa [hsent]) (by rw [hmirr, hm]) rfl
      obtain ⟨flog, count, hcount, hlose⟩ := s.loseCopy_eq (s.core n).vifn.toNat pkg (coreDie (s.ev.nat 2))
      have hleft := State.withoutCopies_primary hpair hprim hsec
      have hcopy := State.copyLeft_secondary (s := (s.withoutCopies (s.core n).vifn.toNat pkg).withLog flog count) hleft hprim
      rw [howner, hpkg, hvif, hlose, hcopy] at hexec
      have hb' := (hb.withoutCopies (s.core n).vifn.toNat pkg).withLog flog count
      refine ⟨fun hl => ?_, fun hl => ?_⟩
      · simp only [hl, Bool.not_true, Bool.false_eq_true, if_false] at hexec
        rw [State.losePeer_blocked hb'] at hexec
        exact ⟨_, hexec, rfl, rfl, rfl, rfl, hcount⟩
      · simp only [hl, Bool.not_false, if_true] at hexec
        obtain ⟨agenda, t, ⟨_, _, _, _, rfl⟩, hagain⟩ := State.reissue_blocked hb'
        rw [hagain] at hexec
        exact ⟨_, hexec, hleft, rfl, rfl, hcount, State.due_scheduleOpen _ Nat.one_pos ..⟩
  case ldq =>
    intro s pkg n q e sent id ad hev hlate hres
    have howner : s.timedOwner = .ldq n q e := by rw [State.timedOwner, hev]; rfl
    have hsent : s.ev.nat 6 = sent := by rw [hev]; rfl
    obtain ⟨flog, count, -, hexec⟩ := exec_peerTimeout_plain (s := s) (by rw [hev]; exact Nat.one_lt_succ_succ 1)
      (by simp [howner, State.openFor, hres]) (.inl (by rwa [hsent])) (by rw [hev]; exact Nat.zero_ne_one)
    rw [howner] at hexec
    exact ⟨_, hexec, State.losePeer_ldq (s.withLog flog count) n q e _⟩
  case posted =>
    intro s pkg n c i sent id ad p hev hlate hfind hrep
    have howner : s.timedOwner = .posted n c i := by rw [State.timedOwner, hev]; rfl
    have hsent : s.ev.nat 6 = sent := by rw [hev]; rfl
    have hopen : s.openFor (.posted n c i) = true :=
      List.any_eq_true.mpr ⟨p, List.mem_of_find?_eq_some hfind, by simpa using List.find?_some hfind⟩
    obtain ⟨flog, count, -, hexec⟩ := exec_peerTimeout_plain (s := s) (by rw [hev]; exact Nat.lt_succ_self 2) (howner ▸ hopen)
      (.inl (by rwa [hsent])) (by rw [hev]; exact Nat.zero_ne_one)
    rw [howner] at hexec
    exact ⟨_, hexec, State.losePeer_posted (s := s.withLog flog count) hfind hrep _⟩
  case link =>
    intro s d hev hd hup
    obtain ⟨flog, count, kept, hcount, hexec⟩ := exec_linkDown hev hd hup
    obtain ⟨agenda, hroutes, hlost⟩ := ((s.withLog flog count).withoutLink d kept).lostRoutes_eq
    rw [hroutes] at hexec
    exact ⟨_, hexec, rfl, hcount, rfl, rfl, rfl, hlost⟩

/-- Settles O54, by its three parts: packets, the accesses that arrive, and lost peers and links. That an access fails as PROT wherever
the ingress leads to no local address, not only where its window is disabled, is log entry 75; the order that the ingress keeps, and that
an answer brings a peer's bytes into local cells, log entry 69. -/
theorem fabric : Obligations.Fabric := ⟨claimPackets, claimPeerAccesses, claimLostPeers⟩

end Sys2Proof.Machine
end

section
/-!
SUPPORT. Nodes, the clusters of a core, and the asynchronous events of a gang (R47, R67, R73).
-/

namespace Sys2Proof.Machine

/-! ### The node table -/

theorem State.node_setNode (s : State) (n m : Nat) (x : Node) : (s.setNode n x).node m = if m = n then some x else s.node m := by
  simp [State.node, State.setNode, SMap.get_set]

@[simp] theorem State.node_setNode_same (s : State) (n : Nat) (x : Node) : (s.setNode n x).node n = some x := by
  rw [State.node_setNode, if_pos rfl]

@[simp] theorem State.setNode_mem (s : State) (n : Nat) (x : Node) : (s.setNode n x).mem = s.mem := rfl
@[simp] theorem State.setNode_cores (s : State) (n : Nat) (x : Node) : (s.setNode n x).cores = s.cores := rfl

theorem State.modNode_some {s : State} {n : Nat} {x : Node} (h : s.node n = some x) (f : Node → Node) :
    s.modNode n f = s.setNode n (f x) := by
  simp [State.modNode, h]

/-! ### Changes of cores alone -/

/-- Nothing but cores has changed. -/
def State.OnlyCores (s t : State) : Prop := t = { s with cores := t.cores }

theorem State.OnlyCores.refl (s : State) : s.OnlyCores s := rfl

theorem State.OnlyCores.trans {s t u : State} (h : s.OnlyCores t) (g : t.OnlyCores u) : s.OnlyCores u := by
  unfold State.OnlyCores at *
  rw [g, h]

theorem State.OnlyCores.foldl {α : Type} {f : State → α → State} (h : ∀ (s : State) (a : α), s.OnlyCores (f s a)) (l : List α)
    (s : State) : s.OnlyCores (l.foldl f s) := by
  induction l generalizing s with
  | nil => exact .refl s
  | cons a l ih => exact (h s a).trans (ih (f s a))

theorem State.OnlyCores.node {s t : State} (h : s.OnlyCores t) (n : Nat) : t.node n = s.node n := by rw [h]; rfl
theorem State.OnlyCores.mem {s t : State} (h : s.OnlyCores t) : t.mem = s.mem := by rw [h]
theorem State.OnlyCores.cycle {s t : State} (h : s.OnlyCores t) : t.cycle = s.cycle := by rw [h]

theorem State.modCore_onlyCores (s : State) (n : Nat) (f : Core → Core) : s.OnlyCores (s.modCore n f) := rfl

/-! ### Every cluster of a core -/

/-- The four clusters of a core changed by `f`. -/
def Core.eachCluster (k : Core) (f : Cluster → Cluster) : Core :=
  clusters.foldl (fun k c => k.setCluster c (f (k.cluster c))) k

theorem Core.cluster_setCluster_eq (k : Core) (c d : Nat) (v : Cluster) :
    (k.setCluster c v).cluster d = if d = c then v else k.cluster d := by
  simp [Core.cluster, Core.setCluster, SMap.get_set]

theorem Core.cluster_eachCluster (k : Core) (f : Cluster → Cluster) (d : Nat) :
    (k.eachCluster f).cluster d = if d < 4 then f (k.cluster d) else k.cluster d := by
  simp only [Core.eachCluster, clusters, List.foldl_cons, List.foldl_nil, Core.cluster_setCluster_eq]
  match d with
  | 0 | 1 | 2 | 3 => simp
  | d + 4 => simp

theorem State.cluster_modCore (s : State) (n m d : Nat) (f : Core → Core) :
    (s.modCore n f).cluster m d = if m = n then (f (s.core n)).cluster d else s.cluster m d := by
  split
  · next h => rw [h, State.cluster, State.core_modCore]
  · next h => rw [State.cluster, State.core_modCore_other _ _ h, State.cluster]

/-- Steps over a list, of which those that `hit` a cluster change it by an `f` that is idempotent and the others leave it alone: the
cluster changes by `f` once, however often it is hit. -/
theorem State.cluster_foldl {α : Type} {g : State → α → State} {f : Nat → Cluster → Cluster} (hf : ∀ t k, f t (f t k) = f t k)
    (hcores : ∀ (s : State) (a : α), s.OnlyCores (g s a)) {m d : Nat} {hit : α → Prop} [DecidablePred hit]
    (hg : ∀ (s : State) (a : α), (g s a).cluster m d = if hit a then f s.cycle (s.cluster m d) else s.cluster m d)
    (l : List α) (s : State) :
    (l.foldl g s).cluster m d = if ∃ a ∈ l, hit a then f s.cycle (s.cluster m d) else s.cluster m d := by
  induction l generalizing s with
  | nil => simp
  | cons a l ih =>
    rw [List.foldl_cons, ih (g s a), (hcores s a).cycle, hg]
    by_cases ha : hit a <;> by_cases hl : ∃ b ∈ l, hit b <;> simp [ha, hl, hf]

/-! ### Events that become pending (R67) -/

/-- Of a cluster at most the event changes. -/
theorem Cluster.raise_eq (c : Cluster) (kind cycle : Nat) : c.raise kind cycle = { c with event := (c.raise kind cycle).event } := by
  unfold Cluster.raise
  split <;> rfl

@[simp] theorem Cluster.raise_pc (c : Cluster) (kind cycle : Nat) : (c.raise kind cycle).pc = c.pc := by rw [Cluster.raise_eq]

theorem Cluster.raise_raise (kind cycle : Nat) (c : Cluster) : (c.raise kind cycle).raise kind cycle = c.raise kind cycle := by
  by_cases h : c.live = true ∧ c.event = none
  · simp [Cluster.raise, h.1, h.2]
  · have still : c.raise kind cycle = c := if_neg (by simpa using h)
    rw [still, still]

theorem Cluster.raise_event {c : Cluster} (kind cycle : Nat) (hlive : c.live = true) (hnone : c.event = none) :
    (c.raise kind cycle).event = some (kind, cycle) := by
  simp [Cluster.raise, hlive, hnone]

theorem Core.cluster_raise (k : Core) (kind cycle d : Nat) :
    (k.raise kind cycle).cluster d = if d < 4 then (k.cluster d).raise kind cycle else k.cluster d :=
  k.cluster_eachCluster (fun c => c.raise kind cycle) d

/-- The halt of a gang (R47) becomes pending in every cluster of its cores. -/
theorem State.cluster_haltGang (s : State) (l : List Nat) (m d : Nat) :
    (s.haltGang l).cluster m d = if m ∈ l ∧ d < 4 then (s.cluster m d).raise 0 s.cycle else s.cluster m d := by
  rw [State.haltGang, State.cluster_foldl (f := fun t k => k.raise 0 t) (hit := fun n => m = n ∧ d < 4) (fun t k => k.raise_raise 0 t)
    (fun s n => s.modCore_onlyCores n _) fun s n => ?_]
  · simp
  · rw [State.cluster_modCore, Core.cluster_raise]
    by_cases hm : m = n <;> by_cases hd : d < 4 <;> simp [hm, hd, State.cluster]

theorem State.haltGang_onlyCores (s : State) (l : List Nat) : s.OnlyCores (s.haltGang l) :=
  State.OnlyCores.foldl (fun s n => s.modCore_onlyCores n _) l s

/-- A hard stop of a node names its reason and asks the clusters of its cores to halt. -/
theorem State.stopHard_some {s : State} {n : Nat} {x : Node} (h : s.node n = some x) (why : StopKind) :
    s.stopHard n why = (s.setNode n { x with stop := why }).haltGang x.cores := by
  simp [State.stopHard, h]

theorem State.node_stopHard {s : State} {n : Nat} {x : Node} (h : s.node n = some x) (why : StopKind) :
    (s.stopHard n why).node n = some { x with stop := why } := by
  rw [State.stopHard_some h, (State.haltGang_onlyCores ..).node, State.node_setNode_same]

theorem State.stopHard_mem {s : State} {n : Nat} {x : Node} (h : s.node n = some x) (why : StopKind) :
    (s.stopHard n why).mem = s.mem := by
  rw [State.stopHard_some h, (State.haltGang_onlyCores ..).mem]
  rfl

theorem State.cluster_stopHard {s : State} {n : Nat} {x : Node} (h : s.node n = some x) (why : StopKind) (m d : Nat) :
    (s.stopHard n why).cluster m d = if m ∈ x.cores ∧ d < 4 then (s.cluster m d).raise 0 s.cycle else s.cluster m d := by
  rw [State.stopHard_some h, State.cluster_haltGang]
  rfl

/-- It moves no cluster from its instruction. -/
theorem State.me_stopHard_pc {s : State} {n : Nat} {x : Node} (h : s.node n = some x) (why : StopKind) :
    (s.stopHard n why).me.pc = s.me.pc := by
  have hcur : (s.stopHard n why).curCore = s.curCore ∧ (s.stopHard n why).curCl = s.curCl := by
    rw [State.stopHard_some h, State.haltGang_onlyCores]
    exact ⟨rfl, rfl⟩
  rw [State.me, hcur.1, hcur.2, State.cluster_stopHard h]
  split
  · exact Cluster.raise_pc ..
  · rfl

end Sys2Proof.Machine
end

section
/-!
NOP, HALT, EXIT and SAFE (R46, R48, R154, R159): the statements about them, clause by clause, and O28.
-/

namespace Sys2Proof.Machine

/-! ### EXIT and SAFE -/

/-- An instruction that takes pending reports first and finds none. -/
theorem withReports_none {s : State} (h : s.me.report = none) (body : State → Res) : withReports body s = body s := by
  simp [withReports, h]

/-- The cluster under way has executed EXIT. -/
def State.exits (s : State) : State :=
  (s.markIssued.modMe fun c => { c with act := .exited }).modMyCore fun k => { k with progress := s.cycle }

theorem State.me_modMyCore_of_cl (s : State) {f : Core → Core} (h : ∀ k, (f k).cl = k.cl) : (s.modMyCore f).me = s.me := by
  rw [State.me_modMyCore, Core.cluster, h]
  rfl

theorem State.me_markIssued (s : State) :
    s.markIssued.me = { s.me with issuedAt := s.cycle + 1, block := some (s.me.pc.toNat / 64) } := by
  rw [State.markIssued, State.me_modMyCore]
  exact Core.cluster_setCluster ..

/-- What EXIT leaves of its cluster: it has issued and does nothing more. -/
theorem State.me_exits (s : State) : s.exits.me =
    { s.me with issuedAt := s.cycle + 1, block := some (s.me.pc.toNat / 64), act := .exited } := by
  rw [State.exits, State.me_modMyCore_of_cl, State.me_modMe, State.me_markIssued]
  exact fun _ => rfl

@[simp] theorem State.exits_progress (s : State) : s.exits.myCore.progress = s.cycle := by
  rw [State.exits, State.myCore_modMyCore]

@[simp] theorem State.exits_mem (s : State) : s.exits.mem = s.mem := by simp [State.exits]

theorem exec_exit {s : State} (h : s.issues .exit) (hrep : s.me.report = none) : exec .exit s = .next s.fresh.exits :=
  State.issue_ends h (withReports_none (s := s.fresh) hrep _)

theorem exec_safe_alone {s : State} (h : s.issues .safe) (hp : s.preempting = none) : exec .safe s = .next s.fresh.inSequence := by
  have fresh : s.fresh.preempting = none := hp
  exact State.issue_done h (by simp [bodySafe, fresh])

/-- The cluster under way stops at its SAFE. -/
def State.stopsAtSafe (s : State) : State := s.modMe fun c => { c with act := .atSafe (s.ir % 65536), issuedAt := s.cycle + 1 }

theorem exec_safe_stops {s : State} {n : Nat} {x : Node} (h : s.issues .safe) (hp : s.preempting = some (n, x)) (hmap : x.livemap ≠ 0) :
    exec .safe s = .next s.fresh.stopsAtSafe := by
  have fresh : s.fresh.preempting = some (n, x) := hp
  exact State.issue_ends h (by simp only [bodySafe, fresh, if_neg hmap]; rfl)

theorem exec_safe_hard {s : State} {n : Nat} {x : Node} (h : s.issues .safe) (hp : s.preempting = some (n, x)) (hmap : x.livemap = 0)
    (hstop : x.stop = .none) : exec .safe s = .next ((s.fresh.stopHard n .hard).modMe fun c =>
      { c with act := .running, issuedAt := s.cycle + 1 }) := by
  have fresh : s.fresh.preempting = some (n, x) := hp
  exact State.issue_ends h (by simp only [bodySafe, fresh, hmap, hstop, if_true]; rfl)

/-- The node that `preempting` gives is that of the table. -/
theorem State.node_of_preempting {s : State} {n : Nat} {x : Node} (h : s.preempting = some (n, x)) : s.node n = some x := by
  unfold State.preempting at h
  split at h
  · cases h
  · split at h
    · split at h
      · next hx _ => cases h; exact hx
      · cases h
    · cases h

/-! ### The statements -/

theorem claimPlainControl : Claim.PlainControl := by
  refine ⟨?nop, ?haltAlone, ?haltDebugged, ?exit, fun s h hp => exec_safe_alone h hp⟩
  case nop => exact fun s h => State.issue_done (body := bodyNop) h rfl
  case haltAlone =>
    intro s h hoff
    have off : s.fresh.dbgen = false := hoff
    exact State.issue_done h (by simp [bodyHalt, off])
  case haltDebugged =>
    intro s h hon
    have on : s.fresh.dbgen = true := hon
    exact State.issue_ends h (by simp only [bodyHalt, on, if_true]; rfl)
  case exit =>
    intro s h hrep
    have hme := State.me_exits s.fresh
    exact ⟨_, exec_exit h hrep, by rw [hme], State.exits_progress _, State.exits_mem _, by rw [hme]; rfl, by rw [hme]; rfl⟩

theorem claimSafeStops : Claim.SafeStops := by
  intro s n x h hp
  refine ⟨fun hmap => ?_, fun hmap hstop => ?_⟩
  · have hme : s.fresh.stopsAtSafe.me = { s.me with act := .atSafe (s.ir % 65536), issuedAt := s.cycle + 1 } := State.me_modMe ..
    exact ⟨_, exec_safe_stops h hp hmap, by rw [hme], by rw [hme], rfl⟩
  · have hnode : s.fresh.node n = some x := State.node_of_preempting hp
    refine ⟨_, _, exec_safe_hard h hp hmap hstop, State.node_stopHard hnode .hard, rfl, ?_, State.stopHard_mem hnode .hard⟩
    rw [State.me_modMe]
    exact State.me_stopHard_pc hnode .hard

/-- Settles O28, by its two parts: the forms that only go on or end, and the stop at a SAFE. -/
theorem clusterControl : Obligations.ClusterControl := ⟨claimPlainControl, claimSafeStops⟩

end Sys2Proof.Machine
end

section
/-!
SUPPORT. Halts at a quiet point, the watchdog, hangs and the debugger (R47, R51, R52, R67, R68, R73).
-/

namespace Sys2Proof.Machine

/-! ### Hard pre-emption (R47) -/

theorem exec_hardPreemption {s : State} {n : Nat} {x : Node} (hev : s.ev = .nats [n, x.reqAt.getD 0]) (hnode : s.node n = some x)
    (hst : x.st = .preempting) (hreq : x.reqAt ≠ none) (hstop : x.stop = .none ∨ x.stop = .drain) :
    exec .hardPreemption s = .next (s.stopHard n .hard) := by
  obtain ⟨t, ht⟩ := Option.ne_none_iff_exists'.mp hreq
  show execHardPreemption s = _
  rcases hstop with h | h <;> simp [execHardPreemption, hev, EvArgs.nat, hnode, hst, ht, h]

/-! ### What becomes of the cluster under way -/

/-- The cluster under way has become `v`; no other one has changed, nor has memory. -/
def State.MeBecomes (s t : State) (v : Cluster) : Prop :=
  t.me = v ∧ (∀ m d, (m, d) ≠ (s.curCore, s.curCl) → t.cluster m d = s.cluster m d) ∧ t.mem = s.mem ∧ t.cycle = s.cycle ∧
    t.curCore = s.curCore ∧ t.curCl = s.curCl

theorem State.MeBecomes.refl (s : State) : s.MeBecomes s s.me := ⟨rfl, fun _ _ _ => rfl, rfl, rfl, rfl, rfl⟩

theorem State.MeBecomes.cluster {s t : State} {v : Cluster} (h : s.MeBecomes t v) : t.cluster s.curCore s.curCl = v := by
  obtain ⟨hme, -, -, -, hcore, hcl⟩ := h
  rwa [State.me, hcore, hcl] at hme

theorem State.MeBecomes.landAs {s t : State} {v : Cluster} (h : s.MeBecomes t v) (n c iss due : Nat) (w : Write) :
    s.MeBecomes (t.landAs n c iss due w) v := by
  obtain ⟨hme, hothers, hmem, hcycle, hcore, hcl⟩ := h
  have kept (m d : Nat) : (t.landAs n c iss due w).cluster m d = t.cluster m d := by
    rw [State.landAs, State.cluster_modCore]
    split
    · next h => rw [h]; rfl
    · rfl
  exact ⟨(kept ..).trans hme, fun m d h => (kept m d).trans (hothers m d h), hmem, hcycle, hcore, hcl⟩

theorem State.MeBecomes.modMe {s t : State} {v : Cluster} (h : s.MeBecomes t v) (f : Cluster → Cluster) :
    s.MeBecomes (t.modMe f) (f v) := by
  obtain ⟨hme, hothers, hmem, hcycle, hcore, hcl⟩ := h
  refine ⟨by rw [State.me_modMe, hme], fun m d h => ?_, hmem, hcycle, hcore, hcl⟩
  exact (t.cluster_modCluster_other f (by rwa [hcore, hcl])).trans (hothers m d h)

theorem State.MeBecomes.trapAt {s t : State} {v : Cluster} (h : s.MeBecomes t v) (hnest : v.nested = false) (cause : Nat)
    (info ret : Word) (sync forced : Bool) :
    s.MeBecomes (t.trapAt t.curCore t.curCl cause info ret sync forced) (v.enterTrap s.cycle cause info ret sync forced) := by
  obtain ⟨hme, hothers, hmem, hcycle, hcore, hcl⟩ := h
  refine ⟨?_, fun m d h => ?_, hmem, hcycle, hcore, hcl⟩
  · refine (t.cluster_trapAt t.curCore t.curCl cause info ret sync forced).trans ?_
    rw [← State.me, hme, hnest, hcycle]
    rfl
  · exact (t.cluster_trapAt_other cause info ret sync forced (by rwa [hcore, hcl])).trans (hothers m d h)

/-! ### Events at quiet points (R67, R68) -/

/-- What the cluster under way holds is left: a sweep keeps its place, and any other access is given up. -/
def State.leaveHold (s : State) : State :=
  match s.me.hold? with
  | some h => (match h.instr with | .swp o => sweepSave o h s | _ => s.giveUp)
  | none => s

theorem State.leaveHold_me (s : State) : s.MeBecomes s.leaveHold s.me := by
  unfold State.leaveHold
  split
  · split
    · unfold sweepSave
      dsimp only
      split
      · exact (State.MeBecomes.refl s).landAs ..
      · exact ((State.MeBecomes.refl s).landAs ..).landAs ..
    · exact State.MeBecomes.refl s
  · exact .refl s

/-- Whether a cluster is in QSYNC. -/
def Cluster.inQsync (c : Cluster) : Bool := match c.hold? with | some h => decide (h.kind = .qsync) | none => false

/-- A cluster in QSYNC has not executed it (R147). -/
def Cluster.unarrive (c : Cluster) : Cluster := { c with arrived := c.arrived && !c.inQsync }

/-- A halted cluster with its TRAPSTAT. -/
def Cluster.haltEvent (c : Cluster) (forced : Bool) : Cluster :=
  { c.halt with trapStat := if forced then c.trapStat ||| 8 else c.trapStat }

theorem Cluster.haltEvent_act (c : Cluster) (forced : Bool) : ∃ wide, (c.haltEvent forced).act = .halted wide := ⟨_, rfl⟩

theorem Cluster.haltEvent_of_running {c : Cluster} (h : c.act = .running) (forced : Bool) : c.unarrive.haltEvent forced =
    { c with act := .halted false, event := none, trapStat := if forced then c.trapStat ||| 8 else c.trapStat } := by
  simp [Cluster.haltEvent, Cluster.halt, Cluster.unarrive, Cluster.inQsync, Cluster.wideIssued, Cluster.hold?, h]

/-- A halt is taken (R47, R73). -/
theorem State.takeEvent_halt (s : State) {kind : Nat} (h : kind ≠ 2) (forced : Bool) :
    s.MeBecomes (s.takeEvent kind forced) (s.me.unarrive.haltEvent forced) := by
  have taken : s.takeEvent kind forced = (s.leaveHold.modMe Cluster.unarrive).modMe fun c => c.haltEvent forced := if_neg h
  rw [taken]
  exact (s.leaveHold_me.modMe Cluster.unarrive).modMe fun c => c.haltEvent forced

/-- The cluster under way has left what it held, with no event pending any more. -/
def State.unwatched (s : State) : State := (s.leaveHold.modMe Cluster.unarrive).modMe fun c => { c with event := none }

theorem State.unwatched_me (s : State) : s.MeBecomes s.unwatched { s.me.unarrive with event := none } :=
  (s.leaveHold_me.modMe Cluster.unarrive).modMe fun c => { c with event := none }

theorem State.takeEvent_two (s : State) (forced : Bool) : ∃ info sync, s.takeEvent 2 forced =
    s.unwatched.trapAt s.unwatched.curCore s.unwatched.curCl cWATCHDOG info s.unwatched.me.pc sync forced := by
  unfold State.takeEvent
  dsimp only
  rw [if_pos rfl]
  split
  · exact ⟨_, _, rfl⟩
  · exact ⟨_, _, rfl⟩

/-- The trap WATCHDOG is taken (R52), outside a handler. -/
theorem State.takeEvent_watchdog (s : State) (hnest : s.me.nested = false) (forced : Bool) : ∃ info sync,
    s.MeBecomes (s.takeEvent 2 forced)
      ({ s.me.unarrive with event := none }.enterTrap s.cycle cWATCHDOG info s.me.pc sync forced) := by
  have hpc : s.unwatched.me.pc = s.me.pc := by rw [s.unwatched_me.1, Cluster.unarrive]
  obtain ⟨info, sync, taken⟩ := s.takeEvent_two forced
  refine ⟨info, sync, ?_⟩
  rw [taken, hpc]
  exact s.unwatched_me.trapAt hnest ..

/-- The machine turns to cluster `c` of core `n`. -/
def State.onCluster (s : State) (n c : Nat) : State := { s with curCore := n, curCl := c }

/-- One that runs halts where it is. -/
theorem State.takeEvent_of_running {s : State} {n c k : Nat} (hk : k ≠ 2) (hrun : (s.cluster n c).act = .running) (forced : Bool) :
    let x := s.cluster n c
    let t := (s.onCluster n c).takeEvent k forced
    t.cluster n c = { x with act := .halted false, event := none, trapStat := if forced then x.trapStat ||| 8 else x.trapStat } ∧
      (∀ m d, (m, d) ≠ (n, c) → t.cluster m d = s.cluster m d) ∧ t.mem = s.mem := by
  have taken := (s.onCluster n c).takeEvent_halt hk forced
  have hcluster := taken.cluster
  obtain ⟨-, hothers, hmem, -⟩ := taken
  exact ⟨hcluster.trans (Cluster.haltEvent_of_running hrun forced), hothers, hmem⟩

/-- One in QSYNC halts and has not executed it (R147). -/
theorem State.takeEvent_of_qsync {s : State} {n c k : Nat} {h : Hold} (hk : k ≠ 2) (hact : (s.cluster n c).act = .waiting h)
    (hkind : h.kind = .qsync) (forced : Bool) : ∃ wide,
    let t := (s.onCluster n c).takeEvent k forced
    (t.cluster n c).act = .halted wide ∧ (t.cluster n c).arrived = false ∧ (t.cluster n c).event = none ∧ t.mem = s.mem := by
  have taken := (s.onCluster n c).takeEvent_halt hk forced
  have hcluster : ((s.onCluster n c).takeEvent k forced).cluster n c = (s.cluster n c).unarrive.haltEvent forced := taken.cluster
  have harrived : (s.cluster n c).unarrive.arrived = false := by
    simp [Cluster.unarrive, Cluster.inQsync, Cluster.hold?, hact, hkind]
  obtain ⟨-, -, hmem, -⟩ := taken
  obtain ⟨wide, hhalted⟩ := (s.cluster n c).unarrive.haltEvent_act forced
  refine ⟨wide, ?_⟩
  dsimp only
  rw [hcluster]
  exact ⟨hhalted, harrived, rfl, hmem⟩

/-- Bit 3 of TRAPSTAT tells a forced quiet point (Table 5-3). -/
theorem trapStatus_forced (super sync forced : Bool) (depth : BitVec 2) : (trapStatus super sync forced depth).getLsbD 3 = forced := by
  revert super sync forced depth
  decide

/-- One that WATCHDOG was asked of enters the handler. -/
theorem State.takeEvent_of_watchdog {s : State} {n c : Nat} (hnest : (s.cluster n c).nested = false) (forced : Bool) :
    let x := s.cluster n c
    let t := (s.onCluster n c).takeEvent 2 forced
    (t.cluster n c).pc = x.tvec ∧ (t.cluster n c).trapPc = x.pc ∧ (t.cluster n c).trapCause = 0x19 ∧ (t.cluster n c).super = true ∧
      (t.cluster n c).event = none ∧ (t.cluster n c).trapStat.getLsbD 3 = forced ∧ t.mem = s.mem := by
  obtain ⟨info, sync, taken⟩ := (s.onCluster n c).takeEvent_watchdog hnest forced
  have hcluster : ((s.onCluster n c).takeEvent 2 forced).cluster n c =
    { (s.cluster n c).unarrive with event := none }.enterTrap s.cycle cWATCHDOG info (s.cluster n c).pc sync forced := taken.cluster
  obtain ⟨-, -, hmem, -⟩ := taken
  dsimp only
  rw [hcluster]
  exact ⟨rfl, rfl, rfl, rfl, rfl, trapStatus_forced .., hmem⟩

/-- Both rows take the event: ASYNC_EVENT_TAKEN at a quiet point, FORCED_QUIET_POINT once it has been pending for 65,536 cycles. -/
theorem exec_takeEvent {p : Instr × Bool} (hp : p ∈ [(Instr.asyncEventTaken, false), (.forcedQuietPoint, true)]) {s : State}
    {n c k e : Nat} (hev : s.ev = .nats [n, c]) (hevent : (s.cluster n c).event = some (k, e))
    (hlive : (s.cluster n c).live = true) (hquiet : s.quiet n c k = true) (hlate : p.2 = true → e + 65536 ≤ s.cycle) :
    exec p.1 s = .next ((s.onCluster n c).takeEvent k p.2) := by
  have hme : (s.onCluster n c).me = s.cluster n c := rfl
  have hq : (s.onCluster n c).quiet n c k = true := hquiet
  have hon : ({ s with curCore := n, curCl := c } : State) = s.onCluster n c := rfl
  have hcore : s.ev.nat 0 = n := by rw [hev]; rfl
  have hcl : s.ev.nat 1 = c := by rw [hev]; rfl
  simp only [List.mem_cons, List.not_mem_nil, or_false] at hp
  rcases hp with rfl | rfl
  · show execAsyncEventTaken s = _
    simp only [execAsyncEventTaken, hon, hme, hevent, hcore, hcl, hlive, hq, Bool.and_self, if_true]
  · have hforced : (s.cluster n c).forced s.cycle = true := by
      simp only [Cluster.forced, hevent]
      exact decide_eq_true (hlate rfl)
    show execForcedQuietPoint s = _
    simp only [execForcedQuietPoint, hon, hme, hevent, hcore, hcl, hforced, hlive, hq, Bool.and_self, if_true]

/-! ### The watchdog (R52) -/

/-- A cluster that waits is asked to take WATCHDOG. -/
def Cluster.watch (cycle : Nat) (c : Cluster) : Cluster := if c.watched then { c with event := some (2, cycle) } else c

theorem Cluster.watch_watch (cycle : Nat) (c : Cluster) : (c.watch cycle).watch cycle = c.watch cycle := by
  by_cases h : c.watched = true
  · simp only [Cluster.watch, h, if_true]
    split <;> rfl
  · simp [Cluster.watch, h]

/-- WATCHDOG asks cluster `c` of core `n`, if it waits. -/
def State.watchCluster (n : Nat) (s : State) (c : Nat) : State :=
  if (s.cluster n c).watched then s.modCluster n c fun k => { k with event := some (2, s.cycle) } else s

/-- WATCHDOG asks the clusters of core `n` that wait. -/
def State.watchCore (s : State) (n : Nat) : State := clusters.foldl (State.watchCluster n) s

theorem State.watchCluster_onlyCores (n : Nat) (s : State) (c : Nat) : s.OnlyCores (s.watchCluster n c) := by
  unfold State.watchCluster
  split <;> rfl

theorem State.watchCore_onlyCores (s : State) (n : Nat) : s.OnlyCores (s.watchCore n) :=
  State.OnlyCores.foldl (State.watchCluster_onlyCores n) clusters s

theorem State.cluster_watchCluster (n : Nat) (s : State) (c m d : Nat) :
    (s.watchCluster n c).cluster m d = if (m, d) = (n, c) then (s.cluster m d).watch s.cycle else s.cluster m d := by
  by_cases h : (m, d) = (n, c)
  · cases h
    by_cases hw : (s.cluster n c).watched = true <;> simp [State.watchCluster, Cluster.watch, hw]
  · rw [if_neg h, State.watchCluster]
    split
    · exact s.cluster_modCluster_other _ h
    · rfl

theorem State.cluster_watchCore (s : State) (n m d : Nat) :
    (s.watchCore n).cluster m d = if m = n ∧ d < 4 then (s.cluster m d).watch s.cycle else s.cluster m d := by
  rw [State.watchCore, State.cluster_foldl (f := Cluster.watch) (hit := fun c => (m, d) = (n, c)) Cluster.watch_watch
    (State.watchCluster_onlyCores n) fun s c => s.cluster_watchCluster n c m d]
  have hhit : (∃ c ∈ clusters, (m, d) = (n, c)) ↔ m = n ∧ d < 4 := by simp [clusters]; omega
  simp only [hhit]

theorem exec_watchdog {s : State} {n : Nat} {x : Node} (hev : s.ev = .nats [n]) (hnode : s.node n = some x)
    (hdue : s.watchdogDue n = true) : exec .watchdog s = .next (x.cores.foldl State.watchCore s) := by
  show execWatchdog s = _
  simp [execWatchdog, hev, EvArgs.nat, hnode, hdue]
  rfl

theorem State.cluster_watchCores (s : State) (l : List Nat) (m d : Nat) :
    (l.foldl State.watchCore s).cluster m d = if m ∈ l ∧ d < 4 then (s.cluster m d).watch s.cycle else s.cluster m d := by
  rw [State.cluster_foldl (f := Cluster.watch) (hit := fun n => m = n ∧ d < 4) Cluster.watch_watch State.watchCore_onlyCores
    fun s n => s.cluster_watchCore n m d]
  simp

/-! ### Engines without progress (R51) -/

theorem exec_enghang {s : State} {n : Nat} (hev : s.ev = .nats [n]) (hhang : s.hangs n = true) : ∃ unit cmd place row,
    exec .enghang s = .next (s.engFault n unit cENGHANG 0 cmd place row) := by
  show ∃ unit cmd place row, execEnghang s = _
  simp only [execEnghang, hev, EvArgs.nat, List.getD_cons_zero, hhang, Bool.not_true, Bool.false_eq_true, if_false]
  split
  · exact ⟨_, _, _, _, rfl⟩
  · exact ⟨_, _, _, _, rfl⟩

/-! ### The debugger (R73, R366) -/

theorem exec_debugHaltRequest {s : State} {n : Nat} (hev : s.ev = .nats [n]) (hon : s.dbgen = true) :
    exec .debugHaltRequest s = .next (s.haltCore n) := by
  show execDebugHaltRequest s = _
  simp [execDebugHaltRequest, hev, EvArgs.nat, hon]

theorem State.cluster_haltCore (s : State) (n m d : Nat) :
    (s.haltCore n).cluster m d = if m = n ∧ d < 4 then (s.cluster m d).raise 1 s.cycle else s.cluster m d := by
  have kept (k : Core) : ({ k with halted := true } : Core).cluster d = k.cluster d := rfl
  rw [State.haltCore, State.cluster_modCore, kept, Core.cluster_raise]
  by_cases hm : m = n <;> by_cases hd : d < 4 <;> simp [hm, hd, State.cluster]

/-- The state of a core is written while every cluster of it is halted. -/
theorem exec_debugStateWrite_x {s : State} {n c r v : Nat} (hev : s.ev = .debug n (.x c r) v) (hin : (s.core n).debugged = true) :
    exec .debugStateWrite s = .next (s.modCluster n c fun k => k.writeX r (w64 v)) := by
  show execDebugStateWrite s = _
  simp only [execDebugStateWrite, hev, hin, Bool.not_true, Bool.false_eq_true, if_false]
  rfl

theorem exec_debugStateWrite_running {s : State} {n v : Nat} {d : DebugTarget} (hev : s.ev = .debug n d v)
    (hout : (s.core n).debugged = false) : exec .debugStateWrite s = .next s := by
  show execDebugStateWrite s = _
  simp [execDebugStateWrite, hev, hout]

theorem Cluster.readX_writeX_eq (k : Cluster) (r q : Nat) (v : Word) :
    (k.writeX r v).readX q = if q = 0 then 0 else if q = r then v else k.readX q := by
  split
  · next h => rw [h]; rfl
  · next h =>
    split
    · next hq => rw [hq, Cluster.readX_writeX _ _ (hq ▸ h)]
    · next hq => exact k.readX_writeX_other v hq

/-- A cluster goes on from a debugger halt, and a halt that it has not taken is withdrawn. -/
def Cluster.resumed (c : Cluster) : Cluster :=
  (if c.event.map (fun e => e.1) = some 1 then { c with event := none } else c).unhalt

theorem Cluster.resumed_of_halted {c : Cluster} (h : c.act = .halted false) : c.resumed.act = .running ∧ c.resumed.pc = c.pc := by
  unfold Cluster.resumed
  split <;> simp [Cluster.unhalt, h]

/-- All clusters of a core whose gang is not being stopped go on. -/
theorem State.resumeCore_eq {s : State} {n : Nat} (hstop : s.coreStop n = .none) :
    s.resumeCore n = s.modCore n fun k => { k.eachCluster Cluster.resumed with halted := false } := by
  simp only [State.resumeCore, hstop]
  rfl

theorem exec_debugResume {s : State} {n : Nat} (hev : s.ev = .nats [n]) : exec .debugResume s = .next (s.resumeCore n) := by
  show execDebugResume s = _
  rw [execDebugResume, hev]
  rfl

end Sys2Proof.Machine
end

section
/-!
Halts, hangs and the debugger (R47, R51, R52, R67, R68, R73, R366): O53, clause by clause.
-/

namespace Sys2Proof.Machine

/-- Settles O53, clause by clause: the halt of a gang, what a cluster does at its quiet point, the watchdog, a hang, and what a debugger
does. -/
theorem haltsAndHangs : Obligations.HaltsAndHangs := by
  refine ⟨?hard, ?event, ?watchdog, ?hang, ?debugHalt, ?debugOff, ?debugWrite, ?debugRefused, ?debugResume⟩
  case hard =>
    intro s n x hev hnode hst hreq hstop
    refine ⟨_, _, exec_hardPreemption hev hnode hst hreq hstop, State.node_stopHard hnode .hard, rfl,
      State.stopHard_mem hnode .hard, ?_⟩
    intro c hc cl hcl hlive hnone
    rw [State.cluster_stopHard hnode, if_pos ⟨hc, hcl⟩, Cluster.raise_event _ _ hlive hnone]
  case event =>
    intro p hp s n c k e hev x hevent hlive hquiet hlate
    have hexec := exec_takeEvent hp hev hevent hlive hquiet hlate
    refine ⟨fun hk hrun => ⟨_, hexec, State.takeEvent_of_running hk hrun p.2⟩, fun hk h hact hkind => ?_, fun hk hnest => ?_⟩
    · obtain ⟨wide, hcluster⟩ := State.takeEvent_of_qsync hk hact hkind p.2
      exact ⟨_, wide, hexec, hcluster⟩
    · subst hk
      exact ⟨_, hexec, State.takeEvent_of_watchdog hnest p.2⟩
  case watchdog =>
    intro s n x hev hnode hdue
    refine ⟨_, exec_watchdog hev hnode hdue, (State.OnlyCores.foldl State.watchCore_onlyCores x.cores s).mem, ?_⟩
    intro c hc cl hcl hwatched
    rw [State.cluster_watchCores, if_pos ⟨hc, hcl⟩, Cluster.watch, if_pos hwatched]
  case hang =>
    intro s n hev hhang
    obtain ⟨unit, cmd, place, row, hexec⟩ := exec_enghang hev hhang
    exact ⟨_, hexec, rfl, rfl, _, rfl, rfl, rfl, rfl⟩
  case debugHalt =>
    intro s n hev hon
    refine ⟨_, exec_debugHaltRequest hev hon, by rw [State.haltCore, State.core_modCore], by rw [State.haltCore, State.modCore_mem],
      fun cl hcl hlive hnone => ?_⟩
    rw [State.cluster_haltCore, if_pos ⟨rfl, hcl⟩, Cluster.raise_event _ _ hlive hnone]
  case debugOff =>
    intro s hoff
    show execDebugHaltRequest s = _
    simp [execDebugHaltRequest, hoff]
  case debugWrite =>
    intro s n c r v hev hin
    refine ⟨_, exec_debugStateWrite_x hev hin, fun q => ?_, State.modCluster_mem ..⟩
    rw [State.cluster_modCluster, Cluster.readX_writeX_eq]
  case debugRefused => exact fun s n d v => exec_debugStateWrite_running
  case debugResume =>
    intro s n c hev hstop hc hact
    have hcl : (s.resumeCore n).cluster n c = (s.cluster n c).resumed := by
      have kept (k : Core) : ({ k with halted := false } : Core).cluster c = k.cluster c := rfl
      rw [State.resumeCore_eq hstop, State.cluster_modCore, if_pos rfl, kept, Core.cluster_eachCluster, if_pos hc, State.cluster]
    obtain ⟨hrun, hpc⟩ := Cluster.resumed_of_halted hact
    refine ⟨_, exec_debugResume hev, ?_, by rw [hcl, hrun], by rw [hcl, hpc], ?_⟩
    · rw [State.resumeCore_eq hstop, State.core_modCore]
    · rw [State.resumeCore_eq hstop, State.modCore_mem]

end Sys2Proof.Machine
end

section
/-!
SUPPORT. Dispatch, the first issue of a gang, its save and the clear of a scratchpad (R32, R46-R49, R54, R353, R355).
-/

namespace Sys2Proof.Machine

/-! ### Dispatch (R353, R355) -/

theorem State.core_setCore_eq (s : State) (n m : Nat) (k : Core) : (s.setCore n k).core m = if m = n then k else s.core m := by
  split
  · next h => rw [h, State.core_setCore]
  · next h => exact s.core_setCore_other k h

theorem State.setCore_onlyCores (s : State) (n : Nat) (k : Core) : s.OnlyCores (s.setCore n k) := rfl

/-- Each core of a list is set to what `k` gives. -/
theorem State.core_foldl_setCore (k : Nat → Core) (l : List Nat) (s : State) (m : Nat) :
    (l.foldl (fun (s : State) n => s.setCore n (k n)) s).core m = if m ∈ l then k m else s.core m := by
  induction l generalizing s with
  | nil => simp
  | cons n l ih =>
    rw [List.foldl_cons, ih, State.core_setCore_eq]
    by_cases hl : m ∈ l <;> by_cases hn : m = n <;> simp [hl, hn]

/-- Node `n` stands in the table as DISPATCHED onto cores. -/
def State.dispatched (s : State) (n : Nat) (x : Node) (cores : List Nat) : State :=
  { s.setNode n { x with st := .dispatched, cores := cores, dispatchNo := s.dispatches, victimOf := none } with
    dispatches := s.dispatches + 1 }

/-- Cores are reserved for node `n`. -/
def State.reserve (s : State) (n : Nat) (cores : List Nat) : State :=
  cores.foldl (fun (s : State) c => s.setCore c { Core.reset with node := some n }) s

theorem State.reserve_onlyCores (s : State) (n : Nat) (cores : List Nat) : s.OnlyCores (s.reserve n cores) :=
  State.OnlyCores.foldl (fun s n => s.setCore_onlyCores n _) cores s

theorem State.core_reserve (s : State) (n : Nat) {cores : List Nat} {c : Nat} (h : c ∈ cores) :
    (s.reserve n cores).core c = { Core.reset with node := some n } := by
  rw [State.reserve, State.core_foldl_setCore (fun _ => { Core.reset with node := some n }), if_pos h]

/-- The first issue of node `n` stands on the agenda, at most 300 cycles from now (R355). -/
def State.withFirstIssue (s : State) (n : Nat) : State :=
  (s.schedule (s.cycle + max 1 (min 300 s.time)) .gangFirstIssue (.nats [n])).useTime

theorem State.withFirstIssue_mem (s : State) (n : Nat) : (s.withFirstIssue n).mem = s.mem := rfl
theorem State.node_withFirstIssue (s : State) (n m : Nat) : (s.withFirstIssue n).node m = s.node m := rfl
theorem State.core_withFirstIssue (s : State) (n m : Nat) : (s.withFirstIssue n).core m = s.core m := rfl

theorem State.due_withFirstIssue (s : State) (n : Nat) : ∃ d ∈ (s.withFirstIssue n).agenda,
    d.row = .gangFirstIssue ∧ s.cycle < d.cycle ∧ d.cycle ≤ s.cycle + 300 ∧ d.args = .nats [n] := by
  refine ⟨_, s.due_schedule (s.cycle + max 1 (min 300 s.time)) .gangFirstIssue (.nats [n]), rfl, ?_, ?_, rfl⟩
  · dsimp only; omega
  · dsimp only; omega

theorem State.dispatch_eq (s : State) (n : Nat) (x : Node) (cores : List Nat) :
    s.dispatch n x cores = ((s.dispatched n x cores).reserve n cores).withFirstIssue n := rfl

theorem State.dispatch_mem (s : State) (n : Nat) (x : Node) (cores : List Nat) : (s.dispatch n x cores).mem = s.mem := by
  rw [State.dispatch_eq, State.withFirstIssue_mem, (State.reserve_onlyCores ..).mem]
  rfl

theorem State.node_dispatch (s : State) (n : Nat) (x : Node) (cores : List Nat) : (s.dispatch n x cores).node n =
    some { x with st := .dispatched, cores := cores, dispatchNo := s.dispatches, victimOf := none } := by
  rw [State.dispatch_eq, State.node_withFirstIssue, (State.reserve_onlyCores ..).node]
  exact State.node_setNode_same ..

theorem State.core_dispatch (s : State) (n : Nat) (x : Node) {cores : List Nat} {c : Nat} (h : c ∈ cores) :
    ((s.dispatch n x cores).core c).node = some n := by
  rw [State.dispatch_eq, State.core_withFirstIssue, State.core_reserve _ n h]

theorem State.due_dispatch (s : State) (n : Nat) (x : Node) (cores : List Nat) : ∃ d ∈ (s.dispatch n x cores).agenda,
    d.row = .gangFirstIssue ∧ s.cycle < d.cycle ∧ d.cycle ≤ s.cycle + 300 ∧ d.args = .nats [n] := by
  have hcycle : ((s.dispatched n x cores).reserve n cores).cycle = s.cycle := (State.reserve_onlyCores ..).cycle
  rw [State.dispatch_eq, ← hcycle]
  exact State.due_withFirstIssue ..

/-- A head that fits sends no pre-emption request. -/
theorem State.preemptFor_fits (s : State) {h : Head} (hfit : h.cores.isSome = true) : s.preemptFor h = s := by
  simp [State.preemptFor, hfit]

/-- The heads are of interfaces below 64 and of priorities below 4. -/
theorem State.mem_heads {s : State} {h : Head} (hm : h ∈ s.heads) : h.v < 64 ∧ h.p < 4 := by
  simp only [State.heads, List.mem_flatMap, List.mem_range] at hm
  obtain ⟨v, hv, hm⟩ := hm
  split at hm
  · simp only [List.mem_filterMap, List.mem_range, Option.map_eq_some_iff] at hm
    obtain ⟨p, hp, e, -, rfl⟩ := hm
    exact ⟨hv, hp⟩
  · simp at hm

/-- The first of the cyclic order after the last one served comes to every interface. -/
theorem exists_turn {v : Nat} (h : v < 64) (last : Nat) : ∃ i < 64, v = (last + 1 + i) % 64 :=
  ⟨(v + 63 - last % 64) % 64, Nat.mod_lt _ (by omega), by omega⟩

/-- The state once a head has been charged for its service. -/
def State.charged (s : State) (h : Head) : State :=
  { s.modVif h.v fun x => { x with credits := SMap.set 1 x.credits h.p (x.credit h.p - 1) } with
    served := SMap.set 63 s.served h.p h.v }

/-- Whatever interface was served last, the turn comes to the only head. -/
theorem findSome_turn {h : Head} (hv : h.v < 64) (last : Nat) {ready : Head → Bool} (hready : ready h = true) :
    ((List.range 64).findSome? fun i => [h].find? fun g => decide (g.v = (last + 1 + i) % 64) && ready g) = some h := by
  obtain ⟨i, hi, hturn⟩ := exists_turn hv last
  have hfound : ((List.range 64).findSome? fun i => [h].find? fun g => decide (g.v = (last + 1 + i) % 64) && ready g).isSome = true :=
    List.findSome?_isSome_iff.mpr ⟨i, List.mem_range.mpr hi, by simp [hturn, hready]⟩
  obtain ⟨g, hg⟩ := Option.isSome_iff_exists.mp hfound
  obtain ⟨j, -, hj⟩ := List.exists_of_findSome?_eq_some hg
  rw [hg, List.mem_singleton.mp (List.mem_of_find?_eq_some hj)]

theorem State.serve_alone {s : State} {h : Head} {cs : List Nat} (hv : h.v < 64) (hcores : h.cores = some cs)
    (hcredit : 0 < (s.vif h.v).credit h.p) : s.serve h.p [h] = (s.charged h).dispatch h.n h.x cs := by
  have hopen : [h].any (fun h' => decide (0 < (s.vif h'.v).credit h.p)) = true := by simp [hcredit]
  have hturn := findSome_turn hv (SMap.get 63 s.served h.p) (ready := fun g => decide (0 < (s.vif g.v).credit h.p))
    (decide_eq_true hcredit)
  simp only [State.serve, hopen, if_true, hturn, hcores]
  rfl

/-- A head alone is dispatched when it fits. -/
theorem State.decision_alone {s : State} {h : Head} {cs : List Nat} (hv : h.v < 64) (hp : h.p < 4) (hcores : h.cores = some cs)
    (hcredit : 0 < (s.vif h.v).credit h.p) : s.decision [h] = (s.charged h).dispatch h.n h.x cs := by
  have hok : [h].filter (fun g => Head.ok [h] g) = [h] := by simp [Head.ok, hcores]
  have hprio : ((List.range 4).find? fun p => [h].any fun g => g.p == p) = some h.p := by
    have hfound : ((List.range 4).find? fun p => [h].any fun g => g.p == p).isSome = true :=
      List.find?_isSome.mpr ⟨h.p, List.mem_range.mpr hp, by simp⟩
    obtain ⟨q, hq⟩ := Option.isSome_iff_exists.mp hfound
    have hpq : h.p = q := by simpa using List.find?_some hq
    rw [hq, hpq]
  unfold State.decision
  simp only [hok, hprio]
  rw [← State.serve_alone hv hcores hcredit]
  simp

theorem exec_paddockDecision_alone {s : State} {h : Head} {cs : List Nat} (htime : s.cycle % 16 = 0) (hreset : s.resetStep = 5)
    (hheads : s.heads = [h]) (hcores : h.cores = some cs) (hcredit : 0 < (s.vif h.v).credit h.p) :
    exec .paddockDecision s = .next ((s.charged h).dispatch h.n h.x cs) := by
  obtain ⟨hv, hp⟩ := s.mem_heads (h := h) (by rw [hheads]; exact List.mem_singleton_self h)
  show execPaddockDecision s = _
  simp only [execPaddockDecision, htime, hreset, hheads]
  simp [State.preemptFor_fits, hcores, State.decision_alone hv hp hcores hcredit]

/-! ### The first issue (R32) -/

theorem State.startSlow_onlyCores (s : State) (n : Nat) : s.OnlyCores (s.startSlow n) := rfl

/-- Of a core that starts only the throttle level changes when its first cycle begins. -/
theorem State.core_startSlows (l : List Nat) (s : State) (m : Nat) :
    ∃ slow, (l.foldl State.startSlow s).core m = { s.core m with slow := slow } := by
  induction l generalizing s with
  | nil => exact ⟨_, rfl⟩
  | cons n l ih =>
    obtain ⟨slow, h⟩ := ih (s.startSlow n)
    rw [List.foldl_cons, h]
    by_cases hm : m = n
    · subst hm
      rw [State.startSlow, State.core_modCore]
      exact ⟨_, rfl⟩
    · rw [State.startSlow, State.core_modCore_other _ _ hm]
      exact ⟨_, rfl⟩

/-- The cores of a gang, each in the state that its rank gives. -/
def State.startCores (s : State) (n : Nat) (x : Node) (m : Nat) : State :=
  (List.range m).foldl (fun (s : State) i => s.setCore (x.cores.getD i 0) (s.startCore n x i)) s

theorem State.startCores_onlyCores (s : State) (n : Nat) (x : Node) (m : Nat) : s.OnlyCores (s.startCores n x m) :=
  State.OnlyCores.foldl (fun s _ => s.setCore_onlyCores _ _) _ s

/-- The start state of a core does not depend on the state of cores. -/
theorem State.OnlyCores.startCore {s t : State} (h : s.OnlyCores t) (n : Nat) (x : Node) (rank : Nat) :
    t.startCore n x rank = s.startCore n x rank := by
  rw [h]
  rfl

theorem State.core_startCores (s : State) (n : Nat) {x : Node} (hx : x.cores.Nodup) {m i : Nat} (hm : m ≤ x.cores.length) (hi : i < m) :
    (s.startCores n x m).core (x.cores.getD i 0) = s.startCore n x i := by
  induction m with
  | zero => omega
  | succ m ih =>
    have last : s.startCores n x (m + 1) = (s.startCores n x m).setCore (x.cores.getD m 0) ((s.startCores n x m).startCore n x m) := by
      rw [State.startCores, List.range_succ, List.foldl_append]
      rfl
    rw [last, State.core_setCore_eq, (s.startCores_onlyCores n x m).startCore]
    by_cases him : i = m
    · rw [him, if_pos rfl]
    · have hne : x.cores.getD i 0 ≠ x.cores.getD m 0 := by
        rw [List.getD_eq_getElem _ _ (by omega), List.getD_eq_getElem _ _ (by omega)]
        exact fun h => him (hx.getElem_inj_iff.mp h)
      rw [if_neg hne, ih (by omega) (by omega)]

/-- A cluster as its core starts (R32). -/
theorem State.cluster_startCore (s : State) (n : Nat) (x : Node) (rank : Nat) {c : Nat} (hc : c < 4) :
    (s.startCore n x rank).cluster c = { Cluster.reset with
      pc := w64 (nrCode x.record + 4 * nrEntry x.record c), x := SMap.set 0 [] 1 (w64 (nrArg x.record)), act := .running } := by
  interval_cases c <;> rfl

theorem State.readX_startCore (s : State) (n : Nat) (x : Node) (rank : Nat) {c : Nat} (hc : c < 4) (r : Nat) :
    ((s.startCore n x rank).cluster c).readX r = if r = 1 then w64 (nrArg x.record) else 0 := by
  rw [State.cluster_startCore s n x rank hc, Cluster.readX, SMap.get_set]
  rcases r with _ | r
  · rfl
  · rfl

theorem State.readP_startCore (s : State) (n : Nat) (x : Node) (rank : Nat) {c : Nat} (hc : c < 4) (r : Nat) :
    ((s.startCore n x rank).cluster c).readP r = 0xFFFF := by
  rw [State.cluster_startCore s n x rank hc, Cluster.readP]
  split <;> rfl

/-- The node runs: what was saved of it is taken up. -/
def Node.runningNow (x : Node) : Node := { x with st := .running, saved := [], savedMem := [], savedRanges := [] }

theorem exec_gangFirstIssue_fresh {s : State} {n : Nat} {x : Node} (hev : s.ev = .nats [n]) (hnode : s.node n = some x)
    (hst : x.st = .dispatched) (hsaved : x.saved = []) : exec .gangFirstIssue s =
      .next (x.cores.foldl State.startSlow ((s.setNode n x.runningNow).startCores n x x.cores.length)) := by
  show execGangFirstIssue s = _
  have h0 : s.ev.nat 0 = n := by rw [hev]; rfl
  simp only [execGangFirstIssue, h0, hnode, hst, hsaved]
  rfl

/-- The saved cores of a node take up their contexts. -/
def State.resumeCores (s : State) (n : Nat) (l : List (Nat × Core)) : State :=
  l.foldl (fun (s : State) e => s.setCore e.1 (e.2.resume n s.cycle)) s

theorem State.resumeCores_onlyCores (s : State) (n : Nat) (l : List (Nat × Core)) : s.OnlyCores (s.resumeCores n l) :=
  State.OnlyCores.foldl (fun s _ => s.setCore_onlyCores _ _) l s

theorem State.core_resumeCores_other (s : State) (n : Nat) {l : List (Nat × Core)} {m : Nat} (h : m ∉ l.map fun e => e.1) :
    (s.resumeCores n l).core m = s.core m := by
  induction l generalizing s with
  | nil => rfl
  | cons e l ih =>
    simp only [List.map_cons, List.mem_cons, not_or] at h
    obtain ⟨hm, hl⟩ := h
    exact (ih _ hl).trans (s.core_setCore_other _ hm)

theorem State.core_resumeCores (s : State) (n : Nat) {l : List (Nat × Core)} (hl : (l.map fun e => e.1).Nodup) {e : Nat × Core}
    (he : e ∈ l) : (s.resumeCores n l).core e.1 = e.2.resume n s.cycle := by
  induction l generalizing s with
  | nil => cases he
  | cons f l ih =>
    simp only [List.map_cons, List.nodup_cons] at hl
    obtain ⟨hf, hl⟩ := hl
    rcases List.mem_cons.mp he with rfl | he
    · exact (State.core_resumeCores_other _ n hf).trans (s.core_setCore ..)
    · exact ih (s.setCore f.1 (f.2.resume n s.cycle)) hl he

/-- Slabs that start again are steps put on the agenda. -/
theorem State.restartSlabs_eq (s : State) (n : Nat) : ∃ agenda, s.restartSlabs n = { s with agenda := agenda } := by
  unfold State.restartSlabs
  refine List.foldlRecOn (motive := fun t : State => ∃ agenda, t = { s with agenda := agenda }) _ _ ⟨s.agenda, rfl⟩ fun t ht e _ => ?_
  split
  · refine List.foldlRecOn (motive := fun t : State => ∃ agenda, t = { s with agenda := agenda }) _ _ ht fun t ht x _ => ?_
    obtain ⟨agenda, rfl⟩ := ht
    exact ⟨_, rfl⟩
  · exact ht

theorem exec_gangFirstIssue_saved {s : State} {n : Nat} {x : Node} (hev : s.ev = .nats [n]) (hnode : s.node n = some x)
    (hst : x.st = .dispatched) (hsaved : x.saved ≠ []) (hmem : x.savedMem = []) (hranges : x.savedRanges = []) :
    exec .gangFirstIssue s =
      .next ((x.cores.foldl State.startSlow ((s.setNode n x.runningNow).resumeCores n x.saved)).restartSlabs n) := by
  show execGangFirstIssue s = _
  have h0 : s.ev.nat 0 = n := by rw [hev]; rfl
  have hsome : x.saved.isEmpty = false := by simpa using hsaved
  have hkept (l : List Host.Cell) : l.filter (fun e => !inSpans [] e.1) = l := by simp [inSpans]
  simp only [execGangFirstIssue, h0, hnode, hst, hsome, hmem, hranges, hkept, SMap.setAll]
  rfl

/-! ### Saves (R46-R49) -/

theorem exec_preemptDrainEnd {s : State} {n : Nat} {x : Node} (hev : s.ev = .nats [n]) (hnode : s.node n = some x)
    (hdrained : s.drained n = true) : exec .preemptDrainEnd s =
      .next ((s.setNode n { x with stop := .saving (decide (x.stop ≠ .drain)) }).scheduleOpen 1 .contextSaveComplete (.nats [n])) := by
  show execPreemptDrainEnd s = _
  have h0 : s.ev.nat 0 = n := by rw [hev]; rfl
  simp only [execPreemptDrainEnd, h0, hdrained, if_true, State.modNode_some hnode]

/-- Cores that are released: only they and the agenda change. -/
theorem State.freeCores_eq (s : State) (l : List Nat) : ∃ agenda cores,
    l.foldl State.freeCore s = { s with agenda := agenda, cores := cores } :=
  List.foldlRecOn (motive := fun t : State => ∃ agenda cores, t = { s with agenda := agenda, cores := cores }) _ _ ⟨_, _, rfl⟩
    fun t ht n _ => by
      obtain ⟨agenda, cores, rfl⟩ := ht
      exact ⟨_, _, rfl⟩

theorem State.core_freeCore (s : State) (n m : Nat) : (s.freeCore n).core m = if m = n then Core.reset else s.core m :=
  State.core_setCore_eq _ n m _

theorem State.core_freeCores (s : State) (l : List Nat) (m : Nat) :
    (l.foldl State.freeCore s).core m = if m ∈ l then Core.reset else s.core m := by
  induction l generalizing s with
  | nil => simp
  | cons n l ih =>
    rw [List.foldl_cons, ih, State.core_freeCore]
    by_cases hl : m ∈ l <;> by_cases hn : m = n <;> simp [hl, hn]

/-- The bytes that a save writes. -/
def State.saveBytes (s : State) (x : Node) : State :=
  (s.saveArea x).foldl (fun (t : State) e => t.setByte e.2 (Config.saveByte s.freeCtr e.1)) s

theorem State.saveBytes_spec (s : State) (x : Node) : (∃ m, s.saveBytes x = { s with mem := m }) ∧
    s.sameBytesBut (s.saveBytes x) ((s.saveArea x).map fun e => s.media e.2) := by
  refine List.foldlRecOn (motive := fun t : State => (∃ m, t = { s with mem := m }) ∧
    s.sameBytesBut t ((s.saveArea x).map fun e => s.media e.2)) _ _ ⟨⟨_, rfl⟩, fun _ _ => rfl⟩ fun t ht e he => ?_
  obtain ⟨⟨m, rfl⟩, hsame⟩ := ht
  refine ⟨⟨_, rfl⟩, fun pa hpa => ?_⟩
  have hne : s.media pa ≠ s.media e.2 := fun h => hpa (h ▸ List.mem_map_of_mem he)
  exact (State.byte_setByte ..).trans ((if_neg hne).trans (hsame pa hpa))

/-- A save writes bytes, and only in the save area. -/
theorem State.writeSave_spec (s : State) (x : Node) : (∃ m ctr, s.writeSave x = { s with mem := m, freeCtr := ctr }) ∧
    s.sameBytesBut (s.writeSave x) ((s.saveArea x).map fun e => s.media e.2) := by
  obtain ⟨⟨m, hm⟩, hsame⟩ := s.saveBytes_spec x
  have hsave : s.writeSave x = { s.saveBytes x with freeCtr := s.freeCtr + 1 } := rfl
  exact ⟨⟨m, s.freeCtr + 1, by rw [hsave, hm]⟩, hsame⟩

/-- A node as its full save leaves it (R47). -/
def State.suspended (s : State) (x : Node) (saved : List (Nat × Core)) (spans : List (Nat × Nat)) : Node :=
  { x with st := .suspended, stop := .none, reqAt := none, saved := saved, savedRanges := spans,
           savedMem := s.mem.filter fun e => inSpans spans e.1 }

/-- A save that no translation fault asked for. -/
theorem State.suspend_eq {s : State} {x : Node} (hfault : x.faultVa = none) (n : Nat) (saved : List (Nat × Core))
    (spans : List (Nat × Nat)) :
    s.suspend n x saved spans = x.cores.foldl State.freeCore ((s.writeSave x).setNode n (s.suspended x saved spans)) := by
  simp only [State.suspend, State.suspended, hfault]

/-- It suspends the node, frees its cores, and changes bytes of the save area at most. -/
theorem State.suspend_spec {s : State} {x : Node} (hfault : x.faultVa = none) (n : Nat) (saved : List (Nat × Core))
    (spans : List (Nat × Nat)) :
    (s.suspend n x saved spans).node n = some (s.suspended x saved spans) ∧
      (∀ c ∈ x.cores, ((s.suspend n x saved spans).core c).node = none) ∧
      s.sameBytesBut (s.suspend n x saved spans) ((s.saveArea x).map fun e => s.media e.2) := by
  obtain ⟨⟨m, ctr, hsave⟩, hsame⟩ := s.writeSave_spec x
  obtain ⟨agenda, cores, hfree⟩ := ((s.writeSave x).setNode n (s.suspended x saved spans)).freeCores_eq x.cores
  rw [State.suspend_eq hfault]
  generalize s.writeSave x = u at *
  refine ⟨?_, fun c hc => by rw [State.core_freeCores, if_pos hc]; rfl, fun pa hpa => ?_⟩
  · rw [hfree]
    exact State.node_setNode_same ..
  · refine Eq.trans ?_ (hsame pa hpa)
    rw [hfree]
    rfl

theorem exec_contextSaveComplete_full {s : State} {n : Nat} {x : Node} (hev : s.ev = .nats [n]) (hnode : s.node n = some x)
    (hstop : x.stop = .saving true) : exec .contextSaveComplete s =
      .next (s.suspend n x (x.cores.map fun c => (c, (s.core c).fullState s.cycle))
        (x.cores.map fun c => (scratchBase + c * scratchSize, scratchSize))) := by
  show execContextSaveComplete s = _
  have h0 : s.ev.nat 0 = n := by rw [hev]; rfl
  simp only [execContextSaveComplete, h0, hnode, hstop]

/-! ### Scratchpads (R54) -/

/-- A memory without the cells that `p` names reads 0 there, and elsewhere as before. -/
theorem get_filter_key {α : Type} (d : α) (p : Nat → Bool) (m : SMap α) (k : Nat) :
    SMap.get d (m.filter fun e => p e.1) k = if p k = true then SMap.get d m k else d := by
  induction m with
  | nil => simp [SMap.get]
  | cons e m ih =>
    rcases eq_or_ne e.1 k with rfl | he
    · by_cases hp : p e.1 = true <;> simp [SMap.get, hp, ih]
    · by_cases hp : p e.1 = true <;> simp [SMap.get, hp, he, ih]

/-- The scratchpad of core `n` has been cleared, and no interface had the core last. -/
def State.cleared (s : State) (n : Nat) : State :=
  { s with clears := s.clears.filter fun c => decide (c ≠ n),
           mem := s.mem.filter fun e => !inSpans [(scratchBase + n * scratchSize, scratchSize)] e.1,
           owners := SMap.set 0 s.owners n 0 }

theorem exec_scratchpadClear {s : State} {n : Nat} (hev : s.ev = .nats [n]) (hpend : s.clears.contains n = true) :
    exec .scratchpadClear s = .next (s.cleared n) := by
  show execScratchpadClear s = _
  have h0 : s.ev.nat 0 = n := by rw [hev]; rfl
  simp only [execScratchpadClear, h0, hpend, if_true]
  rfl

theorem State.cleared_clears (s : State) (n : Nat) : (s.cleared n).clears.contains n = false := by simp [State.cleared]

theorem State.cleared_owner (s : State) (n : Nat) : SMap.get 0 (s.cleared n).owners n = 0 := SMap.get_set_same 0 s.owners n 0

theorem State.cleared_get (s : State) (n a : Nat) : SMap.get memDefault (s.cleared n).mem a =
    if scratchBase + n * scratchSize ≤ a ∧ a < scratchBase + n * scratchSize + scratchSize then 0 else SMap.get memDefault s.mem a := by
  refine (get_filter_key memDefault (fun k => !inSpans [(scratchBase + n * scratchSize, scratchSize)] k) s.mem a).trans ?_
  by_cases h : scratchBase + n * scratchSize ≤ a ∧ a < scratchBase + n * scratchSize + scratchSize
  · rw [if_pos h, if_neg (by simp [inSpans, h])]
    rfl
  · rw [if_neg h, if_pos (by simp only [inSpans, List.any_cons, List.any_nil, Bool.or_false, decide_eq_false h, Bool.not_false])]

end Sys2Proof.Machine
end

section
/-!
SUPPORT. What the end of a node and of its graph leaves alone (R38, R40, R50).
-/

namespace Sys2Proof.Machine

/-! ### Events posted to the host (R351) -/

theorem State.flushEvents_eq (v : Nat) (l : List Nat) (s : State) : ∃ mem rings,
    s.flushEvents v l = { s with mem := mem, rings := rings } := by
  induction l generalizing s with
  | nil => exact ⟨s.mem, s.rings, rfl⟩
  | cons e l ih =>
    simp only [State.flushEvents]
    split
    · obtain ⟨m, hm⟩ := s.writeN_eq (s.ring v).eventAddr 64 (e + stampOf (s.ring v).events * 2 ^ 496)
      obtain ⟨mem, rings, h⟩ := ih ((s.writeN (s.ring v).eventAddr 64 (e + stampOf (s.ring v).events * 2 ^ 496)).modRing v fun r =>
        { r with events := r.events + 1, held := l })
      exact ⟨mem, rings, by rw [h, hm]; rfl⟩
    · exact ⟨s.mem, s.rings, rfl⟩

theorem State.postEvent_eq (s : State) (v e : Nat) : ∃ mem rings, s.postEvent v e = { s with mem := mem, rings := rings } := by
  obtain ⟨mem, rings, h⟩ := (s.modRing v fun r => { r with held := r.held ++ [e + s.cycle % 2 ^ 64 * 2 ^ 384] }).flushEvents_eq v
    ((s.modRing v fun r => { r with held := r.held ++ [e + s.cycle % 2 ^ 64 * 2 ^ 384] }).ring v).held
  exact ⟨mem, rings, h.trans rfl⟩

theorem State.nodeEvent_eq (s : State) (x : Node) (kind : Nat) (r : Report) : ∃ mem rings reports,
    s.nodeEvent x kind r = { s with mem := mem, rings := rings, reports := reports } := by
  unfold State.nodeEvent
  split
  · exact ⟨s.mem, s.rings, s.reports, rfl⟩
  · next g _ =>
    obtain ⟨mem, rings, h⟩ := State.postEvent_eq
      { s with reports := s.reports ++ [{ vi := g.vi, handle := g.handle, index := x.index, kind := kind, report := r }] } g.vi _
    exact ⟨mem, rings, _, h⟩

/-! ### Settling a graph (R40) -/

/-- The cores are the same, no add is lost, and node `n` stays complete if it is and while it stands in the table. -/
def State.Settles (n : Nat) (s t : State) : Prop :=
  t.cores = s.cores ∧ s.adds ⊆ t.adds ∧
    ((∀ y, s.node n = some y → y.st = .complete) → ∀ y, t.node n = some y → y.st = .complete)

theorem State.Settles.refl (n : Nat) (s : State) : s.Settles n s := ⟨rfl, List.Subset.refl _, id⟩

theorem State.Settles.trans {n : Nat} {s t u : State} (h : s.Settles n t) (g : t.Settles n u) : s.Settles n u := by
  obtain ⟨h1, h2, h3⟩ := h
  obtain ⟨g1, g2, g3⟩ := g
  exact ⟨g1.trans h1, List.Subset.trans h2 g2, g3 ∘ h3⟩

theorem State.Settles.foldl {α : Type} {n : Nat} {f : State → α → State} (h : ∀ (s : State) (a : α), s.Settles n (f s a))
    (l : List α) (s : State) : s.Settles n (l.foldl f s) :=
  List.foldlRecOn (motive := fun t : State => s.Settles n t) _ _ (.refl n s) fun t ht a _ => ht.trans (h t a)

theorem State.postEvent_settles (n : Nat) (s : State) (v e : Nat) : s.Settles n (s.postEvent v e) := by
  obtain ⟨mem, rings, h⟩ := s.postEvent_eq v e
  rw [h]
  exact .refl n s

theorem State.nodeEvent_settles (n : Nat) (s : State) (x : Node) (kind : Nat) (r : Report) : s.Settles n (s.nodeEvent x kind r) := by
  obtain ⟨mem, rings, reports, h⟩ := s.nodeEvent_eq x kind r
  rw [h]
  exact .refl n s

theorem State.node_nodeEvent (s : State) (x : Node) (kind : Nat) (r : Report) (n : Nat) : (s.nodeEvent x kind r).node n = s.node n := by
  obtain ⟨mem, rings, reports, h⟩ := s.nodeEvent_eq x kind r
  rw [h]
  rfl

/-- A change of another node. -/
theorem State.modNode_settles {n m : Nat} (s : State) (f : Node → Node)
    (h : (∀ y, s.node n = some y → y.st = .complete) → m ≠ n) : s.Settles n (s.modNode m f) := by
  unfold State.modNode
  split
  · refine ⟨rfl, List.Subset.refl _, fun hdone y hy => ?_⟩
    rw [State.node_setNode, if_neg (h hdone).symm] at hy
    exact hdone y hy
  · exact .refl n s

/-- A node that settles is WAITING, and so is not complete. -/
theorem State.ne_of_unsettled {s : State} {n m : Nat} (h : s.unsettled m = true) (hdone : ∀ y, s.node n = some y → y.st = .complete) :
    m ≠ n := by
  rintro rfl
  unfold State.unsettled at h
  split at h
  · cases h
  · next x hx => simp [hdone x hx] at h

theorem State.settleNode_settles (n : Nat) (g : Graph) (s : State) (m : Nat) : s.Settles n (s.settleNode g m) := by
  unfold State.settleNode
  split
  · exact .refl n s
  · next x _ =>
    split
    · exact .refl n s
    · next hun =>
      have hne : (∀ y, s.node n = some y → y.st = .complete) → m ≠ n := State.ne_of_unsettled (by simpa using hun)
      have ends (kind : Nat) (r : Report) (st : NodeState) : s.Settles n ((s.nodeEvent x kind r).finishNode m st) :=
        (s.nodeEvent_settles n x kind r).trans (State.modNode_settles _ _ (by simpa only [State.node_nodeEvent] using hne))
      split
      · exact ends ..
      · dsimp only
        split
        · exact s.modNode_settles _ hne
        · split
          · exact s.modNode_settles _ hne
          · exact ends ..

theorem State.settleRounds_settles (n : Nat) (g : Graph) (k : Nat) (s : State) : s.Settles n (s.settleRounds g k) := by
  induction k generalizing s with
  | zero => exact .refl n s
  | succ k ih =>
    simp only [State.settleRounds]
    split
    · exact (State.Settles.foldl (State.settleNode_settles n g) g.nodes s).trans (ih _)
    · exact .refl n s

/-- An add is queued with those of its cycle. -/
theorem State.queueAdd_settles (n : Nat) (s : State) (c : CtrName) (amount : Nat) (src : AddSrc) :
    s.Settles n (s.queueAdd c amount src) :=
  ⟨rfl, fun _ h => mem_insertAdd.mpr (.inr h), id⟩

theorem State.graphAdd_settles (n : Nat) (s : State) (g : Graph) : s.Settles n (s.graphAdd g).1 := by
  unfold State.graphAdd
  split
  · exact .refl n s
  · split
    · exact s.queueAdd_settles n ..
    · exact .refl n s

/-- The nodes of a graph leave the table with it. -/
theorem State.dropGraph_settles (n : Nat) (s : State) (i : Nat) (g : Graph) :
    s.Settles n { s with nodes := s.nodes.filter fun e => !g.nodes.contains e.1, graphs := SMap.erase s.graphs i } := by
  refine ⟨rfl, List.Subset.refl _, fun hdone y hy => ?_⟩
  have hget := get_filter_key none (fun k => !g.nodes.contains k) s.nodes n
  have hy' : SMap.get none (s.nodes.filter fun e => !g.nodes.contains e.1) n = some y := hy
  rw [hget] at hy'
  split at hy'
  · exact hdone y hy'
  · cases hy'

/-- A graph that has ended posts its events and makes its add (R38, R40). -/
theorem State.endGraph_settles (n : Nat) (s : State) (i : Nat) (g : Graph) : s.Settles n (s.endGraph i g) := by
  unfold State.endGraph
  dsimp only
  split
  · refine State.Settles.trans ?_ (State.dropGraph_settles n _ i g)
    refine State.Settles.trans (State.Settles.trans ?_ (State.graphAdd_settles ..)) (State.postEvent_settles ..)
    split
    · exact .refl n s
    · exact State.Settles.trans (.refl n s) (State.postEvent_settles n (s.freeBuffer ..) ..)
  · exact .refl n s

theorem State.settleGraph_settles (n : Nat) (s : State) (i : Nat) : s.Settles n (s.settleGraph i) := by
  unfold State.settleGraph
  split
  · exact .refl n s
  · exact (s.settleRounds_settles n _ _).trans (State.endGraph_settles n ..)

/-! ### Completion (R50) -/

/-- A node that completes stays so, or leaves the table with its graph; the cores and the adds of the cycle are as before. -/
theorem State.endNode_complete (s : State) (n : Nat) (r : Report) : (s.endNode n .complete r).cores = s.cores ∧
    s.adds ⊆ (s.endNode n .complete r).adds ∧ ∀ y, (s.endNode n .complete r).node n = some y → y.st = .complete := by
  unfold State.endNode
  split
  · next h => exact ⟨rfl, List.Subset.refl _, fun y hy => by rw [h] at hy; cases hy⟩
  · next x h =>
    obtain ⟨hcores, hadds, hnode⟩ := (s.finishNode n .complete).settleGraph_settles n x.graph
    have hfinish : (s.finishNode n .complete).cores = s.cores ∧ (s.finishNode n .complete).adds = s.adds ∧
      ∀ y, (s.finishNode n .complete).node n = some y → y.st = .complete := by
      rw [State.finishNode, State.modNode_some h]
      refine ⟨rfl, rfl, fun y hy => ?_⟩
      rw [State.node_setNode_same] at hy
      cases hy
      rfl
    obtain ⟨fcores, fadds, fnode⟩ := hfinish
    exact ⟨hcores.trans fcores, fadds ▸ hadds, hnode fnode⟩

/-- The node is stopped and its cores are released, once the buffered DT stores are committed. -/
def State.released (s : State) (n : Nat) (x : Node) : State := (s.commitGang (s.gangOf (x.cores.headD 0))).stopGang n x

theorem State.resident_of_gangDone {s : State} {x : Node} (h : s.gangDone x = true) : x.resident = true := by
  simp only [State.gangDone, Bool.and_eq_true, decide_eq_true_eq] at h
  obtain ⟨⟨hst, -⟩, -⟩ := h
  rw [Node.resident, hst]

theorem State.core_stopGang (s : State) {n : Nat} {x : Node} (hx : x.resident = true) {c : Nat} (hc : c ∈ x.cores) :
    (s.stopGang n x).core c = Core.reset := by
  simp only [State.stopGang, hx, if_true]
  rw [State.core_freeCores, if_pos hc]

/-- The add of the done counter of a node, where it has one that resolves. -/
def State.doneAdd (s : State) (x : Node) : State :=
  match s.graph x.graph with
  | none => s
  | some g =>
      if nrDone x.record = 0 then s
      else match s.graphCounter g (nrDone x.record) with
        | .ok c => s.queueAdd c 1 (.silent true)
        | .error _ => s

theorem State.doneAdd_cores (s : State) (x : Node) : (s.doneAdd x).cores = s.cores := by
  unfold State.doneAdd
  repeat' split
  all_goals rfl

theorem State.doneAdd_of_counter {s : State} {x : Node} {g : Graph} {c : CtrName} (hg : s.graph x.graph = some g)
    (hdone : nrDone x.record ≠ 0) (hc : s.graphCounter g (nrDone x.record) = .ok c) : s.doneAdd x = s.queueAdd c 1 (.silent true) := by
  simp [State.doneAdd, hg, hdone, hc]

theorem exec_gangComplete {s : State} {n : Nat} {x : Node} (hev : s.ev = .nats [n]) (hnode : s.node n = some x)
    (hdone : s.gangDone x = true) : exec .gangComplete s = .next (((s.released n x).doneAdd x).endNode n .complete .bare) := by
  show execGangComplete s = _
  have h0 : s.ev.nat 0 = n := by rw [hev]; rfl
  simp only [execGangComplete, h0, hnode, hdone, if_true]
  rfl

end Sys2Proof.Machine
end

section
/-!
The life of a gang (R32, R40, R46-R50, R54, R353, R355): O52, clause by clause.
-/

namespace Sys2Proof.Machine

/-- The first instructions of a gang that starts (R32): every cluster in its start state. -/
theorem gangFirstIssue_fresh {s : State} {n : Nat} {x : Node} (hev : s.ev = .nats [n]) (hnode : s.node n = some x)
    (hst : x.st = .dispatched) (hsaved : x.saved = []) (hx : x.cores.Nodup) :
    ∃ t y, exec .gangFirstIssue s = .next t ∧ t.node n = some y ∧ y.st = .running ∧ y.cores = x.cores ∧ t.mem = s.mem ∧
      ∀ i, i < x.cores.length → let k := t.core (x.cores.getD i 0)
        k.grank.toNat = i % 64 ∧ k.node = some n ∧ ∀ c, c < 4 →
          (k.cluster c).pc = w64 (fld x.record 0 64 + 4 * fld x.record (64 + 16 * c) 16) ∧ (k.cluster c).super = false ∧
          (k.cluster c).act = .running ∧ (∀ r, (k.cluster c).readX r = if r = 1 then w64 (fld x.record 128 64) else 0) ∧
          ∀ r, (k.cluster c).readP r = 0xFFFF := by
  let u := s.setNode n x.runningNow
  let v := u.startCores n x x.cores.length
  have hv : u.OnlyCores v := u.startCores_onlyCores n x x.cores.length
  have ht : u.OnlyCores (x.cores.foldl State.startSlow v) := hv.trans (State.OnlyCores.foldl State.startSlow_onlyCores x.cores v)
  refine ⟨_, x.runningNow, exec_gangFirstIssue_fresh hev hnode hst hsaved, (ht.node n).trans (State.node_setNode_same ..), rfl, rfl,
    ht.mem, fun i hi => ?_⟩
  obtain ⟨slow, hslow⟩ := v.core_startSlows x.cores (x.cores.getD i 0)
  rw [u.core_startCores n hx le_rfl hi] at hslow
  have hcluster (c : Nat) : ((x.cores.foldl State.startSlow v).core (x.cores.getD i 0)).cluster c = (u.startCore n x i).cluster c := by
    rw [hslow]
    rfl
  refine ⟨by rw [hslow]; exact BitVec.toNat_ofNat i 6, by rw [hslow]; rfl, fun c hc => ?_⟩
  have hstart := u.cluster_startCore n x i hc
  rw [hcluster c]
  exact ⟨by rw [hstart]; rfl, by rw [hstart]; rfl, by rw [hstart], u.readX_startCore n x i hc, u.readP_startCore n x i hc⟩

/-- The first instructions of a gang that resumes. -/
theorem gangFirstIssue_saved {s : State} {n : Nat} {x : Node} (hev : s.ev = .nats [n]) (hnode : s.node n = some x)
    (hst : x.st = .dispatched) (hsaved : x.saved ≠ []) (hkeys : (x.saved.map fun e => e.1).Nodup) (hmem : x.savedMem = [])
    (hranges : x.savedRanges = []) :
    ∃ t y, exec .gangFirstIssue s = .next t ∧ t.node n = some y ∧ y.st = .running ∧ t.mem = s.mem ∧
      ∀ e ∈ x.saved, (t.core e.1).cl = e.2.cl ∧ (t.core e.1).tiles = e.2.tiles ∧ (t.core e.1).k = e.2.k ∧
        (t.core e.1).acc = e.2.acc ∧ (t.core e.1).loadQ = e.2.loadQ ∧ (t.core e.1).node = some n := by
  let u := s.setNode n x.runningNow
  let v := u.resumeCores n x.saved
  have ht : u.OnlyCores (x.cores.foldl State.startSlow v) :=
    (u.resumeCores_onlyCores n x.saved).trans (State.OnlyCores.foldl State.startSlow_onlyCores x.cores v)
  obtain ⟨agenda, hslabs⟩ := (x.cores.foldl State.startSlow v).restartSlabs_eq n
  refine ⟨_, x.runningNow, exec_gangFirstIssue_saved hev hnode hst hsaved hmem hranges, ?_, rfl, ?_, fun e he => ?_⟩
  · rw [hslabs]
    exact (ht.node n).trans (State.node_setNode_same ..)
  · rw [hslabs]
    exact ht.mem
  · obtain ⟨slow, hslow⟩ := v.core_startSlows x.cores e.1
    have hcore : ((x.cores.foldl State.startSlow v).restartSlabs n).core e.1 = { e.2.resume n u.cycle with slow := slow } := by
      rw [hslabs, ← u.core_resumeCores n hkeys he]
      exact hslow
    rw [hcore]
    exact ⟨rfl, rfl, rfl, rfl, rfl, rfl⟩

/-- A gang that completes leaves its cores, and its done counter is among the adds of the cycle. -/
theorem gangComplete_done {s : State} {n : Nat} {x : Node} (hev : s.ev = .nats [n]) (hnode : s.node n = some x)
    (hdone : s.gangDone x = true) :
    let v := s.released n x
    ∃ t, exec .gangComplete s = .next t ∧ (∀ y, t.node n = some y → y.st = .complete) ∧
      (∀ c ∈ x.cores, (t.core c).node = none) ∧
      ∀ g c, v.graph x.graph = some g → nrDone x.record ≠ 0 → v.graphCounter g (nrDone x.record) = .ok c →
        ∃ a ∈ t.adds, a.ctr = c ∧ a.amount = 1 := by
  intro v
  obtain ⟨hcores, hadds, hend⟩ := (v.doneAdd x).endNode_complete n .bare
  refine ⟨_, exec_gangComplete hev hnode hdone, hend, fun c hc => ?_, fun g c hg hctr hc => ?_⟩
  · have hkept : ((v.doneAdd x).endNode n .complete .bare).core c = v.core c :=
      congrArg (fun m => SMap.get Core.reset m c) (hcores.trans (v.doneAdd_cores x))
    have hfree : v.core c = Core.reset := State.core_stopGang _ (State.resident_of_gangDone hdone) hc
    rw [hkept, hfree]
    rfl
  · refine ⟨{ ctr := c, amount := 1, src := .silent true }, hadds ?_, rfl, rfl⟩
    rw [State.doneAdd_of_counter hg hctr hc]
    exact mem_insertAdd.mpr (.inl rfl)

/-- Settles O52, clause by clause. That a save writes its save area at most, with bytes that are free values, is log entry 57. -/
theorem gangLife : Obligations.GangLife := by
  refine ⟨?notNow, ?dispatch, ?starts, ?resumes, ?drainEnd, ?save, ?complete, ?clear⟩
  case notNow =>
    intro s h
    show execPaddockDecision s = _
    exact if_pos h
  case dispatch =>
    intro s h cs htime hreset hheads hcores hcredit
    exact ⟨_, _, exec_paddockDecision_alone htime hreset hheads hcores hcredit, State.node_dispatch .., rfl, rfl,
      State.dispatch_mem .., fun c hc => State.core_dispatch _ _ _ hc, State.due_dispatch (s.charged h) ..⟩
  case starts => exact fun s n x hev hnode hst hsaved hx => gangFirstIssue_fresh hev hnode hst hsaved hx
  case resumes =>
    exact fun s n x hev hnode hst hsaved hkeys hmem hranges _ => gangFirstIssue_saved hev hnode hst hsaved hkeys hmem hranges
  case drainEnd =>
    intro s n x hev hnode hdrained
    refine ⟨_, _, exec_preemptDrainEnd hev hnode hdrained, State.node_setNode_same .., rfl, by simp, by simp, ?_⟩
    exact State.due_scheduleOpen (s.setNode n _) Nat.one_pos ..
  case save =>
    intro s n x hev hnode hstop hfault
    obtain ⟨hnode', hcores, hbytes⟩ := State.suspend_spec hfault n (x.cores.map fun c => (c, (s.core c).fullState s.cycle))
        (x.cores.map fun c => (scratchBase + c * scratchSize, scratchSize))
    exact ⟨_, _, exec_contextSaveComplete_full hev hnode hstop, hnode', rfl, rfl, rfl, hcores, hbytes⟩
  case complete => exact fun s n x hev hnode hdone => gangComplete_done hev hnode hdone
  case clear =>
    intro s n hev hpend
    exact ⟨_, exec_scratchpadClear hev hpend, s.cleared_clears n, s.cleared_owner n, s.cleared_get n⟩

end Sys2Proof.Machine
end

section
/-!
SUPPORT. Bit fields (R74-R91): what each field of a word that is written as a list of fields reads, and the formats of the three
length classes: what a word of a format reads are the codes by which the decoder finds a row, the reserved fields, and the operands.
-/

namespace Sys2Proof

/-! ### A field of a list of fields -/

@[simp] theorem fld_of_lt {v n : Nat} (h : v < 2 ^ n) : fld v 0 n = v := by
  rw [fld, pow_zero, Nat.div_one, Nat.mod_eq_of_lt h]

@[simp] theorem fld_zero (lo n : Nat) : fld 0 lo n = 0 := by
  rw [fld, Nat.zero_div, Nat.zero_mod]

/-- A field above the first of a list is one of the rest. -/
@[simp] theorem fld_cat_above {p : Nat × Nat} {t : List (Nat × Nat)} {lo n : Nat} (h : p.1 ≤ lo) :
    fld (cat (p :: t)) lo n = fld (cat t) (lo - p.1) n := by
  obtain ⟨k, rfl⟩ := Nat.exists_eq_add_of_le h
  have hp : p.2 % 2 ^ p.1 < 2 ^ p.1 := Nat.mod_lt _ (Nat.two_pow_pos _)
  rw [fld, fld, cat, pow_add, ← Nat.div_div_eq_div_mul, Nat.add_mul_div_left _ _ (Nat.two_pow_pos _),
    Nat.div_eq_of_lt hp, Nat.zero_add, Nat.add_sub_cancel_left]

theorem fld_eq_mod_div (w lo n : Nat) : fld w lo n = w % 2 ^ (lo + n) / 2 ^ lo := by
  rw [fld, pow_add, Nat.mod_mul_right_div_self]

/-- A field within the first of a list is one of its value. -/
@[simp] theorem fld_cat_within {p : Nat × Nat} {t : List (Nat × Nat)} {lo n : Nat} (h : lo + n ≤ p.1) :
    fld (cat (p :: t)) lo n = fld p.2 lo n := by
  have hdvd : 2 ^ (lo + n) ∣ 2 ^ p.1 := pow_dvd_pow 2 h
  have low : cat (p :: t) % 2 ^ (lo + n) = p.2 % 2 ^ (lo + n) := by
    rw [cat, Nat.add_mod, Nat.mod_mod_of_dvd _ hdvd, Nat.mod_eq_zero_of_dvd (hdvd.mul_right _), Nat.add_zero, Nat.mod_mod]
  rw [fld_eq_mod_div, low, ← fld_eq_mod_div]

/-- A field of a field is a field. -/
theorem fld_fld (w : Nat) {lo n a k : Nat} (h : a + k ≤ n) : fld (fld w lo n) a k = fld w (lo + a) k := by
  rw [fld_eq_mod_div (fld w lo n) a k, fld, fld, Nat.mod_mod_of_dvd _ (pow_dvd_pow 2 h), pow_add 2 lo a, ← Nat.div_div_eq_div_mul,
    pow_add, Nat.mod_mul_right_div_self]

theorem cat_lt (l : List (Nat × Nat)) : cat l < 2 ^ (l.map Prod.fst).sum := by
  induction l with
  | nil => exact Nat.one_pos
  | cons p t ih =>
    have hp : p.2 % 2 ^ p.1 < 2 ^ p.1 := Nat.mod_lt _ (Nat.two_pow_pos _)
    rw [cat, List.map_cons, List.sum_cons, pow_add]
    calc p.2 % 2 ^ p.1 + 2 ^ p.1 * cat t < 2 ^ p.1 * (cat t + 1) := by rw [Nat.mul_add_one]; omega
      _ ≤ 2 ^ p.1 * 2 ^ (t.map Prod.fst).sum := Nat.mul_le_mul_left _ ih

theorem cat_append (l t : List (Nat × Nat)) : cat (l ++ t) = cat l + 2 ^ (l.map Prod.fst).sum * cat t := by
  induction l with
  | nil => simp [cat]
  | cons p l ih => rw [List.cons_append, cat, ih, cat, List.map_cons, List.sum_cons, pow_add]; ring

/-- A field above the first fields of a list is one of the rest. -/
theorem fld_cat_append_above {l t : List (Nat × Nat)} {lo n : Nat} (h : (l.map Prod.fst).sum ≤ lo) :
    fld (cat (l ++ t)) lo n = fld (cat t) (lo - (l.map Prod.fst).sum) n := by
  obtain ⟨k, rfl⟩ := Nat.exists_eq_add_of_le h
  rw [fld, cat_append, pow_add, ← Nat.div_div_eq_div_mul, Nat.add_mul_div_left _ _ (Nat.two_pow_pos _),
    Nat.div_eq_of_lt (cat_lt l), Nat.zero_add, Nat.add_sub_cancel_left, fld]

/-- The field (width, value) of a list of fields that begins at bit `lo`. -/
def fieldAt : List (Nat × Nat) → Nat → Option (Nat × Nat)
  | [], _ => none
  | p :: t, lo => if lo = 0 then some p else if p.1 ≤ lo then fieldAt t (lo - p.1) else none

theorem fld_cat_of_fieldAt {l : List (Nat × Nat)} {lo n v : Nat} (h : fieldAt l lo = some (n, v)) :
    fld (cat l) lo n = fld v 0 n := by
  induction l generalizing lo with
  | nil => cases h
  | cons p t ih =>
    rw [fieldAt] at h
    split at h
    · subst lo
      obtain rfl := Option.some.inj h
      exact fld_cat_within (Nat.zero_add _).le
    · split at h
      · rw [fld_cat_above ‹_›, ih h]
      · cases h

/-! ### Values that fill their field -/

@[simp] theorem fld_toNat {n : Nat} (x : BitVec n) : fld x.toNat 0 n = x.toNat := fld_of_lt x.isLt
@[simp] theorem fld_boolToNat (b : Bool) : fld b.toNat 0 1 = b.toNat := fld_of_lt b.toNat_lt
@[simp] theorem fld_etyCode (e : ETy) : fld e.code 0 4 = e.code := by cases e <;> rfl
@[simp] theorem fld_rndCode (r : Rnd) : fld r.code 0 3 = r.code := by cases r <;> rfl
@[simp] theorem fld_clampCode (c : Clamp) : fld c.code 0 2 = c.code := by cases c <;> rfl
@[simp] theorem ETy.ofCode_code (e : ETy) : ETy.ofCode e.code = some e := by cases e <;> rfl
@[simp] theorem Rnd.ofCode_code (r : Rnd) : Rnd.ofCode r.code = r := by cases r <;> rfl
@[simp] theorem Clamp.ofCode_code (c : Clamp) : Clamp.ofCode c.code = c := by cases c <;> rfl

/-! ### Layout M -/

theorem encMods_width (m : Mods) : ((encMods m).map Prod.fst).sum = 22 := rfl

/-- Layout M holds its modifier fields side by side (Table 7-2). -/
@[simp] theorem fld_cat_encMods (m : Mods) (t : List (Nat × Nat)) : fld (cat (encMods m ++ t)) 0 22 = cat (encMods m) := by
  have hlt : cat (encMods m) < 2 ^ 22 := cat_lt (encMods m)
  rw [cat_append, encMods_width, fld, pow_zero, Nat.div_one, Nat.add_mul_mod_self_left, Nat.mod_eq_of_lt hlt]

@[simp] theorem fld_cat_encMods_only (m : Mods) : fld (cat (encMods m)) 0 22 = cat (encMods m) := fld_of_lt (cat_lt (encMods m))

@[simp] theorem fld_cat_encMods_above (m : Mods) (t : List (Nat × Nat)) {lo n : Nat} (h : 22 ≤ lo) :
    fld (cat (encMods m ++ t)) lo n = fld (cat t) (lo - 22) n := by
  rw [fld_cat_append_above (by rwa [encMods_width]), encMods_width]

/-- The modifiers are read from bits [63:42], where layout M holds them, and the predicate from W1 (Table 7-2). -/
theorem decMods_eq (m : Mods) {w : Nat} (hm : fld w 42 22 = cat (encMods m)) (hp : fld w 4 3 = m.pred.toNat) :
    decMods w = some m := by
  have read (lo n : Nat) (hlo : 42 ≤ lo) (h : lo + n ≤ 64) : fld w lo n = fld (cat (encMods m)) (lo - 42) n := by
    rw [← hm, fld_fld w (by omega), Nat.add_sub_cancel' hlo]
  simp [decMods, bv, bit, read, hp, encMods]

/-! ### Words of a format -/

/-- What word `w` of a format reads: the listed codes (lowest bit, width, value), zero in every reserved field, and the
operands `o`. -/
structure Reads {α : Type} (w : Nat) (codes : List (Nat × Nat × Nat)) (reserved : List (Nat × Nat)) (dec : Nat → α) (o : α) :
    Prop where
  codes : ∀ c ∈ codes, fld w c.1 c.2.1 = fld c.2.2 0 c.2.1
  reserved : zeros w reserved = true
  operands : dec w = o

/-- A decoder gives instruction `f` with the operands of the word when, by its codes, it comes to the row of `f`. -/
theorem Reads.row {α : Type} {w : Nat} {codes : List (Nat × Nat × Nat)} {rs : List (Nat × Nat)} {dec : Nat → α} {o : α}
    {D : Nat → Except DecErr Instr} {f : α → Instr} (h : Reads w codes rs dec o)
    (hrow : ∀ v, (∀ c ∈ codes, fld v c.1 c.2.1 = fld c.2.2 0 c.2.1) → D v = chk v rs (f (dec v))) : D w = .ok (f o) := by
  rw [hrow w h.codes, chk, if_pos h.reserved, h.operands]

/-- The same for a format with an element-type code. -/
theorem Reads.rowO {α : Type} {w : Nat} {codes : List (Nat × Nat × Nat)} {rs : List (Nat × Nat)} {dec : Nat → Option α} {o : α}
    {D : Nat → Except DecErr Instr} {f : α → Instr} (h : Reads w codes rs dec (some o))
    (hrow : ∀ v, (∀ c ∈ codes, fld v c.1 c.2.1 = fld c.2.2 0 c.2.1) → D v = chkO v rs ((dec v).map f)) : D w = .ok (f o) := by
  rw [hrow w h.codes, h.operands, Option.map_some, chkO, chk, if_pos h.reserved]

/-- A row of the 32-bit class that its major opcode alone selects. -/
theorem Reads.row32 {α : Type} {w maj : Nat} {rs : List (Nat × Nat)} {dec : Nat → α} {o : α} {f : α → Instr}
    (h : Reads w [(22, 7, maj)] rs dec o) (hrow : ∀ v, fld v 22 7 = fld maj 0 7 → dec32 v = chk v rs (f (dec v))) :
    dec32 w = .ok (f o) :=
  h.row fun v codes => hrow v (codes _ List.mem_cons_self)

end Sys2Proof
end

section
/-!
SUPPORT. What the words of each format read (Tables 7-1, 7-2, 7-6 and the layouts of the 64-bit majors), one lemma a format.
-/

namespace Sys2Proof

theorem encReg3_reads (maj x : Nat) (s : Bool) (o : Reg3) :
    Reads (cat (encReg3 maj x s o)) [(22, 7, maj), (0, 7, x)] [] decReg3 o := by
  constructor <;> simp [encHead, zeros, bv, encReg3, decReg3]

theorem encReg2_reads (maj x : Nat) (s : Bool) (o : Reg2) :
    Reads (cat (encReg2 maj x s o)) [(22, 7, maj), (0, 7, x)] [(7, 5)] decReg2 o := by
  constructor <;> simp [encHead, zeros, bv, encReg2, decReg2]

theorem encQRead_reads (maj x : Nat) (s : Bool) (o : QRead) :
    Reads (cat (encQRead maj x s o)) [(22, 7, maj), (0, 7, x)] [(7, 5), (15, 2)] decQRead o := by
  constructor <;> simp [encHead, zeros, bv, encQRead, decQRead]

theorem encQPushOps_reads (maj x : Nat) (s : Bool) (o : QPushOps) :
    Reads (cat (encQPushOps maj x s o)) [(22, 7, maj), (0, 7, x)] [(15, 7)] decQPushOps o := by
  constructor <;> simp [encHead, zeros, bv, encQPushOps, decQPushOps]

theorem encCntPage_reads (maj x : Nat) (s : Bool) (o : CntPage) :
    Reads (cat (encCntPage maj x s o)) [(22, 7, maj), (2, 1, x)] [(0, 2), (3, 5), (13, 4)] decCntPage o := by
  constructor <;> simp [encHead, zeros, bv, encCntPage, decCntPage]

theorem encCntRemote_reads (maj x : Nat) (s : Bool) (o : CntRemote) :
    Reads (cat (encCntRemote maj x s o)) [(22, 7, maj), (1, 1, x), (2, 1, 0)] [(0, 1), (2, 1)] decCntRemote o := by
  constructor <;> simp [encHead, zeros, bv, encCntRemote, decCntRemote]

theorem encCntOwn_reads (maj : Nat) (s : Bool) (o : CntOwn) :
    Reads (cat (encCntOwn maj s o)) [(22, 7, maj), (1, 1, 0), (2, 1, 0)] [(0, 8)] decCntOwn o := by
  constructor <;> simp [encHead, zeros, bv, encCntOwn, decCntOwn]

theorem encCWaitPage_reads (maj x : Nat) (s : Bool) (o : CWaitPage) :
    Reads (cat (encCWaitPage maj x s o)) [(22, 7, maj), (2, 1, x)] [(0, 2), (13, 4)] decCWaitPage o := by
  constructor <;> simp [encHead, zeros, bv, encCWaitPage, decCWaitPage]

theorem encCWaitOwn_reads (maj : Nat) (s : Bool) (o : CWaitOwn) :
    Reads (cat (encCWaitOwn maj s o)) [(22, 7, maj), (2, 1, 0)] [(0, 3)] decCWaitOwn o := by
  constructor <;> simp [encHead, zeros, bv, encCWaitOwn, decCWaitOwn]

theorem encAtomOps_reads (maj x y : Nat) (s : Bool) (o : AtomOps) :
    Reads (cat (encAtomOps maj x y s o)) [(22, 7, maj), (0, 4, x), (4, 1, 0), (6, 1, y)] [] decAtomOps o := by
  constructor <;> simp [encHead, zeros, bv, bit, encAtomOps, decAtomOps]

theorem encPred3_reads (maj x : Nat) (s : Bool) (o : Pred3) :
    Reads (cat (encPred3 maj x s o)) [(22, 7, maj), (0, 7, x)] [(10, 2), (15, 2), (20, 2)] decPred3 o := by
  constructor <;> simp [encHead, zeros, bv, encPred3, decPred3]

theorem encPred2_reads (maj x : Nat) (s : Bool) (o : Pred2) :
    Reads (cat (encPred2 maj x s o)) [(22, 7, maj), (0, 7, x)] [(7, 5), (15, 2), (20, 2)] decPred2 o := by
  constructor <;> simp [encHead, zeros, bv, encPred2, decPred2]

theorem encMov2_reads (maj x : Nat) (s : Bool) (o : Mov2) :
    Reads (cat (encMov2 maj x s o)) [(22, 7, maj), (0, 4, x)] [(7, 5)] decMov2 o := by
  constructor <;> simp [encHead, zeros, bv, encMov2, decMov2]

theorem encMov3_reads (maj x : Nat) (s : Bool) (o : Mov3) :
    Reads (cat (encMov3 maj x s o)) [(22, 7, maj), (0, 4, x)] [] decMov3 o := by
  constructor <;> simp [encHead, zeros, bv, encMov3, decMov3]

theorem encVextOps_reads (maj x : Nat) (s : Bool) (o : VextOps) :
    Reads (cat (encVextOps maj x s o)) [(22, 7, maj), (0, 4, x)] [(4, 3)] decVextOps o := by
  constructor <;> simp [encHead, zeros, bv, encVextOps, decVextOps]

theorem encImm_reads (maj : Nat) (s : Bool) (o : Imm) :
    Reads (cat (encImm maj s o)) [(22, 7, maj)] [] decImm o := by
  constructor <;> simp [encHead, zeros, bv, encImm, decImm]

theorem encShImm_reads (maj : Nat) (s : Bool) (o : ShImm) :
    Reads (cat (encShImm maj s o)) [(22, 7, maj)] [(6, 6)] decShImm o := by
  constructor <;> simp [encHead, zeros, bv, encShImm, decShImm]

theorem encBr_reads (maj : Nat) (s : Bool) (o : Br) :
    Reads (cat (encBr maj s o)) [(22, 7, maj)] [] decBr o := by
  constructor <;> simp [encHead, zeros, bv, encBr, decBr]

theorem encJmpOps_reads (maj : Nat) (s : Bool) (o : JmpOps) :
    Reads (cat (encJmpOps maj s o)) [(22, 7, maj)] [] decJmpOps o := by
  constructor <;> simp [encHead, zeros, bv, encJmpOps, decJmpOps]

theorem encJalOps_reads (maj : Nat) (s : Bool) (o : JalOps) :
    Reads (cat (encJalOps maj s o)) [(22, 7, maj)] [] decJalOps o := by
  constructor <;> simp [encHead, zeros, bv, encJalOps, decJalOps]

theorem encLoopOps_reads (maj : Nat) (s : Bool) (o : LoopOps) :
    Reads (cat (encLoopOps maj s o)) [(22, 7, maj)] [(12, 5)] decLoopOps o := by
  constructor <;> simp [encHead, zeros, bv, encLoopOps, decLoopOps]

theorem encLoopiOps_reads (maj : Nat) (s : Bool) (o : LoopiOps) :
    Reads (cat (encLoopiOps maj s o)) [(22, 7, maj)] [] decLoopiOps o := by
  constructor <;> simp [encHead, zeros, bv, encLoopiOps, decLoopiOps]

theorem encLdqOps_reads (maj : Nat) (s : Bool) (o : LdqOps) :
    Reads (cat (encLdqOps maj s o)) [(22, 7, maj)] [(20, 2)] decLdqOps o := by
  constructor <;> simp [encHead, zeros, bv, encLdqOps, decLdqOps]

theorem encPlain_reads (maj : Nat) (s : Bool) :
    Reads (cat (encPlain maj s)) [(22, 7, maj)] [(0, 22)] (fun _ => ()) () := by
  constructor <;> simp [encHead, zeros, encPlain]

theorem encFenceOps_reads (maj : Nat) (s : Bool) (o : FenceOps) :
    Reads (cat (encFenceOps maj s o)) [(22, 7, maj)] [(5, 17)] decFenceOps o := by
  constructor <;> simp [encHead, zeros, bv, encFenceOps, decFenceOps]

theorem encPSetOps_reads (maj : Nat) (s : Bool) (o : PSetOps) :
    Reads (cat (encPSetOps maj s o)) [(22, 7, maj)] [(16, 1), (20, 2)] decPSetOps o := by
  constructor <;> simp [encHead, zeros, bv, encPSetOps, decPSetOps]

theorem encRenqOps_reads (maj : Nat) (s : Bool) (o : RenqOps) :
    Reads (cat (encRenqOps maj s o)) [(22, 7, maj)] [(0, 7), (17, 5)] decRenqOps o := by
  constructor <;> simp [encHead, zeros, bv, encRenqOps, decRenqOps]

theorem encReg22_reads (maj : Nat) (s : Bool) (o : Reg2) :
    Reads (cat (encReg22 maj s o)) [(22, 7, maj)] [(0, 12)] decReg2 o := by
  constructor <;> simp [encHead, zeros, bv, encReg22, decReg2]

theorem encCode16_reads (maj : Nat) (s : Bool) (code : Nat) :
    Reads (cat (encCode16 maj s code)) [(22, 7, maj)] [(16, 6)] (fun _ => ()) () := by
  constructor <;> simp [encHead, zeros, encCode16]

theorem encSysOps_reads (maj : Nat) (s : Bool) (o : SysOps) :
    Reads (cat (encSysOps maj s o)) [(22, 7, maj)] [(12, 5)] decSysOps o := by
  constructor <;> simp [encHead, zeros, bv, encSysOps, decSysOps]

theorem encCode162_reads (maj : Nat) (s : Bool) (code : Nat) :
    Reads (cat (encCode162 maj s code)) [(22, 7, maj)] [(3, 19)] (fun _ => ()) () := by
  constructor <;> simp [encHead, zeros, encCode162]

theorem encGuardOps_reads (maj : Nat) (s : Bool) (o : GuardOps) :
    Reads (cat (encGuardOps maj s o)) [(22, 7, maj)] [(1, 6), (17, 5)] decGuardOps o := by
  constructor <;> simp [encHead, zeros, bv, bit, encGuardOps, decGuardOps]

theorem encT2_reads (maj x : Nat) (s : Bool) (o : T2) :
    Reads (cat (encT2 maj x s o)) [(22, 7, maj), (0, 4, x)] [(32, 10)] decT2 (some o) := by
  constructor <;> simp [encHead, zeros, bv, encT2, decT2, decMods_eq o.m]

theorem encT3_reads (maj x : Nat) (s : Bool) (o : T3) :
    Reads (cat (encT3 maj x s o)) [(22, 7, maj), (0, 4, x)] [(32, 5)] decT3 (some o) := by
  constructor <;> simp [encHead, zeros, bv, encT3, decT3, decMods_eq o.m]

theorem encSelOps_reads (maj x : Nat) (s : Bool) (o : SelOps) :
    Reads (cat (encSelOps maj x s o)) [(22, 7, maj), (0, 4, x)] [(35, 7)] decSelOps (some o) := by
  constructor <;> simp [encHead, zeros, bv, encSelOps, decSelOps, decMods_eq o.m]

theorem encCmpOps_reads (maj x : Nat) (s : Bool) (o : CmpOps) :
    Reads (cat (encCmpOps maj x s o)) [(22, 7, maj), (0, 4, x)] [(20, 2), (37, 5)] decCmpOps (some o) := by
  constructor <;> simp [encHead, zeros, bv, bit, encCmpOps, decCmpOps, decMods_eq o.m]

theorem encAxN4_reads (maj x : Nat) (s : Bool) (o : AxN4) :
    Reads (cat (encAxN4 maj x s o)) [(22, 7, maj), (0, 4, x)] [(7, 5), (36, 6)] decAxN4 (some o) := by
  constructor <;> simp [encHead, zeros, bv, encAxN4, decAxN4, decMods_eq o.m]

theorem encAxRed_reads (maj x : Nat) (s : Bool) (o : AxRed) :
    Reads (cat (encAxRed maj x s o)) [(22, 7, maj), (0, 4, x)] [(7, 5), (35, 7)] decAxRed (some o) := by
  constructor <;> simp [encHead, zeros, bv, encAxRed, decAxRed, decMods_eq o.m]

theorem encAxN5_reads (maj x : Nat) (s : Bool) (o : AxN5) :
    Reads (cat (encAxN5 maj x s o)) [(22, 7, maj), (0, 4, x)] [(7, 5), (37, 5)] decAxN5 (some o) := by
  constructor <;> simp [encHead, zeros, bv, encAxN5, decAxN5, decMods_eq o.m]

theorem encAxN42_reads (maj x y : Nat) (s : Bool) (o : AxN4) :
    Reads (cat (encAxN42 maj x y s o)) [(22, 7, maj), (0, 4, x), (36, 1, y)] [(7, 5), (37, 5)] decAxN4 (some o) := by
  constructor <;> simp [encHead, zeros, bv, encAxN42, decAxN4, decMods_eq o.m]

theorem encAxN2_reads (maj x : Nat) (s : Bool) (o : AxN2) :
    Reads (cat (encAxN2 maj x s o)) [(22, 7, maj), (0, 4, x), (36, 1, 0)] [(7, 5), (34, 8)] decAxN2 (some o) := by
  constructor <;> simp [encHead, zeros, bv, encAxN2, decAxN2, decMods_eq o.m]

theorem encT1_reads (maj x : Nat) (s : Bool) (o : T1) :
    Reads (cat (encT1 maj x s o)) [(22, 7, maj), (0, 4, x)] [(7, 5), (32, 10)] decT1 (some o) := by
  constructor <;> simp [encHead, zeros, bv, encT1, decT1, decMods_eq o.m]

theorem encCvtOps_reads (maj x : Nat) (s : Bool) (o : CvtOps) :
    Reads (cat (encCvtOps maj x s o)) [(22, 7, maj), (0, 4, x)] [(7, 5), (37, 5)] decCvtOps (some o) := by
  constructor <;> simp [encHead, zeros, bv, bit, encCvtOps, decCvtOps, decMods_eq o.m]

theorem encPackOps_reads (maj x : Nat) (s : Bool) (o : PackOps) :
    Reads (cat (encPackOps maj x s o)) [(22, 7, maj), (0, 4, x)] [(36, 6)] decPackOps (some o) := by
  constructor <;> simp [encHead, zeros, bv, encPackOps, decPackOps, decMods_eq o.m]

theorem encUnpkOps_reads (maj x : Nat) (s : Bool) (o : UnpkOps) :
    Reads (cat (encUnpkOps maj x s o)) [(22, 7, maj), (0, 4, x)] [(7, 5), (37, 5)] decUnpkOps (some o) := by
  constructor <;> simp [encHead, zeros, bv, bit, encUnpkOps, decUnpkOps, decMods_eq o.m]

theorem encTMem_reads (maj x : Nat) (s : Bool) (o : TMem) :
    Reads (cat (encTMem maj x s o)) [(22, 7, maj), (0, 4, x)] [(7, 5), (32, 24)] decTMem o := by
  constructor <;> simp [encHead, zeros, bv, encTMem, decTMem]

theorem encTIdx_reads (maj x : Nat) (s : Bool) (o : TIdx) :
    Reads (cat (encTIdx maj x s o)) [(22, 7, maj), (0, 4, x)] [(32, 32)] decTIdx o := by
  constructor <;> simp [encHead, zeros, bv, encTIdx, decTIdx]

theorem encTQueue_reads (maj x : Nat) (s : Bool) (o : TQueue) :
    Reads (cat (encTQueue maj x s o)) [(22, 7, maj), (0, 4, x)] [(7, 5), (15, 2), (32, 14), (48, 16)] decTQueue o := by
  constructor <;> simp [encHead, zeros, bv, encTQueue, decTQueue]

theorem encRecMem_reads (maj x : Nat) (s : Bool) (o : RecMem) :
    Reads (cat (encRecMem maj x s o)) [(22, 7, maj), (0, 4, x)] [(4, 8), (21, 1), (32, 32)] decRecMem o := by
  constructor <;> simp [encHead, zeros, bv, encRecMem, decRecMem]

theorem encSwpOps_reads (maj x : Nat) (s : Bool) (o : SwpOps) :
    Reads (cat (encSwpOps maj x s o)) [(22, 7, maj), (0, 4, x)]
      [(4, 3), (11, 1), (16, 1), (21, 1), (32, 5), (41, 1), (46, 3)] decSwpOps (some o) := by
  constructor <;> simp [encHead, zeros, bv, encSwpOps, decSwpOps]

theorem encXOnly_reads (maj x : Nat) (s : Bool) (o : XOnly) :
    Reads (cat (encXOnly maj x s o)) [(22, 7, maj), (0, 4, x), (46, 1, 0)] [(4, 8), (17, 5), (32, 32)] decXOnly o := by
  constructor <;> simp [encHead, zeros, bv, encXOnly, decXOnly]

theorem encXOnly2_reads (maj x y : Nat) (s : Bool) (o : XOnly) :
    Reads (cat (encXOnly2 maj x y s o)) [(22, 7, maj), (0, 4, x), (46, 1, y)] [(4, 8), (17, 5), (32, 14), (47, 17)] decXOnly o := by
  constructor <;> simp [encHead, zeros, bv, encXOnly2, decXOnly]

theorem encEpushOps_reads (maj x : Nat) (s : Bool) (o : EpushOps) :
    Reads (cat (encEpushOps maj x s o)) [(22, 7, maj), (0, 4, x)] [(4, 3), (17, 5), (32, 14), (48, 16)] decEpushOps o := by
  constructor <;> simp [encHead, zeros, bv, encEpushOps, decEpushOps]

theorem encEflushOps_reads (maj x : Nat) (s : Bool) (o : EflushOps) :
    Reads (cat (encEflushOps maj x s o)) [(22, 7, maj), (0, 4, x)] [(4, 18), (32, 14), (51, 13)] decEflushOps o := by
  constructor <;> simp [encHead, zeros, bv, encEflushOps, decEflushOps]

theorem encTegoOps_reads (maj x : Nat) (s : Bool) (o : TegoOps) :
    Reads (cat (encTegoOps maj x s o)) [(22, 7, maj), (0, 4, x)] [(4, 3), (32, 14), (58, 6)] decTegoOps o := by
  constructor <;> simp [encHead, zeros, bv, encTegoOps, decTegoOps]

theorem encTestatOps_reads (maj x : Nat) (s : Bool) (o : TestatOps) :
    Reads (cat (encTestatOps maj x s o)) [(22, 7, maj), (0, 4, x)] [(4, 8), (32, 14), (49, 15)] decTestatOps o := by
  constructor <;> simp [encHead, zeros, bv, encTestatOps, decTestatOps]

theorem encTethrOps_reads (maj x : Nat) (s : Bool) (o : TethrOps) :
    Reads (cat (encTethrOps maj x s o)) [(22, 7, maj), (0, 4, x)] [(4, 3), (17, 5), (32, 14), (49, 15)] decTethrOps o := by
  constructor <;> simp [encHead, zeros, bv, encTethrOps, decTethrOps]

theorem encXPair_reads (maj x : Nat) (s : Bool) (o : XPair) :
    Reads (cat (encXPair maj x s o)) [(22, 7, maj), (0, 4, x)] [(4, 3), (17, 5), (32, 32)] decXPair o := by
  constructor <;> simp [encHead, zeros, bv, encXPair, decXPair]

theorem encX3_reads (maj x : Nat) (s : Bool) (o : X3) :
    Reads (cat (encX3 maj x s o)) [(22, 7, maj), (0, 4, x), (46, 2, 0)] [(4, 3), (32, 32)] decX3 o := by
  constructor <;> simp [encHead, zeros, bv, encX3, decX3]

theorem encX32_reads (maj x y : Nat) (s : Bool) (o : X3) :
    Reads (cat (encX32 maj x y s o)) [(22, 7, maj), (0, 4, x), (46, 2, y)] [(4, 3), (32, 14), (48, 16)] decX3 o := by
  constructor <;> simp [encHead, zeros, bv, encX32, decX3]

theorem encDitFree_reads (maj x y : Nat) (s : Bool) (o : DitFree) :
    Reads (cat (encDitFree maj x y s o)) [(22, 7, maj), (0, 4, x), (46, 2, y)] [(4, 3), (32, 14), (49, 15)] decDitFree o := by
  constructor <;> simp [encHead, zeros, bv, bit, encDitFree, decDitFree]

theorem encX2_reads (maj x : Nat) (s : Bool) (o : X2) :
    Reads (cat (encX2 maj x s o)) [(22, 7, maj), (0, 4, x)] [(4, 8), (32, 32)] decX2 o := by
  constructor <;> simp [encHead, zeros, bv, encX2, decX2]

theorem encRx3_reads (maj x : Nat) (s : Bool) (o : Rx3) :
    Reads (cat (encRx3 maj x s o)) [(22, 7, maj), (0, 4, x)] [(4, 3), (32, 14), (52, 12)] decRx3 o := by
  constructor <;> simp [encHead, zeros, bv, encRx3, decRx3]

theorem encRx2_reads (maj x : Nat) (s : Bool) (o : Rx2) :
    Reads (cat (encRx2 maj x s o)) [(22, 7, maj), (0, 4, x)] [(4, 8), (32, 14), (52, 12)] decRx2 o := by
  constructor <;> simp [encHead, zeros, bv, encRx2, decRx2]

theorem encRx0_reads (maj x : Nat) (s : Bool) (o : Rx0) :
    Reads (cat (encRx0 maj x s o)) [(22, 7, maj), (0, 4, x)] [(4, 18), (32, 14), (52, 12)] decRx0 o := by
  constructor <;> simp [encHead, zeros, bv, encRx0, decRx0]

theorem encRx1_reads (maj x : Nat) (s : Bool) (o : Rx1) :
    Reads (cat (encRx1 maj x s o)) [(22, 7, maj), (0, 4, x)] [(4, 13), (32, 14), (52, 12)] decRx1 o := by
  constructor <;> simp [encHead, zeros, bv, encRx1, decRx1]

theorem encDBin_reads (maj x : Nat) (s : Bool) (o : DBin) :
    Reads (cat (encDBin maj x s o)) [(22, 7, maj), (0, 4, x)] [(11, 1), (16, 1), (21, 1), (33, 31)] decDBin o := by
  constructor <;> simp [encHead, zeros, bv, bit, encDBin, decDBin]

theorem encDMixOps_reads (maj x : Nat) (s : Bool) (o : DMixOps) :
    Reads (cat (encDMixOps maj x s o)) [(22, 7, maj), (0, 4, x)] [(11, 1), (16, 1), (21, 1), (32, 23)] decDMixOps o := by
  constructor <;> simp [encHead, zeros, bv, encDMixOps, decDMixOps]

theorem encDUn_reads (maj x : Nat) (s : Bool) (o : DUn) :
    Reads (cat (encDUn maj x s o)) [(22, 7, maj), (0, 4, x)] [(7, 5), (16, 1), (21, 1), (32, 32)] decDUn o := by
  constructor <;> simp [encHead, zeros, bv, encDUn, decDUn]

theorem encDRow_reads (maj x : Nat) (s : Bool) (o : DRow) :
    Reads (cat (encDRow maj x s o)) [(22, 7, maj), (0, 4, x)] [(7, 5), (16, 1), (21, 1), (32, 23)] decDRow o := by
  constructor <;> simp [encHead, zeros, bv, encDRow, decDRow]

theorem encDAppOps_reads (maj x : Nat) (s : Bool) (o : DAppOps) :
    Reads (cat (encDAppOps maj x s o)) [(22, 7, maj), (0, 4, x)] [(7, 5), (16, 1), (21, 1), (36, 28)] decDAppOps o := by
  constructor <;> simp [encHead, zeros, bv, encDAppOps, decDAppOps]

theorem encDUn2_reads (maj x y : Nat) (s : Bool) (o : DUn) :
    Reads (cat (encDUn2 maj x y s o)) [(22, 7, maj), (0, 4, x), (32, 1, y)] [(7, 5), (16, 1), (21, 1), (33, 31)] decDUn o := by
  constructor <;> simp [encHead, zeros, bv, encDUn2, decDUn]

theorem encDTagOps_reads (maj x : Nat) (s : Bool) (o : DTagOps) :
    Reads (cat (encDTagOps maj x s o)) [(22, 7, maj), (0, 4, x), (32, 1, 0)]
      [(11, 1), (16, 1), (21, 1), (32, 32)] decDTagOps o := by
  constructor <;> simp [encHead, zeros, bv, encDTagOps, decDTagOps]

theorem encDLdOps_reads (maj x : Nat) (s : Bool) (o : DLdOps) :
    Reads (cat (encDLdOps maj x s o)) [(22, 7, maj), (0, 4, x)] [(4, 8), (21, 1), (32, 14), (48, 16)] decDLdOps o := by
  constructor <;> simp [encHead, zeros, bv, encDLdOps, decDLdOps]

theorem encDStOps_reads (maj x : Nat) (s : Bool) (o : DStOps) :
    Reads (cat (encDStOps maj x s o)) [(22, 7, maj), (0, 4, x)] [(4, 8), (21, 1), (32, 32)] decDStOps o := by
  constructor <;> simp [encHead, zeros, bv, encDStOps, decDStOps]

theorem encDMk1_reads (maj x : Nat) (s : Bool) (o : DMk1) :
    Reads (cat (encDMk1 maj x s o)) [(22, 7, maj), (0, 4, x)] [(7, 5), (21, 1), (32, 14), (50, 14)] decDMk1 o := by
  constructor <;> simp [encHead, zeros, bv, encDMk1, decDMk1]

theorem encDMk2_reads (maj x : Nat) (s : Bool) (o : DMk2) :
    Reads (cat (encDMk2 maj x s o)) [(22, 7, maj), (0, 4, x)] [(7, 5), (21, 1), (32, 14), (54, 10)] decDMk2 o := by
  constructor <;> simp [encHead, zeros, bv, encDMk2, decDMk2]

theorem encDMomOps_reads (maj x : Nat) (s : Bool) (o : DMomOps) :
    Reads (cat (encDMomOps maj x s o)) [(22, 7, maj), (0, 4, x)] [(7, 5), (16, 1), (32, 14), (52, 12)] decDMomOps o := by
  constructor <;> simp [encHead, zeros, bv, encDMomOps, decDMomOps]

theorem encDQntOps_reads (maj x : Nat) (s : Bool) (o : DQntOps) :
    Reads (cat (encDQntOps maj x s o)) [(22, 7, maj), (0, 4, x)] [(7, 5), (16, 1), (32, 14), (60, 4)] decDQntOps o := by
  constructor <;> simp [encHead, zeros, bv, encDQntOps, decDQntOps]

theorem encSLit_reads (maj x : Nat) (s : Bool) (o : SLit) :
    Reads (cat (encSLit maj x s o)) [(22, 7, maj), (0, 7, x)] [(7, 5), (32, 32)] decSLit o := by
  constructor <;> simp [encHead, zeros, bv, encSLit, decSLit]

theorem encT2L_reads (maj x : Nat) (s : Bool) (o : T2L) :
    Reads (cat (encT2L maj x s o)) [(22, 7, maj), (0, 4, x)] [(7, 5), (32, 10)] decT2L (some o) := by
  constructor <;> simp [encHead, zeros, bv, encT2L, decT2L, decMods_eq o.m]

theorem encT3L_reads (maj x : Nat) (s : Bool) (o : T3L) :
    Reads (cat (encT3L maj x s o)) [(22, 7, maj), (0, 4, x)] [(7, 5), (32, 5)] decT3L (some o) := by
  constructor <;> simp [encHead, zeros, bv, encT3L, decT3L, decMods_eq o.m]

theorem encSelLOps_reads (maj x : Nat) (s : Bool) (o : SelLOps) :
    Reads (cat (encSelLOps maj x s o)) [(22, 7, maj), (0, 4, x)] [(7, 5), (35, 7)] decSelLOps (some o) := by
  constructor <;> simp [encHead, zeros, bv, encSelLOps, decSelLOps, decMods_eq o.m]

theorem encCmpLOps_reads (maj x : Nat) (s : Bool) (o : CmpLOps) :
    Reads (cat (encCmpLOps maj x s o)) [(22, 7, maj), (0, 4, x)] [(7, 5), (20, 2), (37, 5)] decCmpLOps (some o) := by
  constructor <;> simp [encHead, zeros, bv, bit, encCmpLOps, decCmpLOps, decMods_eq o.m]

theorem encLitOps_reads (maj : Nat) (s : Bool) (o : LitOps) :
    Reads (cat (encLitOps maj s o)) [(22, 7, maj)] [(0, 17)] decLitOps o := by
  refine ⟨by simp [encHead, encLitOps], by simp [zeros, encLitOps], ?_⟩
  have halves : fld (o.lit.toNat / 2 ^ 32) 0 32 * 2 ^ 32 + fld o.lit.toNat 0 32 = o.lit.toNat := by
    have := o.lit.isLt
    simp only [fld]
    omega
  simp [encHead, encLitOps, decLitOps, bv, halves, -Nat.reducePow]


theorem encTlbiOps_reads (maj : Nat) (s : Bool) (o : TlbiOps) :
    Reads (cat (encTlbiOps maj s o)) [(22, 7, maj)] [(0, 7), (17, 5), (32, 32), (84, 12)] decTlbiOps o := by
  constructor <;> simp [encHead, zeros, bv, bit, encTlbiOps, decTlbiOps]

end Sys2Proof
end

section
/-!
Every instruction of the three length classes decodes from its own words (R74-R89): O1. A word of a format reads its codes, its
reserved fields and its operands; the codes lead each decoder to the row of its instruction.
-/

namespace Sys2Proof

/-- The majors of the 32-bit class whose rows have codes of their own (Tables 7-7 to 7-10). -/
theorem dec32_of_major {w : Nat} :
    (fld w 22 7 = 0x00 → dec32 w = dec32M00 w) ∧
    (fld w 22 7 = 0x3E → dec32 w = dec32M3E w) ∧
    (fld w 22 7 = 0x40 → dec32 w = dec32M40 w) ∧
    (fld w 22 7 = 0x41 → dec32 w = dec32M41 w) ∧
    (fld w 22 7 = 0x42 → dec32 w = dec32M42 w) ∧
    (fld w 22 7 = 0x43 → dec32 w = dec32M43 w) ∧
    (fld w 22 7 = 0x49 → dec32 w = dec32M49 w) ∧
    (fld w 22 7 = 0x50 → dec32 w = dec32M50 w) ∧
    (fld w 22 7 = 0x52 → dec32 w = dec32M52 w) := by
  refine ⟨?_, ?_, ?_, ?_, ?_, ?_, ?_, ?_, ?_⟩ <;> (intro h; rw [dec32, h]; rfl)

/-- The 32-bit class: each format with the rows that its codes select. -/
theorem dec32_encode (s : Bool) (code : Nat) {i : Instr} (h : i.words = 1) : dec32 (encode s code i) = .ok i := by
  cases i with
  | add o | sub o | and o | or o | xor o | shl o | shr o | sar o | min o | max o | minu o | maxu o | seq o | sne o | slt o
  | sltu o | sge o | sgeu o | mul o | mulh o | mulhu o | div o | divu o | rem o | remu o | sel o | leaX1 o | leaX2 o | leaX4 o
  | leaX8 o =>
    exact (encReg3_reads _ _ s o).row fun v h => by simp at h; simp [dec32_of_major, dec32M00, h]
  | clz o | popc o =>
    exact (encReg2_reads _ _ s o).row fun v h => by simp at h; simp [dec32_of_major, dec32M00, h]
  | qpop o | qpeek o | qlen o =>
    exact (encQRead_reads _ _ s o).row fun v h => by simp at h; simp [dec32_of_major, dec32M3E, h]
  | qpush o =>
    exact (encQPushOps_reads _ _ s o).row fun v h => by simp at h; simp [dec32_of_major, dec32M3E, h]
  | caddPage o | creadPage o | crstPage o =>
    exact (encCntPage_reads _ _ s o).row fun v h => by simp at h; simp [dec32_of_major, dec32M40, dec32M42, dec32M43, bit, h]
  | caddRemote o | creadRemote o =>
    exact (encCntRemote_reads _ _ s o).row fun v h => by simp at h; simp [dec32_of_major, dec32M40, dec32M42, bit, h]
  | cadd o | cread o | crst o =>
    exact (encCntOwn_reads _ s o).row fun v h => by simp at h; simp [dec32_of_major, dec32M40, dec32M42, dec32M43, bit, h]
  | cwaitPage o =>
    exact (encCWaitPage_reads _ _ s o).row fun v h => by simp at h; simp [dec32_of_major, dec32M41, bit, h]
  | cwait o =>
    exact (encCWaitOwn_reads _ s o).row fun v h => by simp at h; simp [dec32_of_major, dec32M41, bit, h]
  | aadd o | amin o | amax o | aminu o | amaxu o | aand o | aor o | axor o | aswp o | acas o | afadd o =>
    exact (encAtomOps_reads _ _ _ s o).row fun v h => by simp at h; simp [dec32_of_major, dec32M49, chkAtom, chk, zeros, bit, h]
  | pand o | por o =>
    exact (encPred3_reads _ _ s o).row fun v h => by simp at h; simp [dec32_of_major, dec32M50, h]
  | pnot o =>
    exact (encPred2_reads _ _ s o).row fun v h => by simp at h; simp [dec32_of_major, dec32M50, h]
  | vmov o | vsplat o =>
    exact (encMov2_reads _ _ s o).row fun v h => by simp at h; simp [dec32_of_major, dec32M52, h]
  | vins o =>
    exact (encMov3_reads _ _ s o).row fun v h => by simp at h; simp [dec32_of_major, dec32M52, h]
  | vext o =>
    exact (encVextOps_reads _ _ s o).row fun v h => by simp at h; simp [dec32_of_major, dec32M52, h]
  | addi o | subi o | muli o | divi o | remi o | andi o | ori o | xori o | slti o | sltiu o | seqi o | mini o | maxi o | jr o
  | ldB o | ldBu o | ldH o | ldHu o | ldW o | ldWu o | ldD o | stB o | stH o | stW o | stD o | lda o | stl o =>
    exact (encImm_reads _ s o).row32 fun v h => by rw [dec32, h]; rfl
  | shli o | shri o | sari o =>
    exact (encShImm_reads _ s o).row32 fun v h => by rw [dec32, h]; rfl
  | beq o | bne o | blt o | bge o | bltu o | bgeu o =>
    exact (encBr_reads _ s o).row32 fun v h => by rw [dec32, h]; rfl
  | jmp o =>
    exact (encJmpOps_reads _ s o).row32 fun v h => by rw [dec32, h]; rfl
  | jal o =>
    exact (encJalOps_reads _ s o).row32 fun v h => by rw [dec32, h]; rfl
  | loop o =>
    exact (encLoopOps_reads _ s o).row32 fun v h => by rw [dec32, h]; rfl
  | loopi o =>
    exact (encLoopiOps_reads _ s o).row32 fun v h => by rw [dec32, h]; rfl
  | ldq o =>
    exact (encLdqOps_reads _ s o).row32 fun v h => by rw [dec32, h]; rfl
  | qsync | exit | tret | halt | nop =>
    exact (encPlain_reads _ s).row32 (f := fun _ => _) fun v h => by rw [dec32, h]; rfl
  | fence o =>
    exact (encFenceOps_reads _ s o).row32 fun v h => by rw [dec32, h]; rfl
  | pset o =>
    exact (encPSetOps_reads _ s o).row32 fun v h => by rw [dec32, h]; rfl
  | renq o =>
    exact (encRenqOps_reads _ s o).row32 fun v h => by rw [dec32, h]; rfl
  | dlaunch o =>
    exact (encReg22_reads _ s o).row32 fun v h => by rw [dec32, h]; rfl
  | safe | trap | bkpt =>
    exact (encCode16_reads _ s code).row32 (f := fun _ => _) fun v h => by rw [dec32, h]; rfl
  | srd o | swr o =>
    exact (encSysOps_reads _ s o).row32 fun v h => by rw [dec32, h]; rfl
  | tlbsync =>
    exact (encCode162_reads _ s code).row32 (f := fun _ => _) fun v h => by rw [dec32, h]; rfl
  | spguard o =>
    exact (encGuardOps_reads _ s o).row32 fun v h => by rw [dec32, h]; rfl
  | _ => cases h

/-- The 64-bit class. -/
theorem dec64_encode (s : Bool) (code : Nat) {i : Instr} (h : i.words = 2) : dec64 (encode s code i) = .ok i := by
  cases i with
  | vadd o | vsub o | vmul o | vmin o | vmax o | viadd o | visub o | vimul o | vand o | vor o | vxor o | vshl o | vshr o
  | vsar o =>
    exact (encT2_reads _ _ s o).rowO fun v h => by simp at h; simp [dec64, dec64M00, dec64M20, h]
  | vfma o =>
    exact (encT3_reads _ _ s o).rowO fun v h => by simp at h; simp [dec64, dec64M00, h]
  | vsel o =>
    exact (encSelOps_reads _ _ s o).rowO fun v h => by simp at h; simp [dec64, dec64M20, h]
  | vcmp o =>
    exact (encCmpOps_reads _ _ s o).rowO fun v h => by simp at h; simp [dec64, dec64M20, h]
  | vrotc o | vbcc o =>
    exact (encAxN4_reads _ _ s o).rowO fun v h => by simp at h; simp [dec64, dec64M30, h]
  | vredc o | vredw o =>
    exact (encAxRed_reads _ _ s o).rowO fun v h => by simp at h; simp [dec64, dec64M30, h]
  | vrotw o =>
    exact (encAxN5_reads _ _ s o).rowO fun v h => by simp at h; simp [dec64, dec64M30, h]
  | vbcwCol o =>
    exact (encAxN42_reads _ _ _ s o).rowO fun v h => by simp at h; simp [dec64, dec64M30, bit, h]
  | vbcw o =>
    exact (encAxN2_reads _ _ s o).rowO fun v h => by simp at h; simp [dec64, dec64M30, bit, h]
  | vtrn o | vrcp o | vrsq o | vsqrt o | vexp2 o | vlog2 o | vsin o | vcos o | vtanh o | vsigm o | verf o =>
    exact (encT1_reads _ _ s o).rowO fun v h => by simp at h; simp [dec64, dec64M30, dec64M40, h]
  | vcvt o =>
    exact (encCvtOps_reads _ _ s o).rowO fun v h => by simp at h; simp [dec64, dec64M41, h]
  | vpack o =>
    exact (encPackOps_reads _ _ s o).rowO fun v h => by simp at h; simp [dec64, dec64M41, h]
  | vunpk o =>
    exact (encUnpkOps_reads _ _ s o).rowO fun v h => by simp at h; simp [dec64, dec64M41, h]
  | vld o | vst o =>
    exact (encTMem_reads _ _ s o).row fun v h => by simp at h; simp [dec64, dec64M50, h]
  | vldg o | vsts o =>
    exact (encTIdx_reads _ _ s o).row fun v h => by simp at h; simp [dec64, dec64M50, h]
  | vqpop o | vqpush o =>
    exact (encTQueue_reads _ _ s o).row fun v h => by simp at h; simp [dec64, dec64M50, h]
  | ild o | ist o | sld o =>
    exact (encRecMem_reads _ _ s o).row fun v h => by simp at h; simp [dec64, dec64M51, h]
  | swp o =>
    exact (encSwpOps_reads _ _ s o).rowO fun v h => by simp at h; simp [dec64, dec64M51, h]
  | cbld o | seed o | estart o | tcfg o =>
    exact (encXOnly_reads _ _ s o).row fun v h => by simp at h; simp [dec64, dec64M51, dec64M60, bit, h]
  | seedCe o =>
    exact (encXOnly2_reads _ _ _ s o).row fun v h => by simp at h; simp [dec64, dec64M51, bit, h]
  | epush o =>
    exact (encEpushOps_reads _ _ s o).row fun v h => by simp at h; simp [dec64, dec64M60, h]
  | eflush o =>
    exact (encEflushOps_reads _ _ s o).row fun v h => by simp at h; simp [dec64, dec64M60, h]
  | tego o =>
    exact (encTegoOps_reads _ _ s o).row fun v h => by simp at h; simp [dec64, dec64M61, h]
  | testat o =>
    exact (encTestatOps_reads _ _ s o).row fun v h => by simp at h; simp [dec64, dec64M61, h]
  | tethr o =>
    exact (encTethrOps_reads _ _ s o).row fun v h => by simp at h; simp [dec64, dec64M61, h]
  | hptcfg o =>
    exact (encXPair_reads _ _ s o).row fun v h => by simp at h; simp [dec64, dec64M61, h]
  | ditswpSwap o =>
    exact (encX3_reads _ _ s o).row fun v h => by simp at h; simp [dec64, dec64M61, h]
  | ditswpSet o =>
    exact (encX32_reads _ _ _ s o).row fun v h => by simp at h; simp [dec64, dec64M61, h]
  | ditswpFree o =>
    exact (encDitFree_reads _ _ _ s o).row fun v h => by simp at h; simp [dec64, dec64M61, h]
  | rxopen o =>
    exact (encX2_reads _ _ s o).row fun v h => by simp at h; simp [dec64, dec64M62, h]
  | rxsend o =>
    exact (encRx3_reads _ _ s o).row fun v h => by simp at h; simp [dec64, dec64M62, h]
  | rxrecv o | rxstat o =>
    exact (encRx2_reads _ _ s o).row fun v h => by simp at h; simp [dec64, dec64M62, h]
  | rxfree o =>
    exact (encRx0_reads _ _ s o).row fun v h => by simp at h; simp [dec64, dec64M62, h]
  | rxclose o =>
    exact (encRx1_reads _ _ s o).row fun v h => by simp at h; simp [dec64, dec64M62, h]
  | dadd o | dsub o | dmul o | dmax o =>
    exact (encDBin_reads _ _ s o).row fun v h => by simp at h; simp [dec64, dec64M70, h]
  | dmix o =>
    exact (encDMixOps_reads _ _ s o).row fun v h => by simp at h; simp [dec64, dec64M70, h]
  | dcond o | drelu o | tagnext o =>
    exact (encDUn_reads _ _ s o).row fun v h => by simp at h; simp [dec64, dec64M70, h]
  | dscl o | dshf o =>
    exact (encDRow_reads _ _ s o).row fun v h => by simp at h; simp [dec64, dec64M70, h]
  | dapp o =>
    exact (encDAppOps_reads _ _ s o).row fun v h => by simp at h; simp [dec64, dec64M70, h]
  | dtagPm o =>
    exact (encDUn2_reads _ _ _ s o).row fun v h => by simp at h; simp [dec64, dec64M70, bit, h]
  | dtag o =>
    exact (encDTagOps_reads _ _ s o).row fun v h => by simp at h; simp [dec64, dec64M70, bit, h]
  | dld o =>
    exact (encDLdOps_reads _ _ s o).row fun v h => by simp at h; simp [dec64, dec64M71, h]
  | dst o =>
    exact (encDStOps_reads _ _ s o).row fun v h => by simp at h; simp [dec64, dec64M71, h]
  | dmkp o | dmkq o =>
    exact (encDMk1_reads _ _ s o).row fun v h => by simp at h; simp [dec64, dec64M71, h]
  | dmku o =>
    exact (encDMk2_reads _ _ s o).row fun v h => by simp at h; simp [dec64, dec64M71, h]
  | dmom o =>
    exact (encDMomOps_reads _ _ s o).row fun v h => by simp at h; simp [dec64, dec64M71, h]
  | dqnt o =>
    exact (encDQntOps_reads _ _ s o).row fun v h => by simp at h; simp [dec64, dec64M71, h]
  | _ => cases h

/-- The 96-bit class. -/
theorem dec96_encode (s : Bool) (code : Nat) {i : Instr} (h : i.words = 3) : dec96 (encode s code i) = .ok i := by
  cases i with
  | addLit o | subLit o | andLit o | orLit o | xorLit o | shlLit o | shrLit o | sarLit o | minLit o | maxLit o | minuLit o
  | maxuLit o | seqLit o | sneLit o | sltLit o | sltuLit o | sgeLit o | sgeuLit o | mulLit o | mulhLit o | mulhuLit o | divLit o
  | divuLit o | remLit o | remuLit o =>
    exact (encSLit_reads _ _ s o).row fun v h => by simp at h; simp [dec96, dec96M01, h]
  | vaddLit o | vsubLit o | vmulLit o | vminLit o | vmaxLit o | viaddLit o | visubLit o | vimulLit o | vandLit o | vorLit o
  | vxorLit o | vshlLit o | vshrLit o | vsarLit o =>
    exact (encT2L_reads _ _ s o).rowO fun v h => by simp at h; simp [dec96, dec96M10, dec96M11, h]
  | vfmaLit o =>
    exact (encT3L_reads _ _ s o).rowO fun v h => by simp at h; simp [dec96, dec96M10, h]
  | vselLit o =>
    exact (encSelLOps_reads _ _ s o).rowO fun v h => by simp at h; simp [dec96, dec96M11, h]
  | vcmpLit o =>
    exact (encCmpLOps_reads _ _ s o).rowO fun v h => by simp at h; simp [dec96, dec96M11, h]
  | lit o =>
    exact (encLitOps_reads _ s o).row fun v h => by simp at h; simp [dec96, h]
  | tlbi o =>
    exact (encTlbiOps_reads _ s o).row fun v h => by simp at h; simp [dec96, h]
  | _ => cases h

/-! ### Length, sync bit and major opcode (R74) -/
theorem fieldAt_encFields_length (s : Bool) (code : Nat) (i : Instr) :
    fieldAt (encFields s code i) 30 = if i.words = 0 then none else some (2, i.words - 1) := by
  cases i <;> rfl
theorem fieldAt_encFields_sync (s : Bool) (code : Nat) (i : Instr) :
    fieldAt (encFields s code i) 29 = if i.words = 0 then none else some (1, s.toNat) := by
  cases i <;> rfl
theorem Instr.words_le (i : Instr) : i.words ≤ 3 := by
  cases i <;> exact Nat.le_of_ble_eq_true rfl

theorem fld_encode_length (s : Bool) (code : Nat) {i : Instr} (h : 0 < i.words) : fld (encode s code i) 30 2 = i.words - 1 := by
  have hle := i.words_le
  rw [encode, fld_cat_of_fieldAt ((fieldAt_encFields_length s code i).trans (if_neg h.ne')), fld_of_lt (by omega)]

theorem wordSync_encode (s : Bool) (code : Nat) {i : Instr} (h : 0 < i.words) : wordSync (encode s code i) = s := by
  rw [wordSync, bit, encode, fld_cat_of_fieldAt ((fieldAt_encFields_sync s code i).trans (if_neg h.ne'))]
  simp

theorem scopeOk_encode {s : Bool} {code : Nat} {i : Instr} (h : Claim.scopeListed code i) : i.scopeOk (encode s code i) = true := by
  cases i with
  | tlbsync =>
    have hfld : fld (encode s code .tlbsync) 0 3 = code % 8 := by
      rw [encode, fld_cat_of_fieldAt (l := encFields s code .tlbsync) (v := code) rfl, fld, pow_zero, Nat.div_one]; rfl
    rw [Instr.scopeOk, hfld]
    exact decide_eq_true h
  | _ => rfl

/-- The last checks of the decoder pass: row 5 of Table 7-12 and the S bit of a row-axis instruction (R56). -/
theorem decode_encode {s : Bool} {code : Nat} {i : Instr} (h : Claim.encodable s code i) : decode (encode s code i) = .ok i := by
  obtain ⟨hwords, hwf, haxis, hscope⟩ := h
  have hlen := fld_encode_length s code hwords
  have hsync : (!i.rowAxis || bit (encode s code i) 29) = true := by
    rw [← wordSync, wordSync_encode s code hwords]
    cases hi : i.rowAxis with
    | false => rfl
    | true => exact haxis hi
  have hle := i.words_le
  obtain h1 | h2 | h3 : i.words = 1 ∨ i.words = 2 ∨ i.words = 3 := by omega
  · simp [decode, hlen, h1, dec32_encode s code h1, hwf, hsync, scopeOk_encode hscope]
  · simp [decode, hlen, h2, dec64_encode s code h2, hwf, hsync, scopeOk_encode hscope]
  · simp [decode, hlen, h3, dec96_encode s code h3, hwf, hsync, scopeOk_encode hscope]

/-- Settles O1. -/
theorem encodeDecode : Obligations.EncodeDecode := fun _ _ _ h => decode_encode h

end Sys2Proof
end

section
/-!
Engine command words (R90, R91): every well-formed command decodes from its own 96 bits, O2.
-/

namespace Sys2Proof

theorem EngOp.fields_width (o : EngOp) : (o.fields.map Prod.fst).sum = 48 := by
  cases o with
  | cwt r => cases r <;> rfl
  | cad r => cases r <;> rfl
  | _ => rfl

/-- The bits from 48 up are those of Table 7-13, whatever the operation. -/
theorem fld_encodeCmd (c : EngCmd) {lo n : Nat} (h : 48 ≤ lo) :
    fld (encodeCmd c) lo n = fld (cat (encCmdHead c.op.opcode c.h)) (lo - 48) n := by
  rw [encodeCmd, fld_cat_append_above (by rwa [EngOp.fields_width]), EngOp.fields_width]

theorem decCmdHead_encodeCmd (c : EngCmd) : decCmdHead (encodeCmd c) = c.h := by
  simp [decCmdHead, bit, bv, fld_encodeCmd, encCmdHead]

theorem EngOp.opcode_lt (o : EngOp) : o.opcode < 2 ^ 8 := by
  cases o <;> simp [EngOp.opcode]

theorem fld_encodeCmd_opcode (c : EngCmd) : fld (encodeCmd c) 88 8 = c.op.opcode := by
  simp [fld_encodeCmd, encCmdHead, fld_of_lt c.op.opcode_lt]

theorem decCtrRef_encCtrRef (r : CtrRef) (amount : BitVec 30) (t : List (Nat × Nat)) :
    decCtrRef (cat (encCtrRef r amount ++ t)) = some r := by
  cases r <;> simp [encCtrRef, decCtrRef, zeros, bv]

/-- The operation is the row of its opcode; the amount of an add through a page is 0 (R238). -/
theorem decEngOp_encodeCmd {c : EngCmd} (h : c.wf = true) : decEngOp (encodeCmd c) = some c.op := by
  have hop := fld_encodeCmd_opcode c
  obtain ⟨hd, o⟩ := c
  cases o with
  | cwt r =>
    have href : decCtrRef (encodeCmd ⟨hd, .cwt r⟩) = some r := decCtrRef_encCtrRef r 0 _
    have hzero : (decide (fld (encodeCmd ⟨hd, .cwt r⟩) 46 2 = 2) || zeros (encodeCmd ⟨hd, .cwt r⟩) [(16, 30)]) = true := by
      cases r <;> simp [encodeCmd, EngOp.fields, encCtrRef, zeros]
    rw [decEngOp, hop]
    show (decCtrRef _).bind _ = _
    rw [href, Option.bind_some, if_pos hzero]
  | cad r amount =>
    have href : decCtrRef (encodeCmd ⟨hd, .cad r amount⟩) = some r := decCtrRef_encCtrRef r amount _
    have hamount : (if fld (encodeCmd ⟨hd, .cad r amount⟩) 46 2 = 2 then 0 else bv (encodeCmd ⟨hd, .cad r amount⟩) 16 30) =
        amount := by
      cases r with
      | page a =>
        have hpage : amount = 0 := by rw [EngCmd.wf, Bool.and_eq_true] at h; exact of_decide_eq_true h.2
        simp [encodeCmd, EngOp.fields, encCtrRef, hpage]
      | _ => simp [encodeCmd, EngOp.fields, encCtrRef, bv]
    rw [decEngOp, hop]
    show (decCtrRef _).map _ = _
    rw [href, Option.map_some, hamount]
  | _ =>
    rw [decEngOp, hop]
    simp [EngOp.opcode, cmdIf, zeros, encodeCmd, EngOp.fields, bv, bit]

/-- Settles O2. -/
theorem commandEncodeDecode : Obligations.CommandEncodeDecode := by
  intro c h
  rw [decodeCmd, decEngOp_encodeCmd h, Option.bind_some, decCmdHead_encodeCmd]
  exact if_pos h

end Sys2Proof
end

section
/-!
Fetch (R75, R249): the word of a fetch is the 32 bits at the address that an executable leaf translates the PC to, O6.
-/

namespace Sys2Proof

theorem leNat_lt (l : List Byte) : leNat l < 256 ^ l.length := by
  induction l with
  | nil => exact Nat.one_pos
  | cons b t ih =>
    have hb := b.isLt
    rw [leNat, List.length_cons, pow_succ]
    omega

namespace Machine

theorem State.length_bytes (s : State) (pa n : Nat) : (s.bytes pa n).length = n := by
  induction n generalizing pa with
  | zero => rfl
  | succ n ih => rw [State.bytes, List.length_cons, ih]

theorem State.readN_lt (s : State) (pa n : Nat) : s.readN pa n < 256 ^ n := by
  have h := leNat_lt (s.bytes pa n)
  rwa [State.length_bytes] at h

/-! ### The check of a fetch (R249) -/

theorem permits_fetch (super : Bool) (e : Nat) : permits super .fetch e = (pteX e && (pteU e == !super)) := by
  cases super <;> cases h : pteU e <;> simp [permits, h]

section
variable {s : State} {unit asid va : Nat} {super : Bool}

theorem State.check_fetch_ok {e : TlbEntry} (h : s.check unit asid super .fetch va = .ok e) :
    pteX e.ent = true ∧ pteU e.ent = !super := by
  unfold State.check at h
  split at h
  · cases h
  · split at h
    · cases h
    · split at h
      · next hp =>
        obtain rfl := Except.ok.inj h
        obtain ⟨hperm, -⟩ := Bool.and_eq_true_iff.mp hp
        simpa [permits_fetch] using hperm
      · cases h

theorem State.check_fetch_prot {e : TlbEntry} (hva : va < 2 ^ 48) (hl : s.lookup unit asid va = some e)
    (h : pteX e.ent = false ∨ pteU e.ent = super) : s.check unit asid super .fetch va = .error cPROT := by
  have hp : permits super .fetch e.ent = false := by
    rw [permits_fetch]
    rcases h with h | h <;> simp [h]
  rw [State.check, if_neg (by omega), hl]
  simp [hp]

theorem State.check_xlate {need : Need} (h : 2 ^ 48 ≤ va ∨ s.lookup unit asid va = none) :
    s.check unit asid super need va = .error cXLATE := by
  rw [State.check]
  split
  · rfl
  · next hva => rw [h.resolve_left hva]

end

/-! ### The words of a fetch -/

/-- The later words of an instruction stand above the first. -/
theorem State.fetchMore_low {n c k va sh w w' : Nat} {s t : State} (hsh : 32 ≤ sh)
    (h : s.fetchMore n c k va sh w = .word t w') :
    w' % 2 ^ 32 = w % 2 ^ 32 := by
  induction k generalizing s va sh w with
  | zero =>
    obtain ⟨-, rfl⟩ := Fetched.word.inj h
    rfl
  | succ k ih =>
    rw [State.fetchMore] at h
    split at h
    · cases h
    · next v _ =>
      have hdvd : 2 ^ 32 ∣ v * 2 ^ sh := (pow_dvd_pow 2 hsh).mul_left v
      rw [ih (by omega) h, Nat.add_mod, Nat.mod_eq_zero_of_dvd hdvd, Nat.add_zero, Nat.mod_mod]

theorem State.fetch_of_check_error {s : State} {n c va k : Nat}
    (h : s.check (unitCore n) (s.core n).asid.toNat (s.cluster n c).super .fetch va = .error k) :
    s.fetch n c va = .bad s k (w64 va) 0 := by
  rw [State.fetch, State.fetchWord, h]

theorem State.fetchWord_ok {s t : State} {n c va w : Nat} (h : s.fetchWord n c va = .ok (t, w)) : ∃ e a,
    s.check (unitCore n) (s.core n).asid.toNat (s.cluster n c).super .fetch va = .ok e ∧ s.target (e.pa va) false = some a ∧
    t = s.fill (unitCore n) e ∧ w = s.readN a 4 := by
  unfold State.fetchWord at h
  split at h
  · cases h
  · next e he =>
    split at h
    · next a ha =>
      obtain ⟨rfl, rfl⟩ := Prod.mk.inj (Except.ok.inj h)
      exact ⟨e, a, he, ha, rfl, rfl⟩
    · cases h

theorem State.fetch_word {s t : State} {n c va w : Nat} (h : s.fetch n c va = .word t w) :
    ∃ u v, s.fetchWord n c va = .ok (u, v) ∧ w % 2 ^ 32 = v % 2 ^ 32 := by
  unfold State.fetch at h
  split at h
  · cases h
  · next u v hv =>
    split at h
    · cases h
    · exact ⟨u, v, hv, State.fetchMore_low le_rfl h⟩

/-- Settles O6. That the word is the one memory holds at the fetch is log entry 76's choice. -/
theorem fetchReadsMemory : Obligations.FetchReadsMemory := by
  refine fun s n c va => ⟨?word, ?prot, ?xlate, fun k => State.fetch_of_check_error⟩
  case word =>
    intro t w h
    obtain ⟨u, v, hv, hw⟩ := State.fetch_word h
    obtain ⟨e, a, he, ha, -, rfl⟩ := State.fetchWord_ok hv
    obtain ⟨hx, hu⟩ := State.check_fetch_ok he
    exact ⟨e, a, he, hx, hu, ha, hw.trans (Nat.mod_eq_of_lt (s.readN_lt a 4))⟩
  case prot => exact fun e hva hl h => State.fetch_of_check_error (State.check_fetch_prot hva hl h)
  case xlate => exact fun h => State.fetch_of_check_error (State.check_xlate h)

end Machine
end Sys2Proof
end

section
/-!
Completion in sequence and round a loop (R75, R139): O14.
-/

namespace Sys2Proof.Machine

/-! ### The loop-end step (R139) -/

section
variable {c : Cluster} {next : Word}

theorem Cluster.loopStep_apart (h : c.ldepth = 0 ∨ SMap.get 0 c.lend (c.ldepth.toNat - 1) ≠ c.pc) :
    c.loopStep next = { c with pc := next } := by
  unfold Cluster.loopStep
  rcases h with h | h
  · exact if_pos (by rw [h]; rfl)
  · exact ite_eq_left_iff.mpr fun _ => if_pos h

theorem Cluster.loopStep_back (hd : c.ldepth ≠ 0) (hend : SMap.get 0 c.lend (c.ldepth.toNat - 1) = c.pc)
    (hcount : SMap.get 0 c.lcount (c.ldepth.toNat - 1) ≠ 1) :
    c.loopStep next = { c with
      lcount := SMap.set 0 c.lcount (c.ldepth.toNat - 1) (SMap.get 0 c.lcount (c.ldepth.toNat - 1) - 1)
      pc := SMap.get 0 c.lstart (c.ldepth.toNat - 1) } := by
  have hdepth : ¬ c.ldepth.toNat = 0 := fun h => hd (BitVec.eq_of_toNat_eq h)
  have hleft : SMap.get 0 c.lcount (c.ldepth.toNat - 1) - 1 ≠ 0 := fun h => hcount (sub_eq_zero.mp h)
  unfold Cluster.loopStep
  rw [if_neg hdepth, if_neg (not_not.mpr hend), if_pos hleft]

theorem Cluster.loopStep_x : (c.loopStep next).x = c.x := by
  unfold Cluster.loopStep
  dsimp only
  split_ifs <;> rfl

end

theorem State.nextPc_markIssued (t : State) : t.markIssued.nextPc = t.nextPc := by
  rw [State.nextPc, State.me_markIssued, State.markIssued_ir, State.nextPc]

/-- The cluster under way with the issue of its instruction recorded. -/
def State.meIssued (t : State) : Cluster := { t.me with issuedAt := t.cycle + 1, block := some (t.me.pc.toNat / 64) }

/-- What an instruction that completes in sequence leaves of its cluster: the loop-end step of R139. -/
theorem State.me_inSequence (t : State) : t.inSequence.me = { t.meIssued.loopStep t.nextPc with act := .running } := by
  rw [State.inSequence, State.advance, State.me_modMe, State.me_markIssued, State.nextPc_markIssued, State.meIssued]

/-- Settles O14, from the loop-end step of the cluster under way. -/
theorem sequenceAndLoop : Obligations.SequenceAndLoop := by
  refine fun t => ⟨fun h => ?apart, fun hd hend hcount => ?back, ?act, ?mem, ?x⟩
  case apart =>
    rw [State.me_inSequence, Cluster.loopStep_apart (c := t.meIssued) h]
    exact ⟨rfl, rfl, rfl⟩
  case back =>
    rw [State.me_inSequence, Cluster.loopStep_back (c := t.meIssued) hd hend hcount]
    exact ⟨rfl, rfl, SMap.get_set_same ..⟩
  case act => rw [State.me_inSequence]
  case mem => exact (State.advance_mem _).trans (State.markIssued_mem t)
  case x =>
    rw [State.me_inSequence]
    exact Cluster.loopStep_x (c := t.meIssued)

end Sys2Proof.Machine
end

section
/-!
The decoder on words written out, O4, and what a step does with a decoded instruction, O5.
-/

namespace Sys2Proof

/-- Settles O4: each word evaluates. -/
theorem decodeWords : Obligations.DecodeWords :=
  ⟨rfl, rfl, rfl, rfl, rfl, rfl, rfl, rfl, rfl⟩

namespace Machine

/-- ESTART X1. -/
def estartX1 : Instr := .estart { a := 1 }

/-- A machine whose cluster 0 of core 0 presents ESTART, at the beginning of a cycle. -/
def estartReady : State := { State.reset.withFetchWord 64 (encode false 0 estartX1) with turn := 0, later := [] }

/-- The same in the turn of that cluster. -/
def estartTurn : State := { estartReady with turn := estartReady.nextAct.1, curCore := 0, curCl := 0, hitSeen := [] }

/-- Whether a fetch gives a word that meets `f`. -/
def Fetched.meets (f : State → Nat → Bool) : Fetched → Bool
  | .word t w => f t w
  | .bad .. => false

theorem Fetched.meets_iff {f : State → Nat → Bool} {r : Fetched} :
    r.meets f = true ↔ ∃ t w, r = .word t w ∧ f t w = true := by
  cases r <;> simp [Fetched.meets]

/-- Where the cluster under way goes on after a step. -/
def pcAfter : Host.Outcome State Fault Refusal → Option Word
  | .next t => some t.me.pc
  | _ => none

theorem decode_estartX1 : decode 0x58001001 = .ok estartX1 := rfl

/-- In its cluster's own turn ESTART does not execute: it lets its turn in gang order come (R152). -/
theorem pcAfter_step_estartReady : pcAfter (step estartReady) = some 0 := by decide +kernel

theorem nextAct_estartReady : estartReady.nextAct.2 = .cluster 0 0 := by decide +kernel

/-- Its block is there, and its execution goes on behind it. -/
theorem fetch_estartTurn : (estartTurn.fetch 0 0 0).meets (fun t w => decide (w = 0x58001001) &&
    decide (missingBlock (estartReady.cluster 0 0).block 0 (0 + wordLen (w % 2 ^ 32) - 1) = none) &&
    decide (pcAfter (exec estartX1 { t with ir := w }) = some 8)) = true := by decide +kernel

theorem estartReady_presents : estartReady.power = true ∧ (estartReady.cluster 0 0).event = none ∧
    (estartReady.cluster 0 0).presents estartReady.cycle = true ∧ (estartReady.cluster 0 0).pc = 0 := by decide +kernel

/-- Refutes O5: RENQ, ESTART and the relay instructions take effect in gang order (R152, R324), so that the step of the turn in which
their cluster presents them only notes that their own turn is to come: here PC stays 0, where `exec` of ESTART goes on at 8. -/
theorem not_stepRunsDecoded : ¬ Obligations.StepRunsDecoded := by
  intro h
  obtain ⟨hpower, hevent, hpresents, hpc⟩ := estartReady_presents
  obtain ⟨t, w, hfetch, hall⟩ := Fetched.meets_iff.mp fetch_estartTurn
  simp only [Bool.and_eq_true, decide_eq_true_eq] at hall
  obtain ⟨⟨rfl, hblock⟩, hexec⟩ := hall
  have hstep := h estartReady estartReady.nextAct.1 0 0 _ t estartX1 hpower (Prod.ext rfl nextAct_estartReady) hevent hpresents
    (by rw [hpc]; exact ⟨hfetch, hblock, decode_estartX1⟩)
  have hpcs := pcAfter_step_estartReady
  rw [hstep, hexec] at hpcs
  exact absurd hpcs (by decide)

end Machine
end Sys2Proof
end

section
/-!
The ends of waits (R87, R132, R134, R161, R269, R371): what each event does, O51.
-/

namespace Sys2Proof.Machine

/-! ### Tickets (R161, R269) -/

theorem State.ticket_modTicket (s : State) {i : Nat} {f : Ticket → Ticket} (hf : ∀ k, (f k).id = k.id) :
    (s.modTicket i f).ticket i = (s.ticket i).map f := by
  have hkey : (fun k : Ticket => decide (k.id = i)) ∘ (fun k => if k.id = i then f k else k) = fun k => decide (k.id = i) := by
    funext k
    by_cases hk : k.id = i <;> simp [hk, hf]
  rw [State.ticket, State.ticket, State.modTicket, List.find?_map, hkey]
  cases hfind : s.tickets.find? (fun k => decide (k.id = i)) with
  | none => rfl
  | some k =>
    have hk : k.id = i := of_decide_eq_true (List.find?_some hfind :)
    simp [hk]

/-- A ticket of which only the units `left` have not acknowledged. -/
def Ticket.leave (left : List Nat) (cycle : Nat) (k : Ticket) : Ticket :=
  { k with unacked := left, doneAt := if left.isEmpty then some cycle else none }

section
variable {s : State} {u id : Nat} {k : Ticket} (hev : s.ev = .nats [u, id]) (hk : s.ticket id = some k) (hdrop : u ∉ k.undropped)
  (hack : u ∈ k.unacked)
include hev hk hdrop hack

theorem exec_tlbiAcknowledge_drained (hdrained : s.unitDrained u k = true) :
    exec .tlbiAcknowledge s =
      .next ((s.dropHits u k).modTicket k.id (Ticket.leave (k.unacked.filter fun x => decide (x ≠ u)) s.cycle)) := by
  have h0 : s.ev.nat 0 = u := by rw [hev]; rfl
  have h1 : s.ev.nat 1 = id := by rw [hev]; rfl
  have howed : (k.undropped.contains u || !k.unacked.contains u) = false := by simp [hdrop, hack]
  show execTlbiAcknowledge s = _
  simp only [execTlbiAcknowledge, h0, h1, hk, howed, hdrained]
  rfl

theorem exec_tlbiAcknowledge_busy (hbusy : s.unitDrained u k = false) :
    exec .tlbiAcknowledge s = .next (s.schedule (s.cycle + 1) .tlbiAcknowledge (.nats [u, k.id])) := by
  have h0 : s.ev.nat 0 = u := by rw [hev]; rfl
  have h1 : s.ev.nat 1 = id := by rw [hev]; rfl
  have howed : (k.undropped.contains u || !k.unacked.contains u) = false := by simp [hdrop, hack]
  show execTlbiAcknowledge s = _
  simp only [execTlbiAcknowledge, h0, h1, hk, howed, hbusy]
  rfl

end

theorem State.unitDrained_of_use {s : State} {u : Nat} {k : Ticket} (h : ∃ x ∈ s.flights, x.unit = u ∧ k.hitsUse x = true) :
    s.unitDrained u k = false := by
  obtain ⟨x, hx, hu, hhit⟩ := h
  simp only [State.unitDrained, Bool.not_eq_false', List.any_eq_true]
  exact ⟨x, hx, by simp [hu, hhit]⟩

/-! ### The end of a TLBSYNC -/

/-- A trap of a cluster changes its core and the faults of the cycle. -/
def State.OnlyTraps (s t : State) : Prop := t = { s with cores := t.cores, faults := t.faults }

theorem State.OnlyTraps.trans {s t u : State} (h : s.OnlyTraps t) (g : t.OnlyTraps u) : s.OnlyTraps u := by
  unfold State.OnlyTraps at *
  rw [g, h]

theorem State.OnlyTraps.mem {s t : State} (h : s.OnlyTraps t) : t.mem = s.mem := by
  rw [State.OnlyTraps] at h
  rw [h]

theorem State.OnlyTraps.tickets {s t : State} (h : s.OnlyTraps t) : t.tickets = s.tickets := by
  rw [State.OnlyTraps] at h
  rw [h]

theorem State.trapAt_onlyTraps (s : State) (n c cause : Nat) (info ret : Word) (sync forced : Bool) :
    s.OnlyTraps (s.trapAt n c cause info ret sync forced) :=
  rfl

theorem State.OnlyTraps.foldl {α : Type} {f : State → α → State} (h : ∀ (s : State) (a : α), s.OnlyTraps (f s a)) (l : List α)
    (s : State) : s.OnlyTraps (l.foldl f s) :=
  List.foldlRecOn (motive := fun t : State => s.OnlyTraps t) _ _ rfl fun t ht a _ => ht.trans (h t a)

theorem State.syncTickets_onlyTraps (s : State) (ids : List Nat) :
    State.OnlyTraps { s with tickets := s.tickets.filter fun k => !ids.contains k.id } (s.syncTickets ids) := by
  unfold State.syncTickets
  exact State.OnlyTraps.foldl (fun t _ => t.trapAt_onlyTraps ..) _ _

theorem Cluster.hold?_waiting {c : Cluster} {h : Hold} (hact : c.act = .waiting h) : c.hold? = some h := by
  rw [Cluster.hold?, hact]

/-- The cluster that the operands of a step name is under way. -/
def State.named (s : State) : State := { s with curCore := s.ev.nat 0, curCl := s.ev.nat 1 }

theorem exec_tlbsyncComplete_done {s : State} {h : Hold} (hact : s.named.me.act = .waiting h) (hkind : h.kind = .tlbsync)
    (hdone : s.named.ticketsDone s.named.me.tlbis = true) :
    exec .tlbsyncComplete s =
      .next (((s.named.syncTickets s.named.me.tlbis).modMe fun c => { c with tlbis := [] }).release h) := by
  have hhold := Cluster.hold?_waiting hact
  unfold State.named at hhold
  show execTlbsyncComplete s = _
  simp only [execTlbsyncComplete, hhold, hkind, decide_true, Bool.true_and]
  exact if_pos hdone

/-! ### Fetch -/

section
variable {s : State} {h : Hold} {b : Nat} (hact : s.named.me.act = .waiting h) (hkind : h.kind = .fetch b)
include hact hkind

theorem exec_fetchBlockArrival_ok {r : State × Nat}
    (hr : s.named.fetchWord s.named.curCore s.named.curCl (max s.named.me.pc.toNat (64 * b)) = .ok r) :
    exec .fetchBlockArrival s =
      .next ((r.1.fetchTraffic s.named.curCore s.named.curCl (max s.named.me.pc.toNat (64 * b))).modMe
        fun c => { c with act := .running, block := some b }) := by
  have hhold := Cluster.hold?_waiting hact
  unfold State.named at hhold hr
  show execFetchBlockArrival s = _
  simp only [execFetchBlockArrival, hhold, hkind, hr]
  rfl

theorem exec_fetchBlockArrival_error {e : Nat}
    (he : s.named.fetchWord s.named.curCore s.named.curCl (max s.named.me.pc.toNat (64 * b)) = .error e) :
    exec .fetchBlockArrival s =
      .next (({ s.named with ir := 0 } : State).trap e (w64 (max s.named.me.pc.toNat (64 * b)))) := by
  have hhold := Cluster.hold?_waiting hact
  unfold State.named at hhold he
  show execFetchBlockArrival s = _
  simp only [execFetchBlockArrival, hhold, hkind, he]
  rfl

end

theorem exec_decodingFault {s : State} {n c cause info : Nat} (hev : s.ev = .nats [n, c, cause, info]) :
    exec .decodingFault s = .next (({ s with curCore := n, curCl := c } : State).trap cause (w64 info)) := by
  show execDecodingFault s = _
  rw [execDecodingFault, hev]
  rfl

/-! ### Memory -/

theorem exec_ldqFill_reserved {s : State} {n q e pa ent c ok data : Nat} (hev : s.ev = .nats [n, q, e, pa, ent, c, ok, data])
    (hst : ((s.core n).qEntry q e).st = .reserved) :
    exec .ldqFill s = .next (s.modCore n fun k => k.setQEntry q e
      (if ok = 1 then { (s.core n).qEntry q e with st := .filled, data := data }
       else { (s.core n).qEntry q e with st := .poisoned })) := by
  show execLdqFill s = _
  rw [execLdqFill, hev]
  exact if_neg (not_not.mpr hst)

theorem Core.qEntry_setQEntry (k : Core) (q e : Nat) (v : QEntry) : (k.setQEntry q e v).qEntry q e = v :=
  SMap.get_set_same ..

/-- What the acknowledgement of the posted store `id` does to its cluster (R132, R134). -/
def Cluster.ackPosted (id : Nat) (k : Cluster) : Cluster :=
  match k.posted.find? fun p => decide (p.id = id) with
  | none => k
  | some p =>
    let k := { k with posted := k.posted.filter fun q => decide (q.id ≠ id) }
    if p.fail ≠ 0 ∧ k.mirrRep = none then { k with mirrRep := some (p.fail, p.ea) } else k

section
variable {k : Cluster} {p : Posted} {id : Nat} (hp : k.posted.find? (fun p => decide (p.id = id)) = some p)
include hp

theorem Cluster.posted_ackPosted : (k.ackPosted id).posted = k.posted.filter fun q => decide (q.id ≠ id) := by
  rw [Cluster.ackPosted, hp]
  dsimp only
  split_ifs <;> rfl

theorem Cluster.mirrRep_ackPosted :
    (k.ackPosted id).mirrRep = if p.fail ≠ 0 ∧ k.mirrRep = none then some (p.fail, p.ea) else k.mirrRep := by
  rw [Cluster.ackPosted, hp]
  dsimp only
  split_ifs <;> rfl

end

theorem exec_postedStoreAck {s : State} {n c id : Nat} (hev : s.ev = .nats [n, c, id]) :
    exec .postedStoreAck s = .next (s.modCluster n c (Cluster.ackPosted id)) := by
  show execPostedStoreAck s = _
  rw [execPostedStoreAck, hev]
  rfl

/-- Settles O51, event by event. -/
theorem waitEnds : Obligations.WaitEnds := by
  refine ⟨?drained, ?busy, ?sync, ?fetch, ?fault, ?fill, ?ack⟩
  case drained =>
    intro s u id k hev hk hid hdrop hack hdrained
    subst hid
    have hticket := (s.dropHits u k).ticket_modTicket (i := k.id)
      (f := Ticket.leave (k.unacked.filter fun x => decide (x ≠ u)) s.cycle) fun _ => rfl
    rw [show (s.dropHits u k).ticket k.id = some k from hk] at hticket
    exact ⟨_, _, exec_tlbiAcknowledge_drained hev hk hdrop hack hdrained, hticket, rfl,
      fun hnone => if_pos (List.isEmpty_iff.mpr hnone), rfl, rfl⟩
  case busy =>
    intro s u id k hev hk hdrop hack huse
    exact ⟨_, exec_tlbiAcknowledge_busy hev hk hdrop hack (State.unitDrained_of_use huse), rfl, _,
      s.due_schedule .., rfl, rfl, rfl⟩
  case sync =>
    intro s h u hact hkind hdone
    have honly := s.named.syncTickets_onlyTraps s.named.me.tlbis
    refine ⟨_, exec_tlbsyncComplete_done hact hkind hdone, ?_, honly.mem, honly.tickets⟩
    rw [State.me_modMe]
  case fetch =>
    intro s h b u va hact hkind
    exact ⟨fun r => exec_fetchBlockArrival_ok hact hkind, fun e => exec_fetchBlockArrival_error hact hkind⟩
  case fault => exact fun s n c cause info hev => exec_decodingFault hev
  case fill =>
    intro s n q e pa ent c ok data hev hst
    refine ⟨_, exec_ldqFill_reserved hev hst, rfl, fun hok => ?_, fun hok => ?_⟩
    · rw [State.core_modCore, Core.qEntry_setQEntry, if_pos hok]
      exact ⟨rfl, rfl⟩
    · rw [State.core_modCore, Core.qEntry_setQEntry, if_neg hok]
  case ack =>
    intro s n c id p hev hp
    refine ⟨_, exec_postedStoreAck hev, rfl, ?_, ?_⟩ <;> rw [State.cluster_modCluster]
    · exact Cluster.posted_ackPosted hp
    · exact Cluster.mirrRep_ackPosted hp

end Sys2Proof.Machine
end

section
/-!
SUPPORT. Rounding (R103-R112): finite values as rationals, what rounding on a grid delivers, the value of a pattern that is built from
a significand, and the flags of a rounding.
-/

namespace Sys2Proof.Machine

/-! ### Finite values as rationals -/

/-- The magnitude `n * 2^e`. -/
def magn (n : Nat) (e : Int) : ℚ := n * 2 ^ e

theorem magn_pow_mul (n k : Nat) (e : Int) : magn (n * 2 ^ k) e = magn n (e + k) := by
  rw [magn, magn, zpow_add₀ two_ne_zero, zpow_natCast]
  push_cast
  ring

theorem magn_lt_magn {m n : Nat} {e : Int} : magn m e < magn n e ↔ m < n := by
  rw [magn, magn, mul_lt_mul_iff_left₀ (by positivity), Nat.cast_lt]

theorem magn_le_magn {m n : Nat} {e : Int} : magn m e ≤ magn n e ↔ m ≤ n := by
  rw [← not_lt, magn_lt_magn, not_lt]

theorem magn_inj {m n : Nat} {e : Int} : magn m e = magn n e ↔ m = n := by
  simp only [le_antisymm_iff, magn_le_magn]

/-- The value of a finite pattern, `(-1)^s * m * 2^e`. -/
def ratOf (s : Bool) (m : Nat) (e : Int) : ℚ := if s then -magn m e else magn m e

/-- On the grid `2^e` at or below its own exponent a value is an integer. -/
theorem FVal.atExp_mul (s : Bool) (m : Nat) {e0 e : Int} (h : e ≤ e0) : (FVal.atExp s m e0 e : ℚ) * 2 ^ e = ratOf s m e0 := by
  have grid : ((m * 2 ^ (e0 - e).toNat : Nat) : ℚ) * 2 ^ e = magn m e0 := by
    rw [← magn, magn_pow_mul, Int.toNat_of_nonneg (sub_nonneg.mpr h), add_sub_cancel]
  cases s
  · exact grid
  · rw [ratOf, if_pos rfl, ← grid, FVal.atExp, if_pos rfl, Int.cast_neg, neg_mul, Int.cast_natCast]

theorem FVal.eq_fin_iff (s t : Bool) (m n : Nat) (e g : Int) :
    FVal.eq (.fin s m e) (.fin t n g) = true ↔ ratOf s m e = ratOf t n g := by
  have pos : (2 : ℚ) ^ min e g ≠ 0 := by positivity
  rw [← FVal.atExp_mul s m (min_le_left e g), ← FVal.atExp_mul t n (min_le_right e g), mul_left_inj' pos, Int.cast_inj]
  exact decide_eq_true_iff

theorem FVal.lt_fin_iff (s t : Bool) (m n : Nat) (e g : Int) :
    FVal.lt (.fin s m e) (.fin t n g) = true ↔ ratOf s m e < ratOf t n g := by
  have pos : (0 : ℚ) < 2 ^ min e g := by positivity
  rw [← FVal.atExp_mul s m (min_le_left e g), ← FVal.atExp_mul t n (min_le_right e g), mul_lt_mul_iff_left₀ pos, Int.cast_lt]
  exact decide_eq_true_iff

/-! ### Rounding on a grid (R108-R110) -/

/-- Rounding on a grid delivers the value itself where it lies on it, and else one of its two neighbours. -/
theorem roundAt_cases (r : RMode) (s : Bool) (n : Nat) (e q : Int) :
    ((roundAt r s n e false q).2.2 = false ∧ magn (roundAt r s n e false q).1 q = magn n e) ∨
      ((roundAt r s n e false q).2.2 = true ∧ ∃ lo, magn lo q < magn n e ∧ magn n e < magn (lo + 1) q ∧
        ((roundAt r s n e false q).1 = lo ∨ (roundAt r s n e false q).1 = lo + 1)) := by
  by_cases fine : q ≤ e
  · left
    rw [roundAt, if_pos fine]
    refine ⟨rfl, ?_⟩
    show magn (n * 2 ^ (e - q).toNat) q = _
    rw [magn_pow_mul, Int.toNat_of_nonneg (sub_nonneg.mpr fine), add_sub_cancel]
  · obtain ⟨k, hk⟩ : ∃ k : Nat, q = e + k := ⟨(q - e).toNat, by omega⟩
    have sh : (q - e).toNat = k := by omega
    have split : n / 2 ^ k * 2 ^ k + n % 2 ^ k = n := Nat.div_add_mod' n (2 ^ k)
    have below : n % 2 ^ k < 2 ^ k := Nat.mod_lt _ (Nat.two_pow_pos k)
    have scaled (m : Nat) : magn m q = magn (m * 2 ^ k) e := by rw [hk, magn_pow_mul]
    rw [roundAt, if_neg fine, sh]
    by_cases onGrid : n % 2 ^ k = 0
    · left
      rw [if_pos ⟨onGrid, rfl⟩]
      refine ⟨rfl, ?_⟩
      rw [scaled, magn_inj]
      show n / 2 ^ k * 2 ^ k = n
      omega
    · right
      rw [if_neg fun h => onGrid h.1]
      refine ⟨rfl, n / 2 ^ k, ?_, ?_, ?_⟩
      · rw [scaled, magn_lt_magn]; omega
      · rw [scaled, magn_lt_magn, Nat.add_one_mul]; omega
      · exact (ite_eq_or_eq _ _ _).symm

theorem roundAt_exact_iff {r : RMode} {s : Bool} {n : Nat} {e q : Int} :
    (roundAt r s n e false q).2.2 = false ↔ magn (roundAt r s n e false q).1 q = magn n e := by
  obtain ⟨hx, hv⟩ | ⟨hx, lo, hlo, hhi, hm⟩ := roundAt_cases r s n e q
  · exact iff_of_true hx hv
  · refine iff_of_false (by simp [hx]) ?_
    obtain hm | hm := hm <;> rw [hm]
    · exact hlo.ne
    · exact hhi.ne'

/-- Rounding does not pass a point of the grid at or below the value. -/
theorem le_roundAt {r : RMode} {s : Bool} {n k : Nat} {e q : Int} (h : magn k q ≤ magn n e) : k ≤ (roundAt r s n e false q).1 := by
  obtain ⟨-, hv⟩ | ⟨-, lo, -, hhi, hm⟩ := roundAt_cases r s n e q
  · rwa [← magn_le_magn (e := q), hv]
  · have := magn_lt_magn.mp (h.trans_lt hhi)
    omega

/-- Rounding does not pass a point of the grid at or above the value. -/
theorem roundAt_le {r : RMode} {s : Bool} {n k : Nat} {e q : Int} (h : magn n e ≤ magn k q) : (roundAt r s n e false q).1 ≤ k := by
  obtain ⟨-, hv⟩ | ⟨-, lo, hlo, -, hm⟩ := roundAt_cases r s n e q
  · rwa [← magn_le_magn (e := q), hv]
  · have := magn_lt_magn.mp (hlo.trans_le h)
    omega

/-! ### The grid of a value (R108) -/

theorem magn_two_pow (k : Nat) (e : Int) : magn (2 ^ k) e = 2 ^ (e + k) := by
  rw [← one_mul (2 ^ k : Nat), magn_pow_mul, magn, Nat.cast_one, one_mul]

/-- The binade of a value. -/
theorem binade_le_magn {n : Nat} (e : Int) (hn : n ≠ 0) : (2 : ℚ) ^ (e + Nat.log2 n) ≤ magn n e := by
  rw [← magn_two_pow, magn_le_magn]
  exact Nat.log2_self_le hn

theorem magn_lt_binade (n : Nat) (e : Int) : magn n e < 2 ^ (e + Nat.log2 n + 1) := by
  rw [add_assoc, ← Nat.cast_add_one, ← magn_two_pow, magn_lt_magn]
  exact Nat.lt_log2_self

/-- The exponent of the last place of a value at the fraction width of the format. -/
def Fmt.place (f : Fmt) (n : Nat) (e : Int) : Int := e + Nat.log2 n - f.fb

/-- The exponent of the grid a value is rounded on: its last place, or the subnormals' where that is coarser. -/
def Fmt.grid (f : Fmt) (n : Nat) (e : Int) : Int := max (f.place n e) f.minExp

theorem Fmt.magn_lt_place (f : Fmt) (n : Nat) (e : Int) : magn n e < 2 ^ (f.place n e + f.fb + 1) := by
  rw [Fmt.place, sub_add_cancel]
  exact magn_lt_binade n e

/-- The significand chosen on the grid has `fb + 1` bits, or is the next power of two; it is shorter on the subnormal grid only. -/
theorem Fmt.roundAt_grid (f : Fmt) (r : RMode) (s : Bool) {n : Nat} (e : Int) (hn : n ≠ 0) :
    (roundAt r s n e false (f.grid n e)).1 ≤ 2 ^ (f.fb + 1) ∧
      ((roundAt r s n e false (f.grid n e)).1 < 2 ^ f.fb → f.grid n e = f.minExp) := by
  constructor
  · apply roundAt_le
    rw [magn_two_pow]
    refine (f.magn_lt_place n e).le.trans (zpow_le_zpow_right₀ one_le_two ?_)
    have : f.place n e ≤ f.grid n e := le_max_left ..
    push_cast; omega
  · intro short
    by_contra coarse
    have hgrid : f.grid n e = f.place n e := by rw [Fmt.grid] at coarse ⊢; omega
    refine absurd (le_roundAt (r := r) (s := s) ?_) (not_le.mpr short)
    rw [magn_two_pow, hgrid, Fmt.place, sub_add_cancel]
    exact binade_le_magn e hn

/-! ### Patterns (R103, Table 9-2) -/

/-- Steps from the grid of the subnormals to that of the largest binade. -/
def Fmt.span (f : Fmt) : Nat := (f.maxExp - f.minExp).toNat

theorem Fmt.maxExp_eq (f : Fmt) : f.maxExp = f.minExp + f.span := by cases f <;> decide

/-- The significand of the largest finite value has `fb + 1` bits. -/
theorem Fmt.maxMant_bounds (f : Fmt) : 2 ^ f.fb ≤ f.maxMant ∧ f.maxMant < 2 ^ (f.fb + 1) := by cases f <;> decide

theorem Fmt.maxBits_eq (f : Fmt) : f.maxBits false = (f.span + 1) * 2 ^ f.fb + (f.maxMant - 2 ^ f.fb) := by
  cases f <;> decide

theorem Fmt.maxBits_lt (f : Fmt) : f.maxBits false < 2 ^ f.eb * 2 ^ f.fb := by cases f <;> decide

/-- In a format with infinities the largest exponent field is theirs and the NaNs'. -/
theorem Fmt.maxBits_of_hasInf {f : Fmt} (h : f.hasInf = true) : f.maxBits false < (2 ^ f.eb - 1) * 2 ^ f.fb := by
  revert h
  cases f <;> decide

/-- A pattern up to the largest finite one is neither an infinity's nor a NaN's. -/
theorem Fmt.finite_of_le_maxBits {f : Fmt} {b : Nat} (h : b ≤ f.maxBits false) :
    (f.hasInf && decide (b / 2 ^ f.fb = 2 ^ f.eb - 1)) = false ∧ ¬(f = .e4m3 ∧ b / 2 ^ f.fb = 15 ∧ b % 2 ^ f.fb = 7) := by
  constructor
  · refine Bool.and_eq_false_imp.mpr fun hinf => decide_eq_false (Nat.ne_of_lt ?_)
    exact Nat.div_lt_of_lt_mul (by rw [Nat.mul_comm]; exact h.trans_lt (Fmt.maxBits_of_hasInf hinf))
  · rintro ⟨rfl, hexp, hfrac⟩
    have h : b ≤ 126 := h
    have hexp : b / 8 = 15 := hexp
    have hfrac : b % 8 = 7 := hfrac
    omega

theorem Fmt.signBits_eq (f : Fmt) (s : Bool) : f.signBits s = 2 ^ f.fb * 2 ^ f.eb * s.toNat := by
  have : f.width - 1 = f.fb + f.eb := by rw [Fmt.width]; omega
  rw [Fmt.signBits, this, pow_add]
  cases s <;> simp

/-- The value of a sign and the magnitude of a finite pattern. -/
theorem Fmt.value_of_le_maxBits {f : Fmt} {b : Nat} (s : Bool) (h : b ≤ f.maxBits false) : f.value (f.signBits s + b) =
    if b / 2 ^ f.fb = 0 then .fin s (b % 2 ^ f.fb) f.minExp
    else .fin s (b % 2 ^ f.fb + 2 ^ f.fb) (f.minExp + (b / 2 ^ f.fb - 1 : Nat)) := by
  obtain ⟨hinf, hnan⟩ := Fmt.finite_of_le_maxBits h
  have small : b < 2 ^ f.fb * 2 ^ f.eb := (h.trans_lt f.maxBits_lt).trans_eq (Nat.mul_comm ..)
  have top : f.width - 1 = f.fb + f.eb := by rw [Fmt.width]; omega
  have sign : decide ((f.signBits s + b) / 2 ^ (f.width - 1) % 2 = 1) = s := by
    rw [top, pow_add, f.signBits_eq, Nat.mul_add_div (by positivity), Nat.div_eq_of_lt small]
    cases s <;> rfl
  have exponent : (f.signBits s + b) / 2 ^ f.fb % 2 ^ f.eb = b / 2 ^ f.fb := by
    rw [← Nat.mod_mul_right_div_self, f.signBits_eq, Nat.mul_add_mod, Nat.mod_eq_of_lt small]
  have fraction : (f.signBits s + b) % 2 ^ f.fb = b % 2 ^ f.fb := by
    rw [f.signBits_eq, Nat.mul_assoc, Nat.mul_add_mod]
  rw [Fmt.value, sign, exponent, fraction, hinf, if_neg hnan]
  rfl

theorem Fmt.value_subnormal {f : Fmt} {m : Nat} (s : Bool) (hm : m < 2 ^ f.fb) : f.value (f.signBits s + m) = .fin s m f.minExp := by
  have le : m ≤ f.maxBits false := by
    rw [f.maxBits_eq, Nat.add_one_mul]; omega
  rw [Fmt.value_of_le_maxBits s le, if_pos (Nat.div_eq_of_lt hm), Nat.mod_eq_of_lt hm]

theorem Fmt.value_normal {f : Fmt} {k m : Nat} (s : Bool) (hm : m < 2 ^ f.fb) (h : (k + 1) * 2 ^ f.fb + m ≤ f.maxBits false) :
    f.value (f.signBits s + ((k + 1) * 2 ^ f.fb + m)) = .fin s (m + 2 ^ f.fb) (f.minExp + k) := by
  have exponent : ((k + 1) * 2 ^ f.fb + m) / 2 ^ f.fb = k + 1 := by
    rw [Nat.mul_comm, Nat.mul_add_div (Nat.two_pow_pos _), Nat.div_eq_of_lt hm, Nat.add_zero]
  have fraction : ((k + 1) * 2 ^ f.fb + m) % 2 ^ f.fb = m := by
    rw [Nat.mul_comm, Nat.mul_add_mod, Nat.mod_eq_of_lt hm]
  rw [Fmt.value_of_le_maxBits s h, exponent, fraction, if_neg (Nat.succ_ne_zero k), Nat.add_sub_cancel]

/-- A significand on a grid fits the format: its value is at most the largest finite one, and only on the subnormal grid is it shorter
than `fb + 1` bits. -/
structure Fmt.Fits (f : Fmt) (m : Nat) (q : Int) : Prop where
  low : f.minExp ≤ q
  short : m < 2 ^ f.fb → q = f.minExp
  le_pow : m ≤ 2 ^ (f.fb + 1)
  high : q < f.maxExp ∨ q = f.maxExp ∧ m ≤ f.maxMant

/-- A pattern that is built from a significand that fits has its value. -/
theorem Fmt.value_pack {f : Fmt} {m : Nat} {q : Int} (s : Bool) (h : f.Fits m q) :
    ∃ n e, f.value (f.pack s m q) = .fin s n e ∧ magn n e = magn m q := by
  obtain ⟨low, short, le_pow, high⟩ := h
  obtain ⟨k, hq⟩ : ∃ k : Nat, q = f.minExp + k := ⟨(q - f.minExp).toNat, by omega⟩
  have hk : (q - f.minExp).toNat = k := by omega
  have hpow : 2 ^ (f.fb + 1) = 2 ^ f.fb * 2 ^ 1 := pow_add 2 f.fb 1
  have hmax := f.maxMant_bounds
  have below : (k + 2) * 2 ^ f.fb ≤ f.maxBits false ∨ k = f.span ∧ m ≤ f.maxMant := by
    have hspan := f.maxExp_eq
    refine high.imp (fun hlt => ?_) fun ⟨heq, hm⟩ => ⟨by omega, hm⟩
    rw [f.maxBits_eq]
    exact (Nat.mul_le_mul_right _ (by omega)).trans (Nat.le_add_right ..)
  rw [Fmt.pack, hk]
  split_ifs with subnormal normal
  · exact ⟨_, _, Fmt.value_subnormal s subnormal, by rw [short subnormal]⟩
  · have le : (k + 1) * 2 ^ f.fb + (m - 2 ^ f.fb) ≤ f.maxBits false := by
      obtain below | ⟨rfl, hm⟩ := below
      · rw [show k + 2 = k + 1 + 1 from rfl, Nat.add_one_mul] at below
        omega
      · rw [f.maxBits_eq]; omega
    refine ⟨_, _, Fmt.value_normal s (by omega) le, ?_⟩
    rw [hq, Nat.sub_add_cancel (not_lt.mp subnormal)]
  · have hm : m = 2 ^ f.fb * 2 ^ 1 := by omega
    have le : (k + 1 + 1) * 2 ^ f.fb + 0 ≤ f.maxBits false := below.resolve_right (by omega)
    refine ⟨_, _, Fmt.value_normal s (Nat.two_pow_pos _) le, ?_⟩
    rw [hm, hq, magn_pow_mul, Nat.zero_add, add_assoc]
    rfl

/-! ### Rounding to a format (R108-R112) -/

/-- Whether the significand chosen on the grid lies past the largest finite value. -/
def Fmt.past (f : Fmt) (m : Nat) (q : Int) : Bool :=
  if f.maxExp ≤ q then decide (f.maxMant < m * 2 ^ (q - f.maxExp).toNat)
  else decide (f.maxMant * 2 ^ (f.maxExp - q).toNat < m)

theorem Fmt.fits_of_not_past {f : Fmt} {m : Nat} {q : Int} (low : f.minExp ≤ q) (short : m < 2 ^ f.fb → q = f.minExp)
    (le_pow : m ≤ 2 ^ (f.fb + 1)) (h : f.past m q = false) : f.Fits m q := by
  refine ⟨low, short, le_pow, ?_⟩
  by_cases below : q < f.maxExp
  · exact .inl below
  have hle : m * 2 ^ (q - f.maxExp).toNat ≤ f.maxMant := by
    simpa [Fmt.past, not_lt.mp below] using h
  obtain ⟨k, hk⟩ : ∃ k, (q - f.maxExp).toNat = k := ⟨_, rfl⟩
  rw [hk] at hle
  obtain _ | k := k
  · exact .inr ⟨by omega, by simpa using hle⟩
  · have hspan := f.maxExp_eq
    have hshort : m < 2 ^ f.fb := by
      have := hle.trans_lt f.maxMant_bounds.2
      rw [pow_succ, pow_succ, ← mul_assoc] at this
      exact lt_of_le_of_lt (Nat.le_mul_of_pos_right _ (Nat.two_pow_pos k)) (Nat.lt_of_mul_lt_mul_right this)
    have := short hshort
    omega

/-- The flags of a rounding without overflow (Table 9-6). -/
def roundFlags (inexact tiny : Bool) : FFlags := (if inexact then fInexact else fNone) ||| (if tiny then fUnderflow else fNone)

theorem roundFlags_bits (inexact tiny : Bool) :
    (roundFlags inexact tiny).getLsbD 0 = false ∧ (roundFlags inexact tiny).getLsbD 1 = false ∧
      (roundFlags inexact tiny).getLsbD 2 = false ∧ (roundFlags inexact tiny).getLsbD 3 = tiny ∧
      (roundFlags inexact tiny).getLsbD 4 = inexact := by
  cases inexact <;> cases tiny <;> decide

theorem overflowFlags_bits :
    (fOverflow ||| fInexact).getLsbD 0 = false ∧ (fOverflow ||| fInexact).getLsbD 1 = false ∧
      (fOverflow ||| fInexact).getLsbD 2 = true ∧ (fOverflow ||| fInexact).getLsbD 3 = false ∧
      (fOverflow ||| fInexact).getLsbD 4 = true := by
  decide

/-- What rounding a nonzero value comes to: overflow, or the pattern of a significand that fits, inexact where the value lies off the
grid; underflow only for an inexact value below the normal binades. -/
theorem Fmt.round_cases (f : Fmt) (r : RMode) (s : Bool) {n : Nat} (e : Int) (hn : n ≠ 0) :
    (∃ up, f.round r s n e false = (f.overflowBits r s up, fOverflow ||| fInexact)) ∨
      f.Fits (roundAt r s n e false (f.grid n e)).1 (f.grid n e) ∧ ∃ tiny : Bool,
        (tiny = true → (roundAt r s n e false (f.grid n e)).2.2 = true ∧ f.place n e < f.minExp) ∧
        f.round r s n e false = (f.pack s (roundAt r s n e false (f.grid n e)).1 (f.grid n e),
          roundFlags (roundAt r s n e false (f.grid n e)).2.2 tiny) := by
  obtain ⟨hle, hshort⟩ := f.roundAt_grid r s e hn
  cases hpast : f.past (roundAt r s n e false (f.grid n e)).1 (f.grid n e)
  · refine .inr ⟨Fmt.fits_of_not_past (le_max_right ..) hshort hle hpast,
      (roundAt r s n e false (f.grid n e)).2.2 && decide (f.place n e < f.minExp) &&
        decide ((roundAt r s n e false (f.place n e)).1 < 2 ^ (f.minExp + f.fb - f.place n e).toNat), fun h => ?_, ?_⟩
    · simp only [Bool.and_eq_true, decide_eq_true_eq] at h
      exact h.1
    · exact if_neg (Bool.eq_false_iff.mp hpast)
  · exact .inl ⟨_, if_pos hpast⟩

theorem Fmt.overflowBits_eq (f : Fmt) (r : RMode) (s up : Bool) :
    f.overflowBits r s up = f.infBits s ∨ f.overflowBits r s up = f.maxBits s :=
  ite_eq_or_eq ..

/-- The value of a pattern that was rounded without overflow is the exact one just when it was on the grid. -/
theorem Fmt.eq_value_pack_iff {f : Fmt} {r : RMode} {s : Bool} {n : Nat} {e q : Int} (h : f.Fits (roundAt r s n e false q).1 q) :
    FVal.eq (f.value (f.pack s (roundAt r s n e false q).1 q)) (.fin s n e) = true ↔ (roundAt r s n e false q).2.2 = false := by
  obtain ⟨m, g, hval, hmagn⟩ := Fmt.value_pack s h
  rw [hval, FVal.eq_fin_iff, ratOf, ratOf, hmagn, roundAt_exact_iff]
  cases s
  · exact Iff.rfl
  · exact neg_inj

/-- A value whose place lies below the subnormal grid is smaller than the smallest normal one. -/
theorem Fmt.lt_of_place_lt {f : Fmt} {n : Nat} {e : Int} (h : f.place n e < f.minExp) :
    FVal.lt (.fin false n e) (.fin false 1 (f.minExp + f.fb)) = true := by
  rw [FVal.lt_fin_iff]
  show magn n e < magn 1 (f.minExp + f.fb)
  rw [← pow_zero 2, magn_two_pow]
  exact (f.magn_lt_place n e).trans_le (zpow_le_zpow_right₀ one_le_two (by omega))

theorem fpFinish_invalid (fmt : Fmt) (m : Mods) (r : RMode) (y : FVal) :
    fpFinish fmt m r true y = (clampF m.clamp fmt fmt.nanBits, 1) := rfl

theorem fpFinish_flags_special {y : FVal} (fmt : Fmt) (m : Mods) (r : RMode) (h : y.isNan = true ∨ y.isInf = true ∨ y.isZero = true) :
    (fpFinish fmt m r false y).2 = 0 := by
  cases y with
  | nan => rfl
  | inf s => rfl
  | fin s n e =>
    obtain _ | n := n
    · rfl
    · simp [FVal.isNan, FVal.isInf, FVal.isZero] at h

theorem fpFinish_flags_fin {n : Nat} (fmt : Fmt) (m : Mods) (r : RMode) (s : Bool) (e : Int) (hn : n ≠ 0) :
    (fpFinish fmt m r false (.fin s n e)).2 = (fmt.round r s n (e + m.scale.toInt) false).2 := by
  simp [fpFinish, FVal.scale, Fmt.ofVal, hn]

/-- The flags of the rounding of a nonzero value (R112, Table 9-6). -/
theorem Fmt.round_flags (f : Fmt) (r : RMode) (s : Bool) {n : Nat} (e : Int) (hn : n ≠ 0) : let q := f.round r s n e false
    q.2.getLsbD 0 = false ∧ q.2.getLsbD 1 = false ∧
    (q.2.getLsbD 2 = true → q.2.getLsbD 4 = true ∧ (q.1 = f.infBits s ∨ q.1 = f.maxBits s)) ∧
    (q.2.getLsbD 3 = true → q.2.getLsbD 4 = true ∧ FVal.lt (.fin false n e) (.fin false 1 (f.minExp + f.fb)) = true) ∧
    (q.2.getLsbD 2 = false → (q.2.getLsbD 4 = false ↔ FVal.eq (f.value q.1) (.fin s n e) = true)) := by
  obtain ⟨up, hround⟩ | ⟨hfits, tiny, htiny, hround⟩ := f.round_cases r s e hn
  · obtain ⟨h0, h1, h2, h3, h4⟩ := overflowFlags_bits
    rw [hround]
    refine ⟨h0, h1, fun _ => ⟨h4, f.overflowBits_eq r s up⟩, fun h => ?_, fun h => ?_⟩
    · exact absurd (h3.symm.trans h) Bool.false_ne_true
    · exact absurd (h.symm.trans h2) Bool.false_ne_true
  · obtain ⟨h0, h1, h2, h3, h4⟩ := roundFlags_bits (roundAt r s n e false (f.grid n e)).2.2 tiny
    rw [hround]
    refine ⟨h0, h1, fun h => absurd (h2.symm.trans h) Bool.false_ne_true, fun h => ?_, fun _ => ?_⟩
    · obtain ⟨hoff, hplace⟩ := htiny (h3.symm.trans h)
      exact ⟨h4.trans hoff, Fmt.lt_of_place_lt hplace⟩
    · rw [h4]
      exact (Fmt.eq_value_pack_iff hfits).symm

end Sys2Proof.Machine
end

section
/-!
SUPPORT. Columns of value positions (R106, R167): each reads back from the column that is packed from them, and what a tile instruction
that computes position by position comes to.
-/

namespace Sys2Proof.Machine

/-! ### Flags gathered over results (R113) -/

/-- A flag of results that are gathered is one of some result. -/
theorem getLsbD_foldl_or {α : Type} (l : List α) (g : α → FFlags) (z : FFlags) (b : Nat) :
    (l.foldl (fun a r => a ||| g r) z).getLsbD b = true ↔ z.getLsbD b = true ∨ ∃ r ∈ l, (g r).getLsbD b = true := by
  induction l generalizing z with
  | nil => simp
  | cons r t ih => simp [ih, or_assoc]

theorem getLsbD_gathered {α : Type} (l : List α) (g : α → FFlags) (b : Nat) :
    (l.foldl (fun a r => a ||| g r) fNone).getLsbD b = true ↔ ∃ r ∈ l, (g r).getLsbD b = true := by
  have none_set : fNone.getLsbD b = false := BitVec.getLsbD_zero
  rw [getLsbD_foldl_or, none_set]
  exact or_iff_right Bool.false_ne_true

/-! ### Value positions (R106, R167) -/

/-- The element that holds the values `g` of width `w`. -/
def packElem (w n : Nat) (g : Nat → Nat) : Nat := ((List.range n).map fun m => g m % 2 ^ w * 2 ^ (w * m)).foldl (· + ·) 0

theorem packElem_succ (w n : Nat) (g : Nat → Nat) : packElem w (n + 1) g = 2 ^ (w * n) * (g n % 2 ^ w) + packElem w n g := by
  rw [packElem, List.range_succ, List.map_append, List.foldl_append, ← packElem, Nat.add_comm, Nat.mul_comm]
  rfl

theorem packElem_lt (w n : Nat) (g : Nat → Nat) : packElem w n g < 2 ^ (w * n) := by
  induction n with
  | zero => exact Nat.one_pos
  | succ n ih =>
    have := Nat.mod_lt (g n) (Nat.two_pow_pos w)
    calc packElem w (n + 1) g < 2 ^ (w * n) * (g n % 2 ^ w + 1) := by rw [packElem_succ, Nat.mul_add_one]; omega
      _ ≤ 2 ^ (w * n) * 2 ^ w := Nat.mul_le_mul_left _ this
      _ = 2 ^ (w * (n + 1)) := by rw [← pow_add, Nat.mul_add_one]

/-- Each value of an element reads back. -/
theorem fld_packElem {w n m : Nat} (g : Nat → Nat) (h : m < n) : packElem w n g / 2 ^ (w * m) % 2 ^ w = g m % 2 ^ w := by
  induction n with
  | zero => exact absurd h (Nat.not_lt_zero m)
  | succ n ih =>
    rw [packElem_succ]
    obtain h | rfl := Nat.lt_succ_iff_lt_or_eq.mp h
    · obtain ⟨k, hk⟩ := Nat.exists_eq_add_of_le (Nat.mul_le_mul_left w (Nat.succ_le_of_lt h))
      rw [hk, Nat.mul_succ, pow_add, pow_add, mul_assoc, mul_assoc, Nat.mul_add_div (Nat.two_pow_pos _), Nat.mul_add_mod, ih h]
    · rw [Nat.mul_add_div (Nat.two_pow_pos _), Nat.div_eq_of_lt (packElem_lt w m g), Nat.add_zero, Nat.mod_mod]

theorem packCol_getD_wide (f : Nat → Nat) {r : Nat} (hr : r < 16) :
    ((packCol 64 f).getD r 0).toNat = f (r / 2) / 2 ^ (32 * (r % 2)) % 2 ^ 32 := by
  simp [packCol, hr]

theorem packCol_getD {w : Nat} (f : Nat → Nat) {r : Nat} (hw : w ≠ 64) (hr : r < 16) :
    (packCol w f).getD r 0 = BitVec.ofNat 32 (packElem w (32 / w) fun m => f (r * (32 / w) + m)) := by
  simp [packCol, packElem, hr, hw]

theorem posBits_wide (col : List Elem) (v : Nat) :
    posBits 64 col v = (col.getD (2 * v) 0).toNat + 2 ^ 32 * (col.getD (2 * v + 1) 0).toNat :=
  if_pos rfl

theorem posBits_of_ne {w : Nat} (hw : w ≠ 64) (col : List Elem) (v : Nat) :
    posBits w col v = (col.getD (v / (32 / w)) 0).toNat / 2 ^ (w * (v % (32 / w))) % 2 ^ w :=
  if_neg hw

/-- An element holds a whole number of values, but for values of two elements. -/
theorem width_cases (t : ETy) : t.width = 64 ∨
    t.width ≠ 64 ∧ 0 < 32 / t.width ∧ t.width * (32 / t.width) = 32 ∧ t.count = 16 * (32 / t.width) := by
  cases t <;> decide

/-- Every value position of a packed column reads back its pattern. -/
theorem posBits_packCol (t : ETy) (f : Nat → Nat) {v : Nat} (hv : v < t.count) :
    posBits t.width (packCol t.width f) v = f v % 2 ^ t.width := by
  obtain h64 | ⟨hw, hper, hbits, hcount⟩ := width_cases t
  · rw [ETy.count, h64] at hv
    have hv : v < 8 := hv
    have low : 2 * v % 2 = 0 := by omega
    have high : (2 * v + 1) % 2 = 1 := by omega
    have half : 2 * v / 2 = v := by omega
    have half' : (2 * v + 1) / 2 = v := by omega
    rw [h64, posBits_wide, packCol_getD_wide f (by omega), packCol_getD_wide f (by omega), low, high, half, half']
    omega
  · have hr : v / (32 / t.width) < 16 := Nat.div_lt_of_lt_mul (by rwa [Nat.mul_comm, ← hcount])
    have fits := packElem_lt t.width (32 / t.width) fun m => f (v / (32 / t.width) * (32 / t.width) + m)
    rw [hbits] at fits
    rw [posBits_of_ne hw, packCol_getD f hw hr, BitVec.toNat_ofNat, Nat.mod_eq_of_lt fits, fld_packElem _ (Nat.mod_lt v hper),
      Nat.div_add_mod']

/-! ### The value positions of a tile write -/

/-- A column of results has at every value position its pattern, and the flags of all of them. -/
theorem packRes_values (t : ETy) (g : Nat → Nat × FFlags) :
    (∀ v, v < t.count → posBits t.width (packRes t.width ((List.range t.count).map g)).1 v = (g v).1 % 2 ^ t.width) ∧
      ∀ b, (packRes t.width ((List.range t.count).map g)).2.getLsbD b = true ↔ ∃ v, v < t.count ∧ (g v).2.getLsbD b = true := by
  refine ⟨fun v hv => ?_, fun b => ?_⟩
  · rw [packRes, posBits_packCol t _ hv]
    simp [hv]
  · simp [packRes, getLsbD_gathered]

theorem valued_of_packRes {s t : State} {l : Nat} {d : BitVec 5} {src : Option (BitVec 5)} {pred : BitVec 3} {mode : Rnd} {ty : ETy}
    {val : BitVec 32 → Nat → Nat → Nat → Nat × FFlags}
    (h : tileOp l d pred mode src (fun sr i j => packRes ty.width ((List.range ty.count).map (val sr i j))) s = .done t) :
    Claim.valued s t l d src pred mode ty val :=
  ⟨_, h, fun sr i j => packRes_values ty (val sr i j)⟩

/-- A tile write of a destination that is not locked is done. -/
theorem tileOp_done {s : State} {d : BitVec 5} (h : s.myCore.locked d.toNat = false) (l : Nat) (pred : BitVec 3) (mode : Rnd)
    (src : Option (BitVec 5)) (f : BitVec 32 → Nat → Nat → List Elem × FFlags) : ∃ t, tileOp l d pred mode src f s = .done t := by
  obtain ⟨hl, -⟩ | ⟨-, ht⟩ := tileOp_cases l d pred mode src f s
  · exact absurd (h.symm.trans hl) Bool.false_ne_true
  · exact ht

section
variable {s : State} {i : Instr} {body : State → Res} {d a : BitVec 5} {m : Mods} {cb cc : Nat → List Elem}
  (hi : s.issues i) (hexec : exec i s = s.issue i body) (hlock : s.myCore.locked d.toNat = false)
include hi hexec hlock

/-- An instruction whose body is a tile write computed position by position. -/
theorem values_of_body {l : Nat} {mode : Rnd} {val : BitVec 32 → Nat → Nat → Nat → Nat × FFlags}
    (hbody : body s.fresh = tileOp l d m.pred mode (some a)
      (fun sr i j => packRes m.ety.width ((List.range m.ety.count).map (val sr i j))) s.fresh) :
    ∃ t, Claim.valued s.fresh t l d (some a) m.pred mode m.ety val ∧ exec i s = .next t.inSequence := by
  obtain ⟨t, ht⟩ := tileOp_done (s := s.fresh) hlock l m.pred mode (some a)
    fun sr i j => packRes m.ety.width ((List.range m.ety.count).map (val sr i j))
  exact ⟨t, valued_of_packRes ht, hexec.trans (State.issue_done hi (hbody.trans ht))⟩

theorem floatTile_of_body {f : FpFn} (hbody : body s.fresh = fpBody f d a m cb cc s.fresh) : Claim.floatTile s i f d a m cb cc :=
  values_of_body hi hexec hlock hbody

theorem intTile_of_body {f : IntFn} (hbody : body s.fresh = intBody f d a m cb s.fresh) : Claim.intTile s i f d a m cb :=
  values_of_body hi hexec hlock hbody

theorem logicTile_of_body {f : LogFn} (hbody : body s.fresh = logBody f d a m cb s.fresh) : Claim.logicTile s i f d a m cb := by
  cases f <;> exact values_of_body hi hexec hlock hbody

end

end Sys2Proof.Machine
end

section
/-!
Tile arithmetic (R112, R168, R170, R172-R174): O31.
-/

namespace Sys2Proof.Machine

theorem floatFlags : Claim.FloatFlags :=
  ⟨fun fmt m r y => ⟨fpFinish_invalid fmt m r y, fpFinish_flags_special fmt m r⟩,
    fun fmt m r s _ e hn => fpFinish_flags_fin fmt m r s e hn, fun fmt r s _ e hn => fmt.round_flags r s e hn⟩

theorem tileFloat : Claim.TileFloat := by
  refine ⟨?reg, ?lit, fun o s hi _ hl => floatTile_of_body hi rfl hl rfl, fun o s hi _ hl => floatTile_of_body hi rfl hl rfl⟩
  case reg | lit =>
    simp only [List.forall_mem_cons]
    refine ⟨?_, ?_, ?_, ?_, ?_, nofun⟩ <;> exact fun o s hi _ hl => floatTile_of_body hi rfl hl rfl

theorem tileInteger : Claim.TileInteger := by
  refine ⟨?arith, ?arithLit, ?logic, ?logicLit⟩ <;> simp only [List.forall_mem_cons]
  case arith | arithLit =>
    refine ⟨?_, ?_, ?_, nofun⟩ <;> exact fun o s hi _ hl => intTile_of_body hi rfl hl rfl
  case logic | logicLit =>
    refine ⟨?_, ?_, ?_, ?_, ?_, ?_, nofun⟩ <;> exact fun o s hi _ hl => logicTile_of_body hi rfl hl rfl

/-- Settles O31: every float, integer and logic instruction is a tile write computed position by position, and the flags are those of its
rounding. -/
theorem tileArithmetic : Obligations.TileArithmetic := ⟨tileFloat, tileInteger, floatFlags⟩

end Sys2Proof.Machine
end

section
/-!
SUPPORT. Distribution instructions (R277-R284): the result of a point, the elements of a pointwise combination, and what an instruction
whose body is a distribution write comes to.
-/

namespace Sys2Proof.Machine

/-! ### The result of a point (R112, R277) -/

/-- The result of a valid operation is the rounded value: a NaN gives the canonical one and no flag. -/
theorem pointResult_valid (v : FVal) : pointResult (v, false) = r32 v := by
  cases v <;> rfl

theorem pointResult_nan {x y : FVal} (o : DOp) (h : x = .nan ∨ y = .nan) : pointResult (o.eval x y) = (nan32, 0) := by
  obtain rfl | rfl := h
  · rfl
  · cases x <;> rfl

theorem pointResult_add {x y : FVal} (h : ∀ s, ¬(x = .inf s ∧ y = .inf !s)) :
    pointResult (DOp.eval .add x y) = r32 (x.add false y) := by
  cases x with
  | nan => rfl
  | fin s m e => cases y <;> exact pointResult_valid _
  | inf s =>
    cases y with
    | nan => rfl
    | fin t n g => exact pointResult_valid _
    | inf t =>
      obtain rfl : t = s := by_contra fun ne => h s ⟨rfl, congrArg FVal.inf (Bool.eq_not.mpr ne)⟩
      cases t <;> rfl

theorem pointResult_sub {x y : FVal} (h : ∀ s, ¬(x = .inf s ∧ y = .inf s)) :
    pointResult (DOp.eval .sub x y) = r32 (x.add false y.neg) := by
  cases x with
  | nan => rfl
  | fin s m e => cases y <;> exact pointResult_valid _
  | inf s =>
    cases y with
    | nan => rfl
    | fin t n g => exact pointResult_valid _
    | inf t =>
      obtain rfl : t = !s := Bool.eq_not.mpr fun eq => h s ⟨rfl, congrArg FVal.inf eq⟩
      cases s <;> rfl

theorem pointResult_mul {x y : FVal} (h : ∀ s t e, ¬(x = .inf s ∧ y = .fin t 0 e) ∧ ¬(x = .fin t 0 e ∧ y = .inf s)) :
    pointResult (DOp.eval .mul x y) = r32 (x.mul y) := by
  cases x with
  | nan => rfl
  | fin s m e =>
    cases y with
    | nan => rfl
    | fin t n g => cases m <;> exact pointResult_valid _
    | inf t =>
      cases m with
      | zero => exact absurd ⟨rfl, rfl⟩ (h t s e).2
      | succ m => exact pointResult_valid _
  | inf s =>
    cases y with
    | nan => rfl
    | inf t => exact pointResult_valid _
    | fin t n g =>
      cases n with
      | zero => exact absurd ⟨rfl, rfl⟩ (h s t g).1
      | succ n => exact pointResult_valid _

theorem pointResult_max (x y : FVal) : pointResult (DOp.eval .max x y) = r32 (x.maxz y) := by
  cases x with
  | nan => rfl
  | inf s => cases y <;> exact pointResult_valid _
  | fin s m e => cases y <;> exact pointResult_valid _

/-! ### Elements of a pointwise combination -/

theorem Core.pointPairs_getD (k : Core) (o : DOp) (pw : Bool) (ta tb : BitVec 16) (a b j : Nat) {q : Nat} (hq : q < 8) :
    (pointPairs o pw ta tb (k.element a j) (k.element b j)).1.getD q (0, 0) =
      ((pointResult (o.eval (f32 (k.point a j q).1) (f32 (k.point b j q).1))).1,
        if pw = false ∧ ta = 0 ∧ tb ≠ 0 then (k.point b j q).2 else (k.point a j q).2) := by
  have weight : (decide (ta = 0) && decide (tb ≠ 0) && !pw) = true ↔ pw = false ∧ ta = 0 ∧ tb ≠ 0 := by
    simp [and_comm]
  simp only [pointPairs, Core.element, List.zip_map', List.map_map, weight]
  simp [hq]

theorem Core.pointPairs_flags (k : Core) (o : DOp) (pw : Bool) (ta tb : BitVec 16) (a b j c : Nat) :
    (pointPairs o pw ta tb (k.element a j) (k.element b j)).2.getLsbD c = true ↔
      ∃ i, i < 8 ∧ (pointResult (o.eval (f32 (k.point a j i).1) (f32 (k.point b j i).1))).2.getLsbD c = true := by
  simp [pointPairs, Core.element, List.zip_map', getLsbD_gathered]

/-! ### Distribution writes -/

section
variable {s : State} {i : Instr} {body : State → Res} (hi : s.issues i) (hexec : exec i s = s.issue i body)
include hi hexec

/-- An instruction whose body is a distribution write completes with it: such a write never waits. -/
theorem distTile_of_body {l : Nat} {d : BitVec 4} {tag : TagOf} {pred : BitVec 3} {f : Nat → List Point × FFlags}
    (hbody : body s.fresh = distOp l d tag pred f s.fresh) : Claim.distTile s i l d tag pred f :=
  ⟨_, rfl, hexec.trans (State.issue_done hi hbody)⟩

theorem pointTile_of_body {d a : BitVec 4} {pred : BitVec 3} {g : Nat → BitVec 32 → BitVec 32 × FFlags}
    (hbody : body s.fresh = dunBody d a pred g s.fresh) : Claim.pointTile s i d a pred g := by
  refine ⟨_, distTile_of_body hi hexec hbody, fun j => ⟨?_, fun b => ?_⟩⟩
  · exact List.map_map
  · rw [getLsbD_gathered]
    simp only [List.mem_map, exists_exists_and_eq_and]
    rfl

end

theorem pointwise_iff {pw : Bool} {ta tb : BitVec 16} : pointwise pw ta tb = true ↔ pw = true ∨ ta = tb ∨ ta = 0 ∨ tb = 0 := by
  simp only [pointwise, Bool.or_eq_true, decide_eq_true_iff, or_assoc]

theorem dbinBody_pointwise {o : DBin} {s : State} (op : DOp)
    (h : pointwise o.pw (s.myCore.tag o.a.toNat) (s.myCore.tag o.b.toNat) = true) :
    dbinBody op o s = distOp (if o.pw then 6 else 48) o.d
      (.is (if s.myCore.tag o.a.toNat = 0 then s.myCore.tag o.b.toNat else s.myCore.tag o.a.toNat)) o.pred
      (fun j => pointPairs op o.pw (s.myCore.tag o.a.toNat) (s.myCore.tag o.b.toNat) (s.myCore.element o.a.toNat j)
        (s.myCore.element o.b.toNat j)) s := by
  have tag : (if s.myCore.tag o.a.toNat ≠ 0 then s.myCore.tag o.a.toNat else s.myCore.tag o.b.toNat) =
      if s.myCore.tag o.a.toNat = 0 then s.myCore.tag o.b.toNat else s.myCore.tag o.a.toNat := ite_not ..
  rw [← tag]
  exact if_pos h

theorem dbinBody_allPairs {o : DBin} {s : State} (op : DOp)
    (h : ¬pointwise o.pw (s.myCore.tag o.a.toNat) (s.myCore.tag o.b.toNat) = true) :
    dbinBody op o s = distOp 48 o.d .fresh o.pred
      (fun j => allPairs op (s.myCore.element o.a.toNat j) (s.myCore.element o.b.toNat j)) s :=
  if_neg h

theorem reluBits_eq (v : BitVec 32) :
    reluBits v = if (f32 v).isNan then nan32 else if (f32 v).sign ∨ (f32 v).isZero then 0 else v := by
  simp only [reluBits, Bool.or_eq_true]

end Sys2Proof.Machine
end

section
/-!
Distribution instructions on registers (R277-R284): O38.
-/

namespace Sys2Proof.Machine

theorem pointFlags : Claim.PointFlags := by
  refine ⟨fun o x y => pointResult_nan o, fun s => ?infs, fun s t e => ⟨rfl, ?zeroInf⟩, fun x y _ _ => ?valid⟩
  case infs => cases s <;> exact ⟨rfl, rfl⟩
  case zeroInf => rfl
  case valid => exact ⟨pointResult_add, pointResult_sub, pointResult_mul, pointResult_max x y⟩

theorem distributionBinary : Claim.DistributionBinary := by
  intro p hp o s hi
  obtain ⟨body, hexec, hbody⟩ : ∃ body, exec (p.1 o) s = s.issue (p.1 o) body ∧ body s.fresh = dbinBody p.2 o s.fresh := by
    revert p
    simp only [List.forall_mem_cons]
    refine ⟨?_, ?_, ?_, ?_, nofun⟩ <;> exact fun _ => ⟨_, rfl, rfl⟩
  refine ⟨fun h => ⟨_, distTile_of_body hi hexec (hbody.trans (dbinBody_pointwise (s := s.fresh) p.2 (pointwise_iff.mpr h))),
    fun j q hq => ⟨?point, fun b => ?flags⟩⟩, fun hpw hne ha hb => ?pairs⟩
  case point => exact s.myCore.pointPairs_getD p.2 o.pw _ _ o.a.toNat o.b.toNat j hq
  case flags => exact s.myCore.pointPairs_flags p.2 o.pw _ _ o.a.toNat o.b.toNat j b
  case pairs =>
    have apart : ¬pointwise o.pw (s.myCore.tag o.a.toNat) (s.myCore.tag o.b.toNat) = true := by
      rw [pointwise_iff, hpw]
      rintro (h | h | h | h)
      exacts [Bool.false_ne_true h, hne h, ha h, hb h]
    exact distTile_of_body hi hexec (hbody.trans (dbinBody_allPairs (s := s.fresh) p.2 apart))

theorem distributionUnary : Claim.DistributionUnary := by
  refine ⟨?dcond, ?dmix, ?dscl, ?dshf, ?drelu, ?dapp, ?dtag, ?dtagPm, ?tagnext, ?dmkp, ?dmku, ?dmkq⟩ <;> intro o s hi
  case drelu =>
    refine pointTile_of_body hi rfl ?_
    simp only [← reluBits_eq]
    rfl
  case dscl | dshf | dapp => exact pointTile_of_body hi rfl rfl
  case dcond | dmix | dtag | dtagPm | tagnext | dmkp | dmku | dmkq => exact distTile_of_body hi rfl rfl

/-- Settles O38: the binary instructions by whether they work point by point, the results of points by the kinds of their operands, and
every other instruction by the distribution write that its body is. -/
theorem distributionArithmetic : Obligations.DistributionArithmetic := ⟨distributionBinary, pointFlags, distributionUnary⟩

end Sys2Proof.Machine
end

section
/-!
The scalar ALU family: results of the register, immediate and literal forms, and words of the 32-bit formats (R127-R129, R136): O12.
-/

namespace Sys2Proof.Machine

/-- An instruction whose body is a result for X[rd] writes that value and completes in sequence. -/
theorem State.issue_toX {s : State} {i : Instr} {body : State → Res} {l : Nat} {rd : BitVec 5} {v w : Word} (h : s.issues i)
    (hb : body s.fresh = toX l rd v s.fresh) (hv : v = w) : s.issue i body = .next (s.fresh.resultX l rd w).inSequence := by
  subst hv
  exact State.issue_done h hb

theorem immZ_eq (i : BitVec 12) : immZ i = BitVec.ofNat 64 i.toNat := BitVec.eq_of_toNat_eq (by simp [immZ])

theorem immU6_eq (i : BitVec 6) : immU6 i = BitVec.ofNat 64 i.toNat := BitVec.eq_of_toNat_eq (by simp [immU6])

/-- CLZ counts the zeros above the highest one of a word (Table 11-1). -/
theorem w64_clzN_spec (a : Word) :
    (w64 (clzN 64 a.toNat)).toNat ≤ 64 ∧ a.toNat < 2 ^ (64 - (w64 (clzN 64 a.toNat)).toNat) ∧
      ((w64 (clzN 64 a.toNat)).toNat < 64 → 2 ^ (63 - (w64 (clzN 64 a.toNat)).toNat) ≤ a.toNat) := by
  have hspec := clzN_spec 64 a.toNat a.isLt
  have hval : (w64 (clzN 64 a.toNat)).toNat = clzN 64 a.toNat :=
    (BitVec.toNat_ofNat _ _).trans (Nat.mod_eq_of_lt (by omega))
  rw [hval]
  exact hspec

theorem aluRegisterForms : Claim.AluRegisterForms := by
  refine ⟨?_, fun o s h => State.issue_toX h rfl ?_, fun o s h => ⟨_, State.issue_toX h rfl rfl, w64_clzN_spec _⟩,
    fun o s h => State.issue_toX h rfl (congrArg _ (popN_eq 64 _))⟩
  · simp only [Claim.regTable, List.forall_mem_cons]
    exact ⟨fun _ _ h => State.issue_toX h rfl (aluAdd_eq _ _), fun _ _ h => State.issue_toX h rfl (aluSub_eq _ _),
      fun _ _ h => State.issue_toX h rfl (aluAnd_eq _ _), fun _ _ h => State.issue_toX h rfl (aluOr_eq _ _),
      fun _ _ h => State.issue_toX h rfl (aluXor_eq _ _), fun _ _ h => State.issue_toX h rfl (aluShl_eq _ _),
      fun _ _ h => State.issue_toX h rfl (aluShr_eq _ _), fun _ _ h => State.issue_toX h rfl (aluSar_eq _ _),
      fun _ _ h => State.issue_toX h rfl (aluMin_eq _ _), fun _ _ h => State.issue_toX h rfl (aluMax_eq _ _),
      fun _ _ h => State.issue_toX h rfl (aluMinu_eq _ _), fun _ _ h => State.issue_toX h rfl (aluMaxu_eq _ _),
      fun _ _ h => State.issue_toX h rfl (aluSeq_eq _ _), fun _ _ h => State.issue_toX h rfl (aluSne_eq _ _),
      fun _ _ h => State.issue_toX h rfl (aluSlt_eq _ _), fun _ _ h => State.issue_toX h rfl (aluSltu_eq _ _),
      fun _ _ h => State.issue_toX h rfl (aluSge_eq _ _), fun _ _ h => State.issue_toX h rfl (aluSgeu_eq _ _),
      fun _ _ h => State.issue_toX h rfl (aluMul_eq _ _), fun _ _ h => State.issue_toX h rfl rfl,
      fun _ _ h => State.issue_toX h rfl rfl, fun _ _ h => State.issue_toX h rfl (aluDiv_eq _ _),
      fun _ _ h => State.issue_toX h rfl (aluDivu_eq _ _), fun _ _ h => State.issue_toX h rfl (aluRem_eq _ _),
      fun _ _ h => State.issue_toX h rfl (aluRemu_eq _ _), fun _ _ h => State.issue_toX h rfl (aluLeaX1_eq _ _),
      fun _ _ h => State.issue_toX h rfl (aluLeaX2_eq _ _), fun _ _ h => State.issue_toX h rfl (aluLeaX4_eq _ _),
      fun _ _ h => State.issue_toX h rfl (aluLeaX8_eq _ _), List.forall_mem_nil _⟩
  · exact ite_not _ _ _

theorem aluImmediateForms : Claim.AluImmediateForms := by
  refine ⟨?_, ?_, ?_, ?_, fun o s h => State.issue_toX h rfl rfl⟩
  · simp only [Claim.immTable, List.forall_mem_cons]
    exact ⟨fun _ _ h => State.issue_toX h rfl (aluAdd_eq _ _), fun _ _ h => State.issue_toX h rfl (aluSub_eq _ _),
      fun _ _ h => State.issue_toX h rfl (aluMul_eq _ _), fun _ _ h => State.issue_toX h rfl (aluDiv_eq _ _),
      fun _ _ h => State.issue_toX h rfl (aluRem_eq _ _), fun _ _ h => State.issue_toX h rfl (aluSlt_eq _ _),
      fun _ _ h => State.issue_toX h rfl (aluSltu_eq _ _), fun _ _ h => State.issue_toX h rfl (aluSeq_eq _ _),
      fun _ _ h => State.issue_toX h rfl (aluMin_eq _ _), fun _ _ h => State.issue_toX h rfl (aluMax_eq _ _),
      List.forall_mem_nil _⟩
  · simp only [Claim.immuTable, List.forall_mem_cons, ← immZ_eq]
    exact ⟨fun _ _ h => State.issue_toX h rfl (aluAnd_eq _ _), fun _ _ h => State.issue_toX h rfl (aluOr_eq _ _),
      fun _ _ h => State.issue_toX h rfl (aluXor_eq _ _), List.forall_mem_nil _⟩
  · simp only [Claim.shiftTable, List.forall_mem_cons, ← immU6_eq]
    exact ⟨fun _ _ h => State.issue_toX h rfl (aluShl_eq _ _), fun _ _ h => State.issue_toX h rfl (aluShr_eq _ _),
      fun _ _ h => State.issue_toX h rfl (aluSar_eq _ _), List.forall_mem_nil _⟩
  · simp only [Claim.litTable, List.forall_mem_cons]
    exact ⟨fun _ _ h => State.issue_toX h rfl (aluAdd_eq _ _), fun _ _ h => State.issue_toX h rfl (aluSub_eq _ _),
      fun _ _ h => State.issue_toX h rfl (aluAnd_eq _ _), fun _ _ h => State.issue_toX h rfl (aluOr_eq _ _),
      fun _ _ h => State.issue_toX h rfl (aluXor_eq _ _), fun _ _ h => State.issue_toX h rfl (aluShl_eq _ _),
      fun _ _ h => State.issue_toX h rfl (aluShr_eq _ _), fun _ _ h => State.issue_toX h rfl (aluSar_eq _ _),
      fun _ _ h => State.issue_toX h rfl (aluMin_eq _ _), fun _ _ h => State.issue_toX h rfl (aluMax_eq _ _),
      fun _ _ h => State.issue_toX h rfl (aluMinu_eq _ _), fun _ _ h => State.issue_toX h rfl (aluMaxu_eq _ _),
      fun _ _ h => State.issue_toX h rfl (aluSeq_eq _ _), fun _ _ h => State.issue_toX h rfl (aluSne_eq _ _),
      fun _ _ h => State.issue_toX h rfl (aluSlt_eq _ _), fun _ _ h => State.issue_toX h rfl (aluSltu_eq _ _),
      fun _ _ h => State.issue_toX h rfl (aluSge_eq _ _), fun _ _ h => State.issue_toX h rfl (aluSgeu_eq _ _),
      fun _ _ h => State.issue_toX h rfl (aluMul_eq _ _), fun _ _ h => State.issue_toX h rfl rfl,
      fun _ _ h => State.issue_toX h rfl rfl, fun _ _ h => State.issue_toX h rfl (aluDiv_eq _ _),
      fun _ _ h => State.issue_toX h rfl (aluDivu_eq _ _), fun _ _ h => State.issue_toX h rfl (aluRem_eq _ _),
      fun _ _ h => State.issue_toX h rfl (aluRemu_eq _ _), List.forall_mem_nil _⟩

/-- A word that is the encoding of an instruction with sync bit 0 decodes to it. -/
theorem decode_word {w : Nat} {i : Instr} (hi : Claim.encodable false 0 i) (hw : encode false 0 i = w) : decode w = .ok i :=
  hw ▸ decode_encode hi

/-- The word of a format with a 12-bit field, two 5-bit fields and a major opcode (Table 7-1). -/
theorem cat_major {maj : Nat} (hmaj : maj < 128) (a b : BitVec 5) (i : BitVec 12) :
    cat ([(12, i.toNat), (5, b.toNat), (5, a.toNat)] ++ encHead maj false 0) =
      maj * 2 ^ 22 + a.toNat * 2 ^ 17 + b.toNat * 2 ^ 12 + i.toNat := by
  have := a.isLt
  have := b.isLt
  have := i.isLt
  simp only [cat, encHead, List.cons_append, List.nil_append, Bool.toNat_false]
  omega

/-- An immediate form decodes from its major opcode, its registers and its immediate. -/
theorem decode_imm {maj : Nat} {mk : Imm → Instr} {o : Imm} (hmaj : maj < 128) (hi : Claim.encodable false 0 (mk o))
    (he : encFields false 0 (mk o) = encImm maj false o) :
    decode (maj * 2 ^ 22 + o.rd.toNat * 2 ^ 17 + o.ra.toNat * 2 ^ 12 + o.imm.toNat) = .ok (mk o) :=
  decode_word hi (by rw [encode, he, encImm, cat_major hmaj])

/-- The fields of a word of a major opcode: its length, the opcode, and the bits between the amount and the registers. -/
theorem fld_shift_word {maj rd ra up sh v : Nat} (hmaj : maj < 128) (hrd : rd < 32) (hra : ra < 32) (hup : up < 64) (hsh : sh < 64)
    (hv : v = maj * 2 ^ 22 + rd * 2 ^ 17 + ra * 2 ^ 12 + up * 2 ^ 6 + sh) :
    fld v 30 2 = 0 ∧ fld v 22 7 = maj ∧ fld v 6 6 = up := by
  simp only [fld]
  omega

/-- A word with a reserved bit set in a format that reserves bits [11:6] is refused (Table 7-12, row 5). -/
theorem decode_shift_reserved {v : Nat} {i : Instr} (hlen : fld v 30 2 = 0) (hres : fld v 6 6 ≠ 0)
    (hd : dec32 v = chk v [(6, 6)] i) : decode v = .error .illfld := by
  have hz : zeros v [(6, 6)] = false := by simp only [zeros, List.all_cons, decide_eq_false hres, Bool.false_and]
  have hm : dec32 v = .error .illfld := hd.trans (if_neg (by simp [hz]))
  simp only [decode, hlen, hm]

/-- A shift decodes from its major opcode, its registers and its amount; the upper bits of the immediate are reserved. -/
theorem decode_shift {maj : Nat} {mk : ShImm → Instr} (hmaj : maj < 128) (hi : ∀ o, Claim.encodable false 0 (mk o))
    (he : ∀ o, encFields false 0 (mk o) = encShImm maj false o)
    (hd : ∀ v, fld v 22 7 = maj → dec32 v = chk v [(6, 6)] (mk (decShImm v))) (rd ra : BitVec 5) (sh up : BitVec 6) :
    decode (maj * 2 ^ 22 + rd.toNat * 2 ^ 17 + ra.toNat * 2 ^ 12 + up.toNat * 2 ^ 6 + sh.toNat) =
      if up = 0 then .ok (mk { rd := rd, ra := ra, sh := sh }) else .error .illfld := by
  split
  next h0 =>
    have hup : up.toNat = 0 := congrArg BitVec.toNat h0
    refine decode_word (hi _) ?_
    have := rd.isLt
    have := ra.isLt
    have := sh.isLt
    simp only [encode, he, encShImm, cat, encHead, List.cons_append, List.nil_append, Bool.toNat_false, hup]
    omega
  next h0 =>
    have hne : up.toNat ≠ 0 := fun h => h0 (BitVec.eq_of_toNat_eq h)
    obtain ⟨hlen, hmj, hres⟩ := fld_shift_word hmaj rd.isLt ra.isLt up.isLt sh.isLt rfl
    exact decode_shift_reserved hlen (fun h => hne (hres.symm.trans h)) (hd _ hmj)

theorem immediateWords : Claim.ImmediateWords := by
  constructor
  · simp only [List.forall_mem_cons]
    refine ⟨?_, ?_, ?_, ?_, ?_, ?_, ?_, ?_, ?_, ?_, ?_, ?_, ?_, List.forall_mem_nil _⟩
    all_goals exact fun _ => decode_imm (by decide) ⟨Nat.one_pos, rfl, nofun, trivial⟩ rfl
  · simp only [List.forall_mem_cons]
    refine ⟨?_, ?_, ?_, List.forall_mem_nil _⟩
    all_goals exact decode_shift (by decide) (fun _ => ⟨Nat.one_pos, rfl, nofun, trivial⟩) (fun _ => rfl) fun v h => by rw [dec32, h]; rfl

/-- Settles O12: the register, immediate and literal forms by Table 11-1, the words by the encoder. -/
theorem scalarArithmetic : Obligations.ScalarArithmetic := ⟨aluRegisterForms, aluImmediateForms, immediateWords⟩

end Sys2Proof.Machine
end

section
/-!
Software traps, return from a trap, branches, jumps and loop instructions (R136-R138, R157, R158): O26, O27, O20.
-/

namespace Sys2Proof.Machine

/-! ### Traps -/

/-- An instruction whose body traps behind it completes in sequence and then takes the trap at the next PC. -/
theorem State.issue_trapAfter {s t : State} {i : Instr} {body : State → Res} {cause : Nat} {info : Word} (h : s.issues i)
    (hb : body s.fresh = .trapAfter t cause info) : s.issue i body = .next (t.inSequence.trap cause info) := by
  rw [State.issue_of_issues body h, hb]
  rfl

/-- A trap of an instruction that issues alone is recorded without its sync bit. -/
theorem State.trap_eq {s : State} (h : s.irSync = false) (cause : Nat) (info : Word) :
    s.trap cause info = s.trapAt s.curCore s.curCl cause info s.me.pc false false := by
  rw [State.trap, h]

/-- Settles O26, from what a body that traps, or that traps behind itself, comes to. -/
theorem softwareTraps : Obligations.SoftwareTraps := by
  refine ⟨fun s h => ?_, fun s h => ?_⟩
  · have hsync : s.fresh.inSequence.irSync = false := by
      rw [State.irSync, State.inSequence, State.advance_ir, State.markIssued_ir]
      exact h.2.2
    refine (State.issue_trapAfter h rfl).trans ?_
    rw [State.trap_eq hsync, State.inSequence, State.advance_curCore, State.advance_curCl, State.markIssued_curCore,
      State.markIssued_curCl]
    rfl
  · rw [← State.trap_eq h.2.2]
    exact State.issue_trap h rfl

/-! ### Return from a trap -/

/-- A word with a bit set in reserved fields of its format is refused (Table 7-12, row 5). -/
theorem decode_reserved {v lo n : Nat} {i : Instr} (hlen : fld v 30 2 = 0) (hres : fld v lo n ≠ 0)
    (hd : dec32 v = chk v [(lo, n)] i) : decode v = .error .illfld := by
  have hz : zeros v [(lo, n)] = false := by simp only [zeros, List.all_cons, decide_eq_false hres, Bool.false_and]
  have hm : dec32 v = .error .illfld := hd.trans (if_neg (by simp [hz]))
  simp only [decode, hlen, hm]

theorem decode_tret (f : BitVec 22) : decode (0x67 * 2 ^ 22 + f.toNat) = if f = 0 then .ok .tret else .error .illfld := by
  have hf := f.isLt
  split
  next h0 =>
    refine decode_word ⟨Nat.one_pos, rfl, nofun, trivial⟩ ?_
    rw [h0]
    rfl
  next h0 =>
    have hne : f.toNat ≠ 0 := fun h => h0 (BitVec.eq_of_toNat_eq h)
    obtain ⟨hlen, hmaj, hres⟩ : fld (0x67 * 2 ^ 22 + f.toNat) 30 2 = 0 ∧ fld (0x67 * 2 ^ 22 + f.toNat) 22 7 = 0x67 ∧
        fld (0x67 * 2 ^ 22 + f.toNat) 0 22 = f.toNat := by simp only [fld]; omega
    exact decode_reserved hlen (hres ▸ hne) (by rw [dec32, hmaj]; rfl)

/-- Bits of a word but for bit 1. -/
theorem getLsbD_clear_one (w : Word) {b : Nat} (h : b ≠ 1) : (w &&& ~~~(2 : Word)).getLsbD b = w.getLsbD b := by
  have h2 : (2 : Word).getLsbD b = false := by
    rw [show (2 : Word) = BitVec.twoPow 64 1 from rfl, BitVec.getLsbD_twoPow]
    simp [Ne.symm h]
  rw [BitVec.getLsbD_and, BitVec.getLsbD_not, h2, Bool.not_false, Bool.and_true]
  by_cases hb : b < 64
  · rw [decide_eq_true hb, Bool.and_true]
  · rw [BitVec.getLsbD_of_ge w b (Nat.le_of_not_lt hb), Bool.false_and]

/-- Settles O27, from the decoder's row, the mode check of the issue, and `Cluster.leaveTrap`. -/
theorem trapReturn : Obligations.TrapReturn := by
  refine ⟨decode_tret, fun s hs => State.issue_priv _ rfl hs, fun s h => ⟨fun hal => State.issue_trap h (if_pos hal), fun hal => ?_⟩⟩
  have hme : (s.fresh.markIssued.modMe Cluster.leaveTrap).me = s.fresh.markIssued.me.leaveTrap := State.me_modMe _ _
  refine ⟨_, State.issue_ends h (if_neg (not_not_intro hal)), ?_⟩
  rw [hme, State.me_markIssued]
  refine ⟨rfl, rfl, ?_, fun b hb => getLsbD_clear_one _ hb, rfl, rfl, rfl, rfl, rfl, rfl⟩
  simp [Cluster.nested, Cluster.leaveTrap]

/-! ### Branches and jumps -/

/-- A branch target is PC plus the signed offset in words (R136). -/
theorem State.branchTarget_eq (s : State) {n : Nat} (off : BitVec n) :
    s.branchTarget off = BitVec.ofInt 64 (s.me.pc.toNat + 4 * off.toInt) := by
  rw [BitVec.ofInt_add, BitVec.ofInt_natCast, BitVec.ofNat_toNat, BitVec.setWidth_eq, BitVec.ofInt_mul]
  rfl

theorem State.issue_branch {s : State} {i : Instr} {body : State → Res} {c d : Bool} {off : BitVec 12} (h : s.issues i)
    (hb : body s.fresh = branch c off s.fresh) (hc : c = d) :
    s.issue i body = .next (if d then s.fresh.jumpTo (BitVec.ofInt 64 (s.me.pc.toNat + 4 * off.toInt)) else s.fresh.inSequence) := by
  subst hc
  cases c with
  | true => exact (State.issue_goto h hb).trans (by rw [State.branchTarget_eq]; rfl)
  | false => exact State.issue_done h hb

/-- The condition of BGE: not below, as signed numbers. -/
theorem not_slt_eq (a b : Word) : (!a.slt b) = decide (b.toInt ≤ a.toInt) := by
  rw [BitVec.slt, ← decide_not, decide_eq_decide, not_lt]

/-- The condition of BGEU: not below, as unsigned numbers. -/
theorem not_lt_eq (a b : Word) : (!decide (a < b)) = decide (b.toNat ≤ a.toNat) := by
  rw [← decide_not, decide_eq_decide, BitVec.not_lt, BitVec.le_def]

/-- The target of JR is X[ra] plus the signed immediate (R137). -/
theorem add_immS_eq (a : Word) (i : BitVec 12) : a + immS i = BitVec.ofInt 64 (a.toNat + i.toInt) := by
  rw [BitVec.ofInt_add, BitVec.ofInt_natCast, BitVec.ofNat_toNat, BitVec.setWidth_eq]
  rfl

theorem branchesAndJumps : Claim.BranchesAndJumps := by
  refine ⟨?_, fun o s h => ?_, fun o s h => ?_, fun o s h => ?_⟩
  · simp only [Claim.branchTable, List.forall_mem_cons]
    exact ⟨fun _ _ h => State.issue_branch h rfl rfl, fun _ _ h => State.issue_branch h rfl rfl,
      fun _ _ h => State.issue_branch h rfl rfl, fun _ _ h => State.issue_branch h rfl (not_slt_eq _ _),
      fun _ _ h => State.issue_branch h rfl rfl, fun _ _ h => State.issue_branch h rfl (not_lt_eq _ _), List.forall_mem_nil _⟩
  · exact (State.issue_goto h rfl).trans (by rw [State.branchTarget_eq]; rfl)
  · exact (State.issue_goto h rfl).trans (by rw [State.branchTarget_eq]; rfl)
  · simp only [← add_immS_eq]
    split
    next hal => exact State.issue_goto h (if_neg (not_not_intro hal))
    next hal => exact State.issue_trap h (if_pos hal)

theorem branchWords : Claim.BranchWords := by
  unfold Claim.BranchWords
  simp only [List.forall_mem_cons]
  refine ⟨?_, ?_, ?_, ?_, ?_, ?_, List.forall_mem_nil _⟩
  all_goals exact fun o => decode_word ⟨Nat.one_pos, rfl, nofun, trivial⟩ (cat_major (by decide) o.ra o.rb o.off)

/-! ### Loops -/

/-- The end of a loop: PC plus the offset in words (R138). -/
theorem loop_last_eq (pc : Word) (off : BitVec 12) : pc + 4 * off.zeroExtend 64 = pc + BitVec.ofNat 64 (4 * off.toNat) := by
  refine congrArg (pc + ·) (BitVec.eq_of_toNat_eq ?_)
  rw [BitVec.toNat_mul, BitVec.toNat_ofNat, BitVec.toNat_setWidth_of_le (by decide)]
  rfl

/-- The cases of a loop instruction: its loop is pushed, the stack is full, or control goes behind the loop's end. -/
theorem loopBody_push {n : Word} {off : BitVec 12} {s : State} (hn : n ≠ 0) (hd : s.me.ldepth.toNat < 2) :
    loopBody n off s = .done (s.modMe fun k =>
      { k with lstart := SMap.set 0 k.lstart s.me.ldepth.toNat (k.pc + 4),
               lend := SMap.set 0 k.lend s.me.ldepth.toNat (s.me.pc + 4 * off.zeroExtend 64),
               lcount := SMap.set 0 k.lcount s.me.ldepth.toNat n, ldepth := k.ldepth + 1 }) := by
  have h2 : s.me.ldepth ≠ 2 := fun h => by rw [h] at hd; exact absurd hd (by decide)
  simp only [loopBody, if_neg hn, if_neg h2]

theorem loopBody_full {n : Word} {off : BitVec 12} {s : State} (hn : n ≠ 0) (hd : s.me.ldepth = 2) :
    loopBody n off s = .trap cLOOPOVF s.me.pc := by
  simp only [loopBody, if_neg hn, if_pos hd]

theorem loopBody_zero {off : BitVec 12} {s t : State} {w : Nat}
    (hf : s.fetchWord s.curCore s.curCl (s.me.pc + 4 * off.zeroExtend 64).toNat = .ok (t, w)) (hw : wordLen w ≠ 0) :
    loopBody 0 off s = .goto t (s.me.pc + 4 * off.zeroExtend 64 + w64 (wordLen w)) := by
  simp only [loopBody, if_true, hf]

theorem State.issue_loop {s : State} {i : Instr} {body : State → Res} {n : Word} {off : BitVec 12} (h : s.issues i)
    (hb : body s.fresh = loopBody n off s.fresh) :
    let last : Word := s.me.pc + BitVec.ofNat 64 (4 * off.toNat)
    (n ≠ 0 → s.me.ldepth.toNat < 2 → s.issue i body = .next (s.fresh.modMe fun k =>
      { k with lstart := SMap.set 0 k.lstart k.ldepth.toNat (k.pc + 4), lend := SMap.set 0 k.lend k.ldepth.toNat last,
               lcount := SMap.set 0 k.lcount k.ldepth.toNat n, ldepth := k.ldepth + 1 }).inSequence) ∧
    (n ≠ 0 → s.me.ldepth = 2 → s.issue i body = .next (s.trap cLOOPOVF s.me.pc)) ∧
    (∀ t w, n = 0 → s.fresh.fetchWord s.curCore s.curCl last.toNat = .ok (t, w) → wordLen w ≠ 0 →
      s.issue i body = .next (t.jumpTo (last + BitVec.ofNat 64 (wordLen w)))) := by
  simp only [← loop_last_eq]
  refine ⟨fun hn hd => State.issue_done h (hb.trans (loopBody_push hn hd)),
    fun hn hd => State.issue_trap h (hb.trans (loopBody_full hn hd)), fun t w hn hf hw => ?_⟩
  subst hn
  exact State.issue_goto h (hb.trans (loopBody_zero hf hw))

theorem loops : Claim.Loops := by
  intro s i n off h hi
  obtain ⟨o, rfl, rfl, rfl⟩ | ⟨o, rfl, rfl, rfl⟩ := hi
  · exact State.issue_loop h rfl
  · have hcount : o.count.zeroExtend 64 = BitVec.ofNat 64 o.count.toNat := BitVec.eq_of_toNat_eq (by simp)
    exact State.issue_loop h (congrArg (fun n => loopBody n o.off s.fresh) hcount)

/-- Settles O20, from the bodies of the branches, jumps and loops, and the encoder. -/
theorem controlFlow : Obligations.ControlFlow := ⟨branchesAndJumps, branchWords, loops⟩

end Sys2Proof.Machine
end

section
/-!
The access checks (R125, R249, R253, R291): O15.
-/

namespace Sys2Proof.Machine

section
variable (s : State) (need : Need) {align : Nat} {ea : Word}

theorem State.access_of_checks {r : State × TlbEntry × Nat} (h : s.accessChecks need align ea = .ok r) :
    s.access need align ea =
      if decide (pteKind r.2.1.ent = 1) && !pteC r.2.1.ent && s.soOpen then .error (cOrder, ea) else .ok r := by
  rw [State.access, h]

theorem State.access_refused {e : Nat × Word} (h : s.accessChecks need align ea = .error e) :
    s.access need align ea = .error e := by
  rw [State.access, h]

theorem State.access_misaligned (h : ea.toNat % align ≠ 0) : s.access need align ea = .error (cALIGN, ea) :=
  s.access_refused need (if_pos h)

/-- An aligned access is refused with the cause of the translation and permission checks. -/
theorem State.access_refused_of_check {c : Nat} (h : ea.toNat % align = 0)
    (hc : s.check (unitCore s.curCore) s.myCore.asid.toNat s.me.super need ea.toNat = .error c) :
    s.access need align ea = .error (c, ea) :=
  s.access_refused need (by rw [State.accessChecks, if_neg (not_not_intro h), hc])

/-- An aligned access whose translation and permission checks pass has the leaf, and its address under it. -/
theorem State.accessChecks_of_check {e : TlbEntry} (h : ea.toNat % align = 0)
    (hc : s.check (unitCore s.curCore) s.myCore.asid.toNat s.me.super need ea.toNat = .ok e) :
    s.accessChecks need align ea = .ok (s.fill (unitCore s.curCore) e, e, e.pa ea.toNat) := by
  rw [State.accessChecks, if_neg (not_not_intro h), hc]

end

/-- The check of an address that a leaf translates: whether the page and its frame admit the access (R249, R291). -/
theorem State.check_of_lookup {s : State} {unit asid va : Nat} {super : Bool} {n : Need} {e : TlbEntry} (hva : va < 2 ^ 48)
    (hl : s.lookup unit asid va = some e) :
    s.check unit asid super n va = if permits super n e.ent && s.frameOk (e.pa va) then .ok e else .error cPROT := by
  rw [State.check, if_neg (Nat.not_le.mpr hva), hl]

/-- Settles O15, from the order of the checks: alignment, translation, permission, and the order of SO pages. -/
theorem accessChecks : Obligations.AccessChecks := by
  intro s need align ea l
  refine ⟨s.access_misaligned need, fun hal hnone => ?_, fun e hal hva hl hno => ?_, fun e hal hva hl hperm hframe => ?_, rfl,
    fun c hc => if_neg hc⟩
  · exact s.access_refused_of_check need hal (State.check_xlate hnone)
  · refine s.access_refused_of_check need hal ?_
    rw [State.check_of_lookup hva hl]
    obtain hno | hno := hno <;> simp [hno]
  · have hchecks := s.accessChecks_of_check need hal (e := e) (by simp [State.check_of_lookup hva hl, hperm, hframe])
    rw [s.access_of_checks need hchecks]
    refine ⟨fun hfree => ⟨_, if_neg ?_, ?_⟩, fun hk hc ho => if_pos (by simp [hk, hc, ho])⟩
    · obtain h | h | h := hfree <;> simp [h]
    · rw [State.fill_eq]; exact ⟨rfl, rfl, rfl⟩

end Sys2Proof.Machine
end

section
/-!
Scalar stores (R130-R133): what they do on each kind of page, and that stored bytes read back: O17.
-/

namespace Sys2Proof.Machine

/-- A store that starts differs from the instruction's state at most in its agenda: its earlier atomic messages fall due (R133). -/
theorem storeStart_eq (i : Instr) (s : State) :
    Claim.storeStart i s = { s with hitSeen := [], agenda := (Claim.storeStart i s).agenda } := by
  unfold Claim.storeStart
  split
  · exact State.hasten_eq _ _
  · rfl

/-- The five stores are one body, which differs in the bytes, the start and the release semantics (Table 11-3). -/
theorem exec_store {p : (Imm → Instr) × Nat} (hp : p ∈ Claim.storeTable) (o : Imm) (s : State) :
    ∃ body : State → Res, exec (p.1 o) s = s.issue (p.1 o) body ∧
      body s.fresh = scalarStore p.2 o (Claim.storeStart (p.1 o) s) (Claim.releases (p.1 o)) := by
  revert p
  simp only [Claim.storeTable, List.forall_mem_cons]
  exact ⟨⟨_, rfl, rfl⟩, ⟨_, rfl, rfl⟩, ⟨_, rfl, rfl⟩, ⟨_, rfl, rfl⟩, ⟨_, rfl, rfl⟩, List.forall_mem_nil _⟩

/-- An access that is granted leaves the registers, and whether an address is in the own scratchpad, as they were. -/
theorem State.access_fill {s u : State} {need : Need} {n pa : Nat} {ea : Word} {e : TlbEntry}
    (h : s.access need n ea = .ok (u, e, pa)) : u = { s with tlbs := u.tlbs, chanCtrs := u.chanCtrs } := by
  obtain ⟨-, -, -, hu, -⟩ := State.access_ok h
  rw [hu]
  exact State.fill_eq _ _ _

section
variable {n pa : Nat} {o : Imm} {s w u : State} {e : TlbEntry} {sync : Bool}

theorem scalarStore_counter (h : w.access .store n (w.ea o.ra o.imm) = .ok (u, e, pa)) (hc : pteC e.ent = true) :
    scalarStore n o w sync = .trap cCNTSTORE (w.ea o.ra o.imm) := by
  simp only [scalarStore, h, hc, if_true]

theorem scalarStore_dt (h : w.access .store n (w.ea o.ra o.imm) = .ok (u, e, pa)) (hc : pteC e.ent = false) (hk : pteKind e.ent = 3)
    (hroom : u.me.dtBuf.length < 128) : scalarStore n o w sync = .done ((u.touch pa n).modMe fun c => { c with dtBuf := c.dtBuf ++
      [{ va := (w.ea o.ra o.imm).toNat, pa := pa, size := n, cells := enumBytes (leBytes n (u.x o.rd).toNat) }] }) := by
  simp only [scalarStore, h, hc, Bool.false_eq_true, if_false, if_pos hk, if_neg (Nat.not_le.mpr hroom)]

theorem scalarStore_posted (h : w.access .store n (w.ea o.ra o.imm) = .ok (u, e, pa)) (hc : pteC e.ent = false)
    (hk : pteKind e.ent ≠ 3) : scalarStore n o w sync =
      .done ((u.reach pa n .write).post e pa (enumBytes (leBytes n (u.x o.rd).toNat)) (w.ea o.ra o.imm) sync) := by
  simp only [scalarStore, h, hc, Bool.false_eq_true, if_false, if_neg hk]

end

/-- A posted store in the own scratchpad is performed at once (R126). -/
theorem State.post_own {s : State} {pa : Nat} (h : s.own pa = true) (e : TlbEntry) (bs : List Byte) (ea : Word) (sync : Bool) :
    s.post e pa (enumBytes bs) ea sync = s.setBytes pa bs :=
  (if_pos h).trans (State.setCells_enum s pa bs)

theorem State.own_reach (s : State) (pa n : Nat) (k : Traffic) (a : Nat) : (s.reach pa n k).own a = s.own a := by
  obtain ⟨-, -, -, -, hcore, -⟩ := s.reach_kept pa n k
  rw [State.own, hcore, State.own]

theorem stores : Claim.Stores := by
  intro p hp o s u e pa h hacc
  obtain ⟨body, hexec, hbody⟩ := exec_store hp o s
  have hea : s.ea o.ra o.imm = (Claim.storeStart (p.1 o) s).ea o.ra o.imm := by rw [storeStart_eq]; rfl
  have hx : s.x o.rd = u.x o.rd := by rw [State.access_fill hacc, storeStart_eq]; rfl
  rw [hexec, hx, hea]
  rw [hea] at hacc
  have hposted : pteC e.ent = false → pteKind e.ent ≠ 3 → s.issue (p.1 o) body = .next ((u.reach pa p.2 .write).post e pa
      (enumBytes (leBytes p.2 (u.x o.rd).toNat)) ((Claim.storeStart (p.1 o) s).ea o.ra o.imm) (Claim.releases (p.1 o))).inSequence :=
    fun hc hk => State.issue_done h (hbody.trans (scalarStore_posted hacc hc hk))
  refine ⟨fun hc => State.issue_trap h (hbody.trans (scalarStore_counter hacc hc)),
    fun hc hk hroom => State.issue_done h (hbody.trans (scalarStore_dt hacc hc hk hroom)), fun hc hk hown => ?_, hposted⟩
  rw [hposted hc hk, State.post_own ((State.own_reach u pa p.2 .write pa).trans hown)]

theorem storedBytesRead : Claim.StoredBytesRead := fun s pa bs hnodup =>
  ⟨s.bytes_setBytes pa bs hnodup, fun q hq => s.byte_setBytes_other pa bs q hq, State.setBytes_memOk pa bs⟩

/-- Settles O17: the stores from their one body, the bytes by the rules of memory. -/
theorem scalarStores : Obligations.ScalarStores := ⟨stores, storedBytesRead⟩

end Sys2Proof.Machine
end

section
/-!
The frame of scalar stores (R130-R132, R244, R253): O18.
-/

namespace Sys2Proof.Machine

/-! ### What `storeOnly` allows, step by step -/

theorem storeOnly_trans {s t u : State} (h1 : Claim.storeOnly s t) (h2 : Claim.storeOnly t u) : Claim.storeOnly s u := by
  obtain ⟨hs, hother, hcore, hcl, hme⟩ := h1
  obtain ⟨hs', hother', hcore', hcl', hme'⟩ := h2
  have hcc : t.curCore = s.curCore := (congrArg State.curCore hs).trans rfl
  have hcu : t.curCl = s.curCl := (congrArg State.curCl hs).trans rfl
  refine ⟨hs'.trans (congrArg (fun r : State => { r with
      cores := u.cores, mem := u.mem, tlbs := u.tlbs, chanCtrs := u.chanCtrs, moves := u.moves, hits := u.hits,
      hitSeen := u.hitSeen, agenda := u.agenda, times := u.times, nextId := u.nextId }) hs),
    fun n hn => (hother' n (by rwa [hcc])).trans (hother n hn),
    hcore'.trans (congrArg (fun k : Core => { k with cl := u.myCore.cl, lastStep := u.myCore.lastStep }) hcore),
    fun c hc => (hcl' c (by rwa [hcu])).trans (hcl c hc),
    hme'.trans (congrArg (fun k : Cluster => { k with
      pc := u.me.pc, lcount := u.me.lcount, ldepth := u.me.ldepth, act := u.me.act, issuedAt := u.me.issuedAt,
      block := u.me.block, guardRep := u.me.guardRep, dtBuf := u.me.dtBuf, posted := u.me.posted }) hme)⟩

/-- A step that changes no core, and of the package only what a store may change. -/
theorem storeOnly_of_package {s t : State} {mem tlbs chanCtrs moves hits hitSeen agenda times nextId} (h : t = { s with
    mem := mem, tlbs := tlbs, chanCtrs := chanCtrs, moves := moves, hits := hits, hitSeen := hitSeen, agenda := agenda,
    times := times, nextId := nextId }) : Claim.storeOnly s t := by
  subst h
  exact ⟨rfl, fun _ _ => rfl, rfl, fun _ _ => rfl, rfl⟩

/-- A change of the cluster under way that keeps its registers. -/
theorem storeOnly_modMe (s : State) {f : Cluster → Cluster} (h : f s.me = { s.me with
    pc := (f s.me).pc, lcount := (f s.me).lcount, ldepth := (f s.me).ldepth, act := (f s.me).act, issuedAt := (f s.me).issuedAt,
    block := (f s.me).block, guardRep := (f s.me).guardRep, dtBuf := (f s.me).dtBuf, posted := (f s.me).posted }) :
    Claim.storeOnly s (s.modMe f) := by
  refine ⟨rfl, fun n hn => State.core_modCore_other _ _ hn, ?_, fun c hc => ?_, ?_⟩
  · rw [State.myCore_modMe]; rfl
  · rw [State.myCore_modMe]; exact Core.cluster_setCluster_other _ _ hc
  · rw [State.me_modMe]; exact h

theorem storeOnly_markIssued (s : State) : Claim.storeOnly s s.markIssued := by
  refine ⟨rfl, fun n hn => State.core_modCore_other _ _ hn, ?_, fun c hc => ?_, ?_⟩
  · rw [State.markIssued, State.myCore_modMyCore]; rfl
  · rw [State.markIssued, State.myCore_modMyCore]; exact Core.cluster_setCluster_other _ _ hc
  · rw [State.me_markIssued]

theorem Cluster.loopStep_eq (c : Cluster) (next : Word) : c.loopStep next =
    { c with pc := (c.loopStep next).pc, lcount := (c.loopStep next).lcount, ldepth := (c.loopStep next).ldepth } := by
  unfold Cluster.loopStep
  dsimp only
  split_ifs <;> rfl

theorem storeOnly_advance (s : State) : Claim.storeOnly s s.advance :=
  storeOnly_modMe s (by rw [Cluster.loopStep_eq])

theorem storeOnly_inSequence (s : State) : Claim.storeOnly s s.inSequence :=
  storeOnly_trans (storeOnly_markIssued s) (storeOnly_advance s.markIssued)

/-- The stores of its cluster that an instruction completing in sequence leaves as they are. -/
theorem State.inSequence_stores (s : State) :
    s.inSequence.mem = s.mem ∧ s.inSequence.agenda = s.agenda ∧ s.inSequence.me.posted = s.me.posted ∧
      s.inSequence.me.dtBuf = s.me.dtBuf := by
  refine ⟨(State.advance_mem _).trans (State.markIssued_mem s), (State.advance_agenda _).trans (State.markIssued_agenda s), ?_, ?_⟩
  all_goals rw [State.me_inSequence, Cluster.loopStep_eq]; rfl

/-! ### What is read after a store -/

theorem media_of_storeOnly {s t : State} (h : Claim.storeOnly s t) (pa : Nat) : t.media pa = s.media pa := by
  rw [h.1]; rfl

theorem byte_of_storeOnly {s t : State} (h : Claim.storeOnly s t) (hm : t.mem = s.mem) : s.sameBytes t := by
  intro pa
  rw [State.byte, State.byte, media_of_storeOnly h, hm]

theorem mediaRange_of_storeOnly {s t : State} (h : Claim.storeOnly s t) (pa n : Nat) : t.mediaRange pa n = s.mediaRange pa n :=
  List.map_congr_left fun _ _ => media_of_storeOnly h _

theorem target_of_storeOnly {s t : State} (h : Claim.storeOnly s t) (pa : Nat) (change : Bool) :
    t.target pa change = s.target pa change := by
  rw [h.1]; rfl

theorem targets_of_storeOnly {s t : State} (h : Claim.storeOnly s t) (change : Bool) (as : List Nat) :
    t.targets change as = s.targets change as := by
  induction as with
  | nil => rfl
  | cons a as ih => rw [State.targets, State.targets, ih, target_of_storeOnly h]

/-- A store is performed at the same addresses after a step that keeps what a store keeps. -/
theorem dest_of_storeOnly {s t : State} (h : Claim.storeOnly s t) (e : TlbEntry) (pa : Nat) (load : Bool) :
    t.dest e pa load = s.dest e pa load := by
  have hvif : t.myCore.vifn = s.myCore.vifn := (congrArg Core.vifn h.2.2.1).trans rfl
  have hmirrors : t.mirrors = s.mirrors := (congrArg State.mirrors h.1).trans rfl
  simp only [State.dest, hvif, hmirrors, targets_of_storeOnly h, target_of_storeOnly h]

/-! ### With no atomic message under way -/

/-- No atomic message is under way. -/
def State.noMessages (s : State) : Prop := s.agenda.all (fun d => decide (d.row ≠ .atomicMessageArrival)) = true

section
variable {s : State} (h : s.noMessages)
include h

theorem State.any_messages {f : Due → Bool} (hf : ∀ d, f d = true → d.row = .atomicMessageArrival) : s.agenda.any f = false := by
  rw [List.any_eq_false]
  intro d hd hfd
  exact of_decide_eq_true (List.all_eq_true.mp h d hd) (hf d hfd)

theorem State.any_mineMessage : s.agenda.any s.mineMessage = false :=
  State.any_messages h fun _ hd => of_decide_eq_true (Bool.and_eq_true_iff.mp hd).1

theorem State.landMine_noMessages : s.landMine = s := by
  simp [State.landMine, State.hasten, State.any_mineMessage h]

theorem State.landOwn_noMessages (pa n : Nat) : s.landOwn pa n = s := by
  have hany : s.agenda.any (s.ownMessage pa n) = false := State.any_messages h fun _ hd =>
    of_decide_eq_true (Bool.and_eq_true_iff.mp (Bool.and_eq_true_iff.mp hd).1).1
  simp [State.landOwn, State.hasten, hany]

theorem State.behind_noMessages (pa : Nat) (offs : List Nat) : s.behind pa offs = false := by
  rw [State.behind, State.any_mineMessage h, Bool.false_and]

/-- What a store touches: the tracker counts it, and a marked granule may be reported. -/
theorem State.touch_noMessages (pa n : Nat) :
    Claim.storeOnly s (s.touch pa n) ∧ (s.touch pa n).mem = s.mem ∧ (s.touch pa n).agenda = s.agenda ∧
      (s.touch pa n).me.posted = s.me.posted ∧ (s.touch pa n).me.dtBuf = s.me.dtBuf := by
  have hhit : Claim.storeOnly s (s.hit pa n) := storeOnly_of_package (State.hit_eq s pa n)
  have hme : (s.hit pa n).me = s.me := by rw [State.hit_eq]; rfl
  have hmem : (s.hit pa n).mem = s.mem := by rw [State.hit_eq]
  have hagenda : (s.hit pa n).agenda = s.agenda := by rw [State.hit_eq]
  simp only [State.touch, State.landOwn_noMessages h]
  split
  next w _ =>
    refine ⟨storeOnly_trans hhit (storeOnly_modMe _ rfl), hmem, hagenda, ?_, ?_⟩
    all_goals rw [State.me_modMe, ← hme]
  next => exact ⟨hhit, hmem, hagenda, by rw [hme], by rw [hme]⟩

theorem State.reach_noMessages (pa n : Nat) (k : Traffic) :
    Claim.storeOnly s (s.reach pa n k) ∧ (s.reach pa n k).mem = s.mem ∧ (s.reach pa n k).agenda = s.agenda ∧
      (s.reach pa n k).me.posted = s.me.posted ∧ (s.reach pa n k).me.dtBuf = s.me.dtBuf := by
  obtain ⟨honly, hrest⟩ := State.touch_noMessages h pa n
  rw [State.reach, State.traffic, State.bursts_eq]
  exact ⟨storeOnly_trans honly (storeOnly_of_package (s := s.touch pa n) rfl), hrest⟩

end

/-! ### Posted stores -/

theorem State.storeAll_eq (s : State) (as : List Nat) (bs : List Byte) : ∃ m, s.storeAll as (enumBytes bs) = { s with mem := m } := by
  induction as generalizing s with
  | nil => exact ⟨s.mem, rfl⟩
  | cons a as ih =>
    obtain ⟨m, hm⟩ := State.setBytes_eq s a bs
    obtain ⟨m', hm'⟩ := ih (s.setBytes a bs)
    refine ⟨m', ?_⟩
    rw [State.storeAll, List.foldl_cons, State.setCells_enum, ← State.storeAll, hm', hm]

theorem State.sameBytesBut_storeAll (s : State) (as : List Nat) (bs : List Byte) :
    s.sameBytesBut (s.storeAll as (enumBytes bs)) (as.flatMap fun a => s.mediaRange a bs.length) := by
  induction as generalizing s with
  | nil => exact fun _ _ => rfl
  | cons a as ih =>
    intro pa hpa
    rw [List.flatMap_cons, List.mem_append, not_or] at hpa
    obtain ⟨hfirst, hrest⟩ := hpa
    have hrange : ∀ q n, (s.setBytes a bs).mediaRange q n = s.mediaRange q n := fun q n =>
      List.map_congr_left fun _ _ => State.media_setBytes s a bs _
    rw [State.storeAll, List.foldl_cons, State.setCells_enum, ← State.storeAll]
    exact (ih _ pa (by simpa only [State.media_setBytes, hrange] using hrest)).trans (s.byte_setBytes_other a bs pa hfirst)

/-- Memory after a posted store outside the own scratchpad: stored at every address where it is performed, or as before where it
fails. -/
def State.stored (s : State) (r : Except Nat (List Nat)) (bs : List Byte) : State :=
  match r with
  | .ok as => s.storeAll as (enumBytes bs)
  | .error _ => s

theorem State.stored_eq (s : State) (r : Except Nat (List Nat)) (bs : List Byte) : ∃ m, s.stored r bs = { s with mem := m } := by
  cases r with
  | ok as => exact s.storeAll_eq as bs
  | error c => exact ⟨s.mem, rfl⟩

/-- A posted store outside the own scratchpad is performed and joins the posted accesses of its cluster; its acknowledgement comes
later. -/
theorem State.post_away {s : State} {pa : Nat} (h : s.noMessages) (hown : s.own pa = false) (e : TlbEntry) (bs : List Byte)
    (ea : Word) (sync : Bool) : ∃ (p : Posted) (args : EvArgs), s.post e pa (enumBytes bs) ea sync =
      (({ s.stored (s.dest e pa false) bs with nextId := (s.stored (s.dest e pa false) bs).nextId + 1 } : State).modMe
        fun c => { c with posted := c.posted ++ [p] }).scheduleOpen 1 .postedStoreAck args := by
  unfold State.post State.postAs
  rw [hown]
  simp only [State.behind_noMessages h, Bool.false_eq_true, if_false]
  exact ⟨_, _, rfl⟩

theorem storeOnly_scheduleOpen (s : State) (least : Nat) (row : Instr) (args : EvArgs) :
    Claim.storeOnly s (s.scheduleOpen least row args) :=
  storeOnly_of_package (agenda := (s.scheduleOpen least row args).agenda) (times := s.times.tail) rfl

theorem State.me_post (s : State) (p : Posted) (args : EvArgs) :
    ((s.modMe fun c => { c with posted := c.posted ++ [p] }).scheduleOpen 1 .postedStoreAck args).me =
      { s.me with posted := s.me.posted ++ [p] } :=
  State.me_modMe s fun c => { c with posted := c.posted ++ [p] }

theorem State.post_away_kept {s : State} {pa : Nat} (h : s.noMessages) (hown : s.own pa = false) (e : TlbEntry) (bs : List Byte)
    (ea : Word) (sync : Bool) : Claim.storeOnly s (s.post e pa (enumBytes bs) ea sync) ∧
      (s.post e pa (enumBytes bs) ea sync).mem = (s.stored (s.dest e pa false) bs).mem ∧
      (s.post e pa (enumBytes bs) ea sync).me.dtBuf = s.me.dtBuf := by
  obtain ⟨p, args, hpost⟩ := State.post_away h hown e bs ea sync
  obtain ⟨m, hm⟩ := s.stored_eq (s.dest e pa false) bs
  rw [hpost, hm]
  refine ⟨?_, rfl, by rw [State.me_post]; rfl⟩
  have hstored : Claim.storeOnly s { s with mem := m, nextId := s.nextId + 1 } := storeOnly_of_package rfl
  exact storeOnly_trans hstored (storeOnly_trans (storeOnly_modMe _ rfl) (storeOnly_scheduleOpen _ _ _ _))

/-! ### The frame -/

section
variable {s u t v : State} {pa n : Nat} {e : TlbEntry}

/-- A store in the own scratchpad: its bytes are stored, and nothing stays under way. -/
theorem storeFrame_own (bs : List Byte) (hsu : Claim.storeOnly s u) (hmem : u.mem = s.mem) (ht : t = (u.setBytes pa bs).inSequence) :
    Claim.storeOnly s t ∧ s.sameBytesBut t (s.mediaRange pa bs.length) ∧ t.agenda = u.agenda ∧ t.me.posted = u.me.posted ∧
      t.me.dtBuf = u.me.dtBuf := by
  obtain ⟨m, hm⟩ := u.setBytes_eq pa bs
  have hset : Claim.storeOnly u (u.setBytes pa bs) := by rw [hm]; exact storeOnly_of_package rfl
  obtain ⟨htmem, htag, htpost, htbuf⟩ := (u.setBytes pa bs).inSequence_stores
  have hme : (u.setBytes pa bs).me = u.me := by rw [hm]; rfl
  rw [ht, htag, htpost, htbuf, hme]
  refine ⟨storeOnly_trans hsu (storeOnly_trans hset (storeOnly_inSequence _)), fun q hq => ?_, by rw [hm], rfl, rfl⟩
  calc (u.setBytes pa bs).inSequence.byte q
      = (u.setBytes pa bs).byte q := byte_of_storeOnly (storeOnly_inSequence _) htmem q
    _ = u.byte q := u.byte_setBytes_other pa bs q (by rwa [media_of_storeOnly hsu, mediaRange_of_storeOnly hsu])
    _ = s.byte q := byte_of_storeOnly hsu hmem q

/-- A posted store outside the own scratchpad: it changes the bytes at the addresses at which it is performed. -/
theorem storeFrame_away (bs : List Byte) (ea : Word) (sync : Bool) (hsu : Claim.storeOnly s u) (hmem : u.mem = s.mem)
    (hquiet : u.noMessages) (hown : u.own pa = false) (ht : t = (u.post e pa (enumBytes bs) ea sync).inSequence) :
    Claim.storeOnly s t ∧ t.me.dtBuf = u.me.dtBuf ∧
      (∀ as, s.dest e pa false = .ok as → s.sameBytesBut t (as.flatMap fun a => s.mediaRange a bs.length)) ∧
      (∀ c, s.dest e pa false = .error c → s.sameBytes t) := by
  obtain ⟨hpost, hpmem, hpbuf⟩ := State.post_away_kept hquiet hown e bs ea sync
  obtain ⟨htmem, -, -, htbuf⟩ := (u.post e pa (enumBytes bs) ea sync).inSequence_stores
  have hst : Claim.storeOnly s t := ht ▸ storeOnly_trans hsu (storeOnly_trans hpost (storeOnly_inSequence _))
  have htu : t.mem = (u.stored (u.dest e pa false) bs).mem := by rw [ht, htmem, hpmem]
  refine ⟨hst, by rw [ht, htbuf, hpbuf], fun as has q hq => ?_, fun c hcause => byte_of_storeOnly hst ?_⟩
  · rw [dest_of_storeOnly hsu, has] at htu
    obtain ⟨m, hm⟩ := u.storeAll_eq as bs
    have hstored : Claim.storeOnly s (u.storeAll as (enumBytes bs)) :=
      storeOnly_trans hsu (hm ▸ storeOnly_of_package rfl)
    calc t.byte q
        = (u.storeAll as (enumBytes bs)).byte q := by
          rw [State.byte, State.byte, media_of_storeOnly hst, media_of_storeOnly hstored, htu]; rfl
      _ = u.byte q := u.sameBytesBut_storeAll as bs q (by simpa only [media_of_storeOnly hsu, mediaRange_of_storeOnly hsu] using hq)
      _ = s.byte q := byte_of_storeOnly hsu hmem q
  · rw [htu, dest_of_storeOnly hsu, hcause]
    exact hmem

/-- A store on a DT page: it enters the DT buffer, and memory stays as it is. -/
theorem storeFrame_dt (d : DtStore) (hsu : Claim.storeOnly s u) (hmem : u.mem = s.mem)
    (ht : t = (u.modMe fun c => { c with dtBuf := c.dtBuf ++ [d] }).inSequence) :
    Claim.storeOnly s t ∧ s.sameBytes t ∧ t.agenda = u.agenda ∧ t.me.posted = u.me.posted := by
  obtain ⟨htmem, htag, htpost, -⟩ := (u.modMe fun c => { c with dtBuf := c.dtBuf ++ [d] }).inSequence_stores
  have hst : Claim.storeOnly s t := ht ▸ storeOnly_trans hsu (storeOnly_trans (storeOnly_modMe u rfl) (storeOnly_inSequence _))
  rw [ht, htag, htpost, State.me_modMe]
  exact ⟨ht ▸ hst, byte_of_storeOnly (ht ▸ hst) (htmem.trans hmem), rfl, rfl⟩

end

/-- Settles O18: the frame of each step of a store, put together. -/
theorem storeFrame : Obligations.StoreFrame := by
  intro p hp o s u t e pa h hacc hc hroom hmsg hexec
  obtain ⟨-, hdt, hown, hposted⟩ := stores p hp o s u e pa h hacc
  have hfresh : Claim.storeStart (p.1 o) s = s.fresh := by
    unfold Claim.storeStart
    split
    · exact State.landMine_noMessages (s := s.fresh) hmsg
    · rfl
  rw [hfresh] at hacc
  have hu : u = { s with hitSeen := [], tlbs := u.tlbs, chanCtrs := u.chanCtrs } := State.access_fill hacc
  have hsu : Claim.storeOnly s u := storeOnly_of_package hu
  have humem : u.mem = s.mem := (congrArg State.mem hu).trans rfl
  have huagenda : u.agenda = s.agenda := (congrArg State.agenda hu).trans rfl
  have hume : u.me = s.me := (congrArg State.me hu).trans rfl
  have hquiet : u.noMessages := by rw [State.noMessages, huagenda]; exact hmsg
  obtain ⟨hreach, hrmem, hragenda, hrposted, hrbuf⟩ := State.reach_noMessages hquiet pa p.2 .write
  have hsr := storeOnly_trans hsu hreach
  rw [humem] at hrmem
  by_cases hk : pteKind e.ent = 3
  · obtain ⟨htouch, htmem, htagenda, htposted, -⟩ := State.touch_noMessages hquiet pa p.2
    obtain ⟨honly, hbytes, hagenda, hpost⟩ := storeFrame_dt _ (storeOnly_trans hsu htouch) (htmem.trans humem)
      (Host.Outcome.next.inj (hexec.symm.trans (hdt hc hk (hroom hk))))
    exact ⟨honly, fun _ => ⟨hbytes, by rw [hagenda, htagenda, huagenda], by rw [hpost, htposted, hume]⟩, fun h => absurd hk h,
      fun h => absurd hk h⟩
  · by_cases ho : u.own pa = true
    · obtain ⟨honly, hbytes, hagenda, hpost, hbuf⟩ := storeFrame_own _ hsr hrmem (Host.Outcome.next.inj (hexec.symm.trans (hown hc hk ho)))
      rw [length_leBytes] at hbytes
      exact ⟨honly, fun h => absurd h hk, fun _ _ => ⟨hbytes, by rw [hagenda, hragenda, huagenda], by rw [hpost, hrposted, hume],
        by rw [hbuf, hrbuf, hume]⟩, fun _ h => absurd ho (by rw [h]; decide)⟩
    · have hof : u.own pa = false := Bool.eq_false_iff.mpr ho
      obtain ⟨honly, hbuf, hok, herr⟩ := storeFrame_away _ _ _ hsr hrmem (by rw [State.noMessages, hragenda]; exact hquiet)
        ((State.own_reach u pa p.2 .write pa).trans hof) (Host.Outcome.next.inj (hexec.symm.trans (hposted hc hk)))
      rw [length_leBytes] at hok
      rw [dest_of_storeOnly hsu]
      exact ⟨honly, fun h => absurd h hk, fun _ h => absurd h ho, fun _ _ => ⟨by rw [hbuf, hrbuf, hume], hok, herr⟩⟩

end Sys2Proof.Machine
end

section
/-!
What adds, resets and reads of counters change, and what leaves counters as they are (R142-R146): for O21 and O50.
-/

namespace Sys2Proof.Machine

/-- What a function of the state holds before a fold whose steps keep it, it holds after it. -/
theorem foldl_keeps {α β γ : Type} {f : β → α → β} (g : β → γ) (h : ∀ b a, g (f b a) = g b) (l : List α) (b : β) :
    g (l.foldl f b) = g b := by
  induction l generalizing b with
  | nil => rfl
  | cons a l ih => rw [List.foldl_cons, ih, h]

/-! ### Bytes stored in two states with the same memory -/

theorem State.setBytes_mem_congr {s t : State} (hm : t.mem = s.mem) (hmedia : ∀ q, t.media q = s.media q) (pa : Nat) (bs : List Byte) :
    (t.setBytes pa bs).mem = (s.setBytes pa bs).mem := by
  induction bs generalizing s t pa with
  | nil => exact hm
  | cons b bs ih =>
    refine ih (s := s.setByte pa b) (t := t.setByte pa b) ?_ hmedia _
    simp only [State.setByte, hm, hmedia]

theorem State.writeN_mem_congr {s t : State} (hm : t.mem = s.mem) (hmedia : ∀ q, t.media q = s.media q) (pa n v : Nat) :
    (t.writeN pa n v).mem = (s.writeN pa n v).mem :=
  State.setBytes_mem_congr hm hmedia pa _

/-! ### Progress on a counter -/

/-- What a map that keeps the keys relates entry by entry, it relates at every key. -/
theorem SMap.get_map_rel {α : Type} {d : α} {f : Nat × α → Nat × α} {R : α → α → Prop} (hd : R d d)
    (hf : ∀ e, (f e).1 = e.1 ∧ R e.2 (f e).2) (m : SMap α) (n : Nat) : R (SMap.get d m n) (SMap.get d (m.map f) n) := by
  induction m with
  | nil => exact hd
  | cons e m ih =>
    obtain ⟨hkey, hval⟩ := hf e
    simp only [List.map_cons, SMap.get, hkey]
    split
    · exact hval
    · exact ih

/-- Of a core only the cycles of its progress may differ. -/
def Core.onlyProgress (k j : Core) : Prop := j = { k with lastStep := j.lastStep, progress := j.progress }

theorem Core.onlyProgress_refl (k : Core) : k.onlyProgress k := rfl

/-- The progress of the cores that wait on a counter is recorded, and nothing else changes. -/
theorem State.core_ctrProgress (s : State) (c : CtrName) (n : Nat) : (s.core n).onlyProgress ((s.ctrProgress c).core n) := by
  unfold State.core State.ctrProgress
  refine SMap.get_map_rel (R := Core.onlyProgress) (Core.onlyProgress_refl _) ?_ s.cores n
  refine fun e => ⟨rfl, ?_⟩
  dsimp only [Core.onlyProgress]
  split_ifs <;> rfl

theorem State.x_ctrProgress (s : State) (c : CtrName) (r : BitVec 5) : (s.ctrProgress c).x r = s.x r := by
  have hcl : ((s.ctrProgress c).core s.curCore).cl = (s.core s.curCore).cl := (congrArg Core.cl (s.core_ctrProgress c _)).trans rfl
  simp only [State.x, State.me, State.cluster, Core.cluster]
  exact congrArg (fun l => Cluster.readX (SMap.get Cluster.reset l s.curCl) r.toNat) hcl

/-! ### States whose counters are the same -/

/-- The counters of two states are the same: the slots, and memory with its mapping. -/
structure State.SameCounters (s t : State) : Prop where
  slots : ∀ n, (t.core n).k = (s.core n).k
  mem : t.mem = s.mem
  media : ∀ pa, t.media pa = s.media pa

namespace State.SameCounters
variable {s t u : State}

theorem refl (s : State) : s.SameCounters s := ⟨fun _ => rfl, rfl, fun _ => rfl⟩

theorem trans (h : s.SameCounters t) (g : t.SameCounters u) : s.SameCounters u :=
  ⟨fun n => (g.slots n).trans (h.slots n), g.mem.trans h.mem, fun pa => (g.media pa).trans (h.media pa)⟩

theorem byte (h : s.SameCounters t) (pa : Nat) : t.byte pa = s.byte pa := by
  rw [State.byte, State.byte, h.mem, h.media]

theorem ctrGet (h : s.SameCounters t) (c : CtrName) : t.ctrGet c = s.ctrGet c := by
  cases c with
  | slot n k => rw [State.ctrGet, State.ctrGet, h.slots]
  | page pa va => exact State.readN_congr h.byte pa 8

theorem foldl {α : Type} {f : State → α → State} (h : ∀ (s : State) a, s.SameCounters (f s a)) (l : List α) (s : State) :
    s.SameCounters (l.foldl f s) := by
  induction l generalizing s with
  | nil => exact .refl s
  | cons a l ih => exact (h s a).trans (ih (f s a))

/-- A change of a core that keeps its slots. -/
theorem modCore (s : State) (n : Nat) {f : Core → Core} (hf : ∀ k, (f k).k = k.k) : s.SameCounters (s.modCore n f) := by
  refine ⟨fun m => ?_, rfl, fun _ => rfl⟩
  by_cases hm : m = n
  · rw [hm, State.core_modCore, hf]
  · rw [State.core_modCore_other _ _ hm]

theorem modMe (s : State) (f : Cluster → Cluster) : s.SameCounters (s.modMe f) :=
  modCore s s.curCore (f := fun k => k.setCluster s.curCl (f (k.cluster s.curCl))) fun _ => rfl

theorem resultX (s : State) (l : Nat) (r : BitVec 5) (v : Word) : s.SameCounters (s.resultX l r v) := by
  unfold State.resultX
  split
  · exact .refl s
  · exact modCore s s.curCore (f := fun k => { k with inflight := k.inflight ++ [_] }) fun _ => rfl

theorem release (s : State) (h : Hold) : s.SameCounters (s.release h) := modMe s _

/-- A wait that ends with a result for X[r]. -/
theorem ended (s : State) (n c : Nat) (r : BitVec 5) (v : Word) (h : Hold) :
    s.SameCounters ((({ s with curCore := n, curCl := c } : State).resultX 1 r v).release h) :=
  (show s.SameCounters { s with curCore := n, curCl := c } from ⟨fun _ => rfl, rfl, fun _ => rfl⟩).trans
    ((resultX _ 1 r v).trans (release _ h))

theorem endCwait (s : State) (n c status : Nat) : s.SameCounters (s.endCwait n c status) := by
  unfold State.endCwait
  split
  · exact .refl s
  · split
    · exact ended s n c _ _ _
    · exact ended s n c _ _ _
    · exact .refl s

theorem ctrProgress (s : State) (c : CtrName) : s.SameCounters (s.ctrProgress c) :=
  ⟨fun n => (congrArg Core.k (s.core_ctrProgress c n)).trans rfl, rfl, fun _ => rfl⟩

theorem traffic (s : State) (a n : Nat) (k : Traffic) : s.SameCounters (s.traffic a n k) := by
  rw [State.traffic, State.bursts_eq]
  exact ⟨fun _ => rfl, rfl, fun _ => rfl⟩

theorem ctrTraffic (s : State) (c : CtrName) (k : Traffic) : s.SameCounters (s.ctrTraffic c k) := by
  cases c with
  | slot => exact refl s
  | page pa => exact traffic s pa 8 k

theorem hasten (s : State) (f : Due → Bool) : s.SameCounters (s.hasten f) := by
  rw [State.hasten_eq]
  exact ⟨fun _ => rfl, rfl, fun _ => rfl⟩

theorem landMine (s : State) : s.SameCounters s.landMine := hasten s _

end State.SameCounters

/-! ### Setting a counter -/

theorem State.ctrGet_ctrSet_slot {s : State} {n k v : Nat} (hv : v < 2 ^ 64) : (s.ctrSet (.slot n k) v).ctrGet (.slot n k) = v := by
  simp only [State.ctrSet, State.ctrGet, State.core_modCore, SMap.get_set_same, w64, BitVec.toNat_ofNat, Nat.mod_eq_of_lt hv]

theorem State.core_writeN (s : State) (pa n v m : Nat) : (s.writeN pa n v).core m = s.core m := by
  obtain ⟨mem, hm⟩ := State.writeN_eq s pa n v
  rw [hm]
  rfl

theorem State.ctrGet_ctrSet_other {s : State} {c : CtrName} {n k v : Nat} (h : c ≠ .slot n k) :
    (s.ctrSet c v).ctrGet (.slot n k) = s.ctrGet (.slot n k) := by
  cases c with
  | page pa va => rw [State.ctrSet, State.ctrGet, State.core_writeN, State.ctrGet]
  | slot m j =>
    simp only [State.ctrSet, State.ctrGet]
    by_cases hn : n = m
    · have hk : k ≠ j := fun hk => h (by rw [hn, hk])
      rw [hn, State.core_modCore, SMap.get_set_other _ _ _ hk]
    · rw [State.core_modCore_other _ _ hn]

theorem State.ctrGet_ctrSet_page {s : State} {pa va v : Nat} (hd : (s.mediaRange pa 8).Nodup) (hv : v < 2 ^ 64) :
    (s.ctrSet (.page pa va) v).ctrGet (.page pa va) = v :=
  State.readN_writeN hd hv

theorem State.media_ctrSet (s : State) (c : CtrName) (v pa : Nat) : (s.ctrSet c v).media pa = s.media pa := by
  cases c with
  | slot => rfl
  | page a va => exact State.media_setBytes s a _ pa

/-! ### Adding to a counter (R143) -/

/-- An add: the counter is set to the sum, or to the highest value, and the cores that wait on it make progress. -/
theorem State.ctrAdd_eq (s : State) (c : CtrName) (a : Nat) : ∃ t, t = (s.ctrTraffic c .update).ctrSet c (min (s.ctrGet c + a) (2 ^ 64 - 1)) ∧
    ((s.ctrAdd c a).1 = t ∨ (s.ctrAdd c a).1 = t.ctrProgress c) ∧ (s.ctrAdd c a).2 = decide (2 ^ 64 ≤ s.ctrGet c + a) := by
  have hsum : (if decide (2 ^ 64 ≤ s.ctrGet c + a) then 2 ^ 64 - 1 else s.ctrGet c + a) = min (s.ctrGet c + a) (2 ^ 64 - 1) := by
    simp only [decide_eq_true_eq]
    split <;> omega
  refine ⟨_, rfl, ?_, rfl⟩
  rw [← hsum, State.ctrAdd]
  dsimp only
  split
  · exact .inl rfl
  · exact .inr rfl

theorem State.ctrAdd_past (s : State) (c : CtrName) (a : Nat) : (s.ctrAdd c a).2 = decide (2 ^ 64 ≤ s.ctrGet c + a) := by
  obtain ⟨_, _, _, h⟩ := s.ctrAdd_eq c a
  exact h

/-- An add changes the counters as setting the counter does. -/
theorem State.ctrAdd_counters (s : State) (c : CtrName) (a : Nat) :
    ((s.ctrTraffic c .update).ctrSet c (min (s.ctrGet c + a) (2 ^ 64 - 1))).SameCounters (s.ctrAdd c a).1 := by
  obtain ⟨t, rfl, ht | ht, -⟩ := s.ctrAdd_eq c a
  · rw [ht]; exact .refl _
  · rw [ht]; exact .ctrProgress _ _

theorem State.ctrAdd_slot (s : State) (n k a : Nat) :
    (s.ctrAdd (.slot n k) a).1.ctrGet (.slot n k) = min (s.ctrGet (.slot n k) + a) (2 ^ 64 - 1) ∧
      (s.ctrAdd (.slot n k) a).1.mem = s.mem := by
  have h := s.ctrAdd_counters (.slot n k) a
  exact ⟨(h.ctrGet _).trans (State.ctrGet_ctrSet_slot (by omega)), h.mem⟩

/-- The memory after an add to a counter in a counter page. -/
theorem State.ctrAdd_page_mem (s : State) (pa va a : Nat) :
    (s.ctrAdd (.page pa va) a).1.mem = (s.writeN pa 8 (min (s.ctrGet (.page pa va) + a) (2 ^ 64 - 1))).mem := by
  have htraffic := State.SameCounters.ctrTraffic s (.page pa va) .update
  exact (s.ctrAdd_counters (.page pa va) a).mem.trans (State.writeN_mem_congr htraffic.mem htraffic.media pa 8 _)

theorem State.x_ctrAdd_page (s : State) (pa va a : Nat) (r : BitVec 5) : (s.ctrAdd (.page pa va) a).1.x r = s.x r := by
  have hset : ∀ v, ((s.ctrTraffic (.page pa va) .update).ctrSet (.page pa va) v).x r = s.x r := fun v => by
    obtain ⟨m, hm⟩ := State.writeN_eq (s.ctrTraffic (.page pa va) .update) pa 8 v
    rw [State.ctrSet, hm, State.ctrTraffic, State.traffic, State.bursts_eq]
    rfl
  obtain ⟨t, rfl, ht | ht, -⟩ := s.ctrAdd_eq (.page pa va) a
  · rw [ht, hset]
  · rw [ht, State.x_ctrProgress, hset]

end Sys2Proof.Machine
end

section
/-!
Counter instructions and counter waits (R142-R146, Table 11-8): O21.
-/

namespace Sys2Proof.Machine

/-! ### Counters in counter pages (R142) -/

/-- Of a state only translation caches and the counts of pseudo-channels may differ. -/
def State.onlyFilled (s t : State) : Prop := t = { s with tlbs := t.tlbs, chanCtrs := t.chanCtrs }

theorem State.pageLeaf_filled {s u : State} {n : Need} {ea : Word} {e : TlbEntry} {pa : Nat}
    (h : s.pageLeaf n ea = .ok (u, e, pa)) : s.onlyFilled u := by
  unfold State.pageLeaf at h
  split at h
  · cases h
  · split at h
    · rename_i r hr _
      obtain rfl := Except.ok.inj h
      obtain ⟨-, -, -, hu⟩ := State.accessChecks_ok hr
      rw [hu]
      exact State.fill_eq _ _ _
    · cases h

theorem State.pageCtr_filled {s u : State} {n : Need} {ea : Word} {c : CtrName} {e : TlbEntry}
    (h : s.pageCtr n ea = .ok (u, c, e)) : s.onlyFilled u := by
  unfold State.pageCtr at h
  split at h
  · cases h
  · rename_i v t pa hleaf
    split at h
    · obtain ⟨rfl, -, -⟩ : v = u ∧ _ ∧ _ := by simpa using h
      exact State.pageLeaf_filled hleaf
    · cases h

theorem State.onlyFilled.x {s t : State} (h : s.onlyFilled t) (r : BitVec 5) : t.x r = s.x r := by
  rw [h]; rfl

theorem State.x_landMine (s : State) (r : BitVec 5) : s.landMine.x r = s.x r := by
  rw [State.landMine, State.hasten_eq]; rfl

theorem State.ctrGet_landMine (s : State) (c : CtrName) : s.fresh.landMine.ctrGet c = s.ctrGet c :=
  ((State.SameCounters.landMine s.fresh).ctrGet c).trans (State.SameCounters.ctrGet ⟨fun _ => rfl, rfl, fun _ => rfl⟩ c)

/-! ### CADD (R143) -/

theorem exec_cadd {o : CntOwn} {s : State} (h : s.issues (.cadd o)) :
    let c : CtrName := .slot s.curCore o.k.toNat
    let r := s.fresh.landMine.ctrAdd c (s.x o.ra).toNat
    exec (.cadd o) s = .next (if s.ctrGet c + (s.x o.ra).toNat < 2 ^ 64 then r.1.inSequence
      else r.1.inSequence.trap cCNTOVF (w64 o.k.toNat)) := by
  intro c r
  have hpast : r.2 = decide (2 ^ 64 ≤ s.ctrGet c + (s.x o.ra).toNat) := by rw [State.ctrAdd_past, State.ctrGet_landMine]
  have hinfo : ctrInfo 0 o.k.toNat 0 0 = w64 o.k.toNat := by simp [ctrInfo]
  have hbody : bodyCadd o s.fresh = if r.2 then .trapAfter r.1 cCNTOVF (ctrInfo 0 o.k.toNat 0 0) else .done r.1 := rfl
  by_cases hlt : s.ctrGet c + (s.x o.ra).toNat < 2 ^ 64
  · rw [if_pos hlt]
    exact State.issue_done h (hbody.trans (if_neg (by rw [hpast]; simpa using hlt)))
  · rw [if_neg hlt, ← hinfo]
    exact State.issue_trapAfter h (hbody.trans (if_pos (by rw [hpast]; simpa using hlt)))

theorem State.reportOvf_false (s : State) (info : Word) : s.reportOvf false info = s := rfl

theorem exec_caddRemote {o : CntRemote} {s : State} {c : CtrName} (h : s.issues (.caddRemote o))
    (hc : s.rankSlot (s.x o.rb) o.k.toNat = .ok c) (hlt : s.ctrGet c + (s.x o.ra).toNat < 2 ^ 64) :
    exec (.caddRemote o) s = .next (s.fresh.landMine.ctrAdd c (s.x o.ra).toNat).1.inSequence := by
  have hpast : (s.fresh.landMine.ctrAdd c (s.x o.ra).toNat).2 = false := by
    rw [State.ctrAdd_past, State.ctrGet_landMine]
    exact decide_eq_false (Nat.not_le.mpr hlt)
  refine State.issue_done h ?_
  have hc' : s.fresh.rankSlot (s.fresh.x o.rb) o.k.toNat = .ok c := hc
  simp only [bodyCaddRemote, hc']
  exact congrArg Res.done (by rw [show s.fresh.x o.ra = s.x o.ra from rfl, hpast, State.reportOvf_false])

section
variable {o : CntPage} {s u : State} {e : TlbEntry} {pa : Nat} (h : s.issues (.caddPage o))
  (hleaf : s.fresh.landMine.pageLeaf .store (s.x o.xk) = .ok (u, e, pa))
include h hleaf

theorem exec_caddPage {a : Nat} (ha : u.target pa true = some a)
    (hlt : u.ctrGet (.page a (s.x o.xk).toNat) + (s.x o.ra).toNat < 2 ^ 64) :
    let r := u.ctrAdd (.page a (s.x o.xk).toNat) (s.x o.ra).toNat
    r.1.mem = (u.writeN a 8 (u.ctrGet (.page a (s.x o.xk).toNat) + (s.x o.ra).toNat)).mem ∧
      exec (.caddPage o) s = .next (if memKind a = some .peer then
        r.1.postAs e pa [] (s.x o.xk) (fun b => [(b, .ctrAdd (s.x o.ra).toNat)]) true else r.1).inSequence := by
  have hx : ∀ r, u.x r = s.x r := fun r => ((State.pageLeaf_filled hleaf).x r).trans (s.fresh.x_landMine r)
  have hpast : (u.ctrAdd (.page a (s.x o.xk).toNat) (s.x o.ra).toNat).2 = false := by
    rw [State.ctrAdd_past]
    exact decide_eq_false (Nat.not_le.mpr hlt)
  refine ⟨by rw [State.ctrAdd_page_mem, Nat.min_eq_left (by omega)], State.issue_done h ?_⟩
  have hleaf' : s.fresh.landMine.pageLeaf .store (s.fresh.x o.xk) = .ok (u, e, pa) := hleaf
  simp only [bodyCaddPage, hleaf', ha, hx, hpast, State.reportOvf_false, State.x_ctrAdd_page]

theorem exec_caddPage_none (ha : u.target pa true = none) :
    exec (.caddPage o) s = .next (u.post e pa [] (s.x o.xk)).inSequence := by
  have hx : u.x o.xk = s.x o.xk := ((State.pageLeaf_filled hleaf).x _).trans (s.fresh.x_landMine _)
  have hleaf' : s.fresh.landMine.pageLeaf .store (s.fresh.x o.xk) = .ok (u, e, pa) := hleaf
  refine State.issue_done h ?_
  simp only [bodyCaddPage, hleaf', ha, hx]

end

theorem counterInstructions : Claim.CounterInstructions := by
  refine ⟨fun o s h => ?cadd, fun o s c h hc hlt => exec_caddRemote h hc hlt, fun o s u e pa h hleaf => ?caddPage,
    fun o s h => State.issue_done h rfl, fun o s n k h hc => ?creadRemote, fun o s u pa va e h hc => ?creadPage,
    fun o s h => State.issue_done h rfl, fun o s u c e h hc => ?crstPage⟩
  case cadd =>
    obtain ⟨hget, hmem⟩ := s.fresh.landMine.ctrAdd_slot s.curCore o.k.toNat (s.x o.ra).toNat
    rw [State.ctrGet_landMine] at hget
    exact ⟨hget, hmem, exec_cadd h⟩
  case caddPage => exact ⟨fun a ha hlt => exec_caddPage h hleaf ha hlt, exec_caddPage_none h hleaf⟩
  case creadRemote =>
    refine State.issue_hold h (t := s.fresh.completeOpen 1) ?_
    have hc' : s.fresh.rankSlot (s.fresh.x o.rb) o.k.toNat = .ok (.slot n k) := hc
    simp only [bodyCreadRemote, hc']
    rfl
  case creadPage =>
    refine State.issue_hold h (t := u.completeOpen 1) ?_
    have hc' : s.fresh.pageCtr .load (s.fresh.x o.xk) = .ok (u, .page pa va, e) := hc
    simp only [bodyCreadPage, hc', (State.pageCtr_filled hc).x]
    rfl
  case crstPage =>
    refine State.issue_done h (t := { u with crsts := u.crsts ++ [(c, s.x o.ra)] }) ?_
    have hc' : s.fresh.pageCtr .store (s.fresh.x o.xk) = .ok (u, c, e) := hc
    simp only [bodyCrstPage, hc', (State.pageCtr_filled hc).x]
    rfl

/-! ### CREAD (R145) -/

theorem counterReads : Claim.CounterReads := by
  intro s h rd hheld
  obtain ⟨hact, hsince⟩ := hheld
  have hexec : exec .blockingCompletion s = .next (complete h s.resumed) := blockingCompletion_eq hact hsince
  refine ⟨fun o n k hi hvals => ?_, fun o pa va ent hi hvals => ?_⟩
  · rw [hexec, complete, hi]
    simp only [creadDone, hvals]
    rfl
  · have hget : s.resumed.ctrGet (.page pa 0) = s.ctrGet (.page pa va) :=
      State.SameCounters.ctrGet (s := s) (t := s.resumed) ⟨fun _ => rfl, rfl, fun _ => rfl⟩ (.page pa 0)
    rw [hexec, complete, hi]
    simp only [creadDone, hvals, ← hget]
    rfl

/-! ### CRST at the end of its cycle (R146) -/

theorem State.setCrsts_eq (s : State) : s.setCrsts = s.crsts.foldl (fun (s : State) r => s.ctrSet r.1 r.2.toNat) s := rfl

/-- The last CRST of a slot decides what it holds. -/
theorem State.ctrGet_setCrsts_slot {s : State} {n k : Nat} {v : Word} {l1 l2 : List (CtrName × Word)}
    (h : s.crsts = l1 ++ (.slot n k, v) :: l2) (hlast : ∀ r ∈ l2, r.1 ≠ .slot n k) : s.setCrsts.ctrGet (.slot n k) = v.toNat := by
  have hkeep : ∀ (l : List (CtrName × Word)) (t : State), (∀ r ∈ l, r.1 ≠ .slot n k) →
      (l.foldl (fun (s : State) r => s.ctrSet r.1 r.2.toNat) t).ctrGet (.slot n k) = t.ctrGet (.slot n k) := by
    intro l
    induction l with
    | nil => exact fun _ _ => rfl
    | cons r l ih =>
      intro t hne
      obtain ⟨hr, hl⟩ := List.forall_mem_cons.mp hne
      rw [List.foldl_cons, ih _ hl, State.ctrGet_ctrSet_other hr]
  rw [State.setCrsts_eq, h, List.foldl_append, List.foldl_cons, hkeep l2 _ hlast, State.ctrGet_ctrSet_slot v.isLt]

theorem State.mediaRange_setCrsts (l : List (CtrName × Word)) (s : State) (pa n : Nat) :
    (l.foldl (fun (s : State) r => s.ctrSet r.1 r.2.toNat) s).mediaRange pa n = s.mediaRange pa n := by
  induction l generalizing s with
  | nil => rfl
  | cons r l ih =>
    rw [List.foldl_cons, ih]
    exact List.map_congr_left fun _ _ => s.media_ctrSet r.1 _ _

theorem State.ctrGet_setCrsts_page {s : State} {pa va : Nat} {v : Word} {l : List (CtrName × Word)}
    (h : s.crsts = l ++ [(.page pa va, v)]) (hd : (s.mediaRange pa 8).Nodup) : s.setCrsts.ctrGet (.page pa va) = v.toNat := by
  rw [State.setCrsts_eq, h, List.foldl_append, List.foldl_cons, List.foldl_nil]
  exact State.ctrGet_ctrSet_page (by rwa [State.mediaRange_setCrsts]) v.isLt

/-- The waits that CRSTs end leave the counters as they were set. -/
theorem State.applyCrsts_counters (s : State) : s.setCrsts.SameCounters s.applyCrsts := by
  unfold State.applyCrsts
  refine .foldl (fun t r => ?_) s.crsts s.setCrsts
  refine .foldl (fun u w => ?_) _ t
  exact .endCwait u w.1 w.2 2

/-! ### The close of a cycle -/

theorem Core.applyWrite_k (j : Core) (cl : Nat) (w : Write) : (j.applyWrite cl accAdd w).k = j.k := by
  cases w <;> rfl

theorem Core.landAll_k (j : Core) (cycle : Nat) : (j.landAll cycle).k = j.k :=
  foldl_keeps Core.k (fun j (l : Landing) => j.applyWrite_k l.cl l.w) _ _

theorem State.SameCounters.closeCore (s : State) (n : Nat) : s.SameCounters (s.closeCore n) :=
  .modCore s n fun j => Core.landAll_k j s.cycle

theorem State.setLane_crsts (s : State) (die n : Nat) (f : Lane → Lane) : (s.modLane die n f).crsts = s.crsts := rfl

/-- An add leaves the CRSTs of the cycle as they are. -/
theorem State.ctrSet_crsts (s : State) (c : CtrName) (v : Nat) : (s.ctrSet c v).crsts = s.crsts := by
  cases c with
  | slot => rfl
  | page pa va =>
    obtain ⟨m, hm⟩ := State.writeN_eq s pa 8 v
    rw [State.ctrSet, hm]

theorem State.ctrTraffic_crsts (s : State) (c : CtrName) (k : Traffic) : (s.ctrTraffic c k).crsts = s.crsts := by
  cases c with
  | slot => rfl
  | page pa va => rw [State.ctrTraffic, State.traffic, State.bursts_eq]

theorem State.ctrAdd_crsts (s : State) (c : CtrName) (a : Nat) : (s.ctrAdd c a).1.crsts = s.crsts := by
  obtain ⟨t, rfl, ht | ht, -⟩ := s.ctrAdd_eq c a
  · rw [ht, State.ctrSet_crsts, State.ctrTraffic_crsts]
  · rw [ht]
    exact (State.ctrSet_crsts _ c _).trans (State.ctrTraffic_crsts s c .update)

theorem State.stopLane_crsts (s : State) (die n : Nat) : (s.stopLane die n).crsts = s.crsts := by
  unfold State.stopLane
  refine (State.setLane_crsts _ _ _ _).trans ?_
  refine (foldl_keeps State.crsts (fun t x => ?_) _ _).trans rfl
  split <;> rfl

theorem State.applyAdd_crsts (s : State) (a : AddReq) : (s.applyAdd a).crsts = s.crsts := by
  have hadd := s.ctrAdd_crsts a.ctr a.amount
  unfold State.applyAdd
  dsimp only
  split
  · split
    · exact hadd
    · exact (State.setLane_crsts _ _ _ _).trans ((State.stopLane_crsts _ _ _).trans hadd)
    · exact hadd
    · exact hadd
  · exact hadd

theorem State.applyAdds_crsts (s : State) (f : AddReq → Bool) : (s.applyAdds f).crsts = s.crsts :=
  foldl_keeps State.crsts State.applyAdd_crsts _ s

theorem State.core_nextSleep (s : State) (n : Nat) : s.nextSleep.core n = s.core n := by
  unfold State.nextSleep
  split <;> rfl

theorem State.core_applyHpt (s : State) (n : Nat) : s.applyHpt.core n = s.core n := by
  unfold State.applyHpt
  split <;> rfl

theorem State.core_meshCredits (s : State) (n : Nat) : s.meshCredits.core n = s.core n := by
  unfold State.meshCredits
  refine (foldl_keeps (fun t : State => t.core n) (fun t _ => ?_) _ _).trans rfl
  refine foldl_keeps (fun t : State => t.core n) (fun _ _ => ?_) _ t
  rfl

/-- Behind the CRSTs, the close of a cycle changes no slot. -/
theorem State.core_k_closeCycle (s : State) (n : Nat) :
    (s.closeCycle.core n).k = ((s.applyAdds fun _ => true).setCrsts.core n).k := by
  have hclose := (State.SameCounters.foldl State.SameCounters.closeCore
    ((s.applyAdds fun _ => true).setCrsts.cores.map fun e => e.1) (s.applyAdds fun _ => true).setCrsts).slots n
  unfold State.closeCycle
  rw [← hclose]
  dsimp only
  split
  · exact congrArg Core.k ((State.core_applyHpt _ n).trans (State.core_nextSleep _ n))
  · exact congrArg Core.k ((State.core_meshCredits _ n).trans ((State.core_applyHpt _ n).trans (State.core_nextSleep _ n)))

/-- The clusters whose CWAIT a CRST ends are those of the package whose hold it resets. -/
theorem State.mem_resetWaiters (s : State) (x : CtrName) (n c : Nat) : (n, c) ∈ s.resetWaiters x ↔
    ∃ (k : Core) (z : Cluster) (h : Hold), (n, k) ∈ s.cores ∧ (c, z) ∈ k.cl ∧ z.act = .waiting h ∧ h.resetBy x s.cycle = true := by
  simp only [State.resetWaiters, List.mem_flatMap, List.mem_filterMap]
  constructor
  · rintro ⟨⟨m, k⟩, hk, ⟨d, z⟩, hz, hend⟩
    dsimp only at hz hend
    split at hend
    next h hh =>
      split at hend
      next hr =>
        obtain ⟨rfl, rfl⟩ : m = n ∧ d = c := by simpa using hend
        refine ⟨k, z, h, hk, hz, ?_, hr⟩
        unfold Cluster.hold? at hh
        split at hh
        next hact => rw [hact, Option.some.inj hh]
        next => cases hh
      next => cases hend
    next => cases hend
  · rintro ⟨k, z, h, hk, hz, hact, hr⟩
    refine ⟨(n, k), hk, (c, z), hz, ?_⟩
    simp only [Cluster.hold?_waiting hact, hr, if_true]

/-- The end of a CWAIT: its status lands in the register it names, and the cluster goes on. -/
theorem State.endCwait_eq {s : State} {n c target deadline rd : Nat} {h : Hold} {x : CtrName}
    (hact : (s.cluster n c).act = .waiting h) (hk : h.kind = .cwait x) (hv : h.vals = [target, deadline, rd]) (status : Nat) :
    s.endCwait n c status = (({ s with curCore := n, curCl := c } : State).resultX 1 (BitVec.ofNat 5 rd) (w64 status)).release h := by
  simp only [State.endCwait, Cluster.hold?_waiting hact, hk, hv]
  rfl

theorem counterResets : Claim.CounterResets := by
  refine ⟨fun s n k v l1 l2 h hlast => ⟨?_, ?_, rfl⟩, fun s pa va v l h hd => ?_,
    ?_, State.mem_resetWaiters⟩
  · rw [s.applyCrsts_counters.ctrGet, State.ctrGet_setCrsts_slot h hlast]
  · rw [State.ctrGet, State.core_k_closeCycle]
    exact State.ctrGet_setCrsts_slot ((s.applyAdds_crsts _).trans h) hlast
  · rw [s.applyCrsts_counters.ctrGet, State.ctrGet_setCrsts_page h hd]
  · intro s x v n c target deadline rd h hc u hw hact hk hv
    rw [State.applyCrsts, hc, List.foldl_cons, List.foldl_nil]
    change (u.resetWaiters x).foldl (fun s w => s.endCwait w.1 w.2 2) u = _
    rw [hw, List.foldl_cons, List.foldl_nil, State.endCwait_eq hact hk hv]
    rfl

/-! ### CWAIT (R144) -/

/-- An instruction whose body traps after a part of its effect takes the trap in the state it left. -/
theorem State.issue_trapWith {s t : State} {i : Instr} {body : State → Res} {cause : Nat} {info : Word} (h : s.issues i)
    (hb : body s.fresh = .trapWith t cause info) : s.issue i body = .next (t.trap cause info) := by
  rw [State.issue_of_issues body h, hb]
  rfl

theorem withReports_some {s : State} {cause : Nat} {info : Word} {c : Cluster} (h : s.me.report = some (cause, info, c))
    (body : State → Res) : withReports body s = .trapWith (s.modMe fun _ => c) cause info := by
  simp [withReports, h]

section
variable {i : Instr} {c : CtrName} {ea : Word} {ra rb : BitVec 5} {s : State}

theorem cwaitOn_met (h : (s.x ra).toNat ≤ s.ctrGet c) : cwaitOn i c ea ra rb s = .done (s.resultX 1 ra 0) := if_pos h

theorem cwaitOn_waits (h : s.ctrGet c < (s.x ra).toNat) : cwaitOn i c ea ra rb s =
    .hold s { kind := .cwait c, instr := i, ea := ea, since := s.cycle, sync := false,
              vals := [(s.x ra).toNat, if s.x rb = 0 then 0 else s.cycle + (s.x rb).toNat, ra.toNat] } := by
  have hzero : (s.x rb).toNat = 0 ↔ s.x rb = 0 := BitVec.toNat_inj (y := 0)
  simp only [cwaitOn, if_neg (Nat.not_le.mpr h), hzero]

end

theorem bodyCwaitPage_eq {o : CWaitPage} {s u : State} {c : CtrName} {e : TlbEntry} (hrep : s.me.report = none)
    (hc : s.fresh.pageCtr .load (s.x o.xk) = .ok (u, c, e)) :
    bodyCwaitPage o s.fresh = cwaitOn (.cwaitPage o) c (s.x o.xk) o.ra o.rb u := by
  have hc' : s.fresh.pageCtr .load (s.fresh.x o.xk) = .ok (u, c, e) := hc
  rw [bodyCwaitPage, withReports_none (s := s.fresh) hrep]
  simp only [hc', (State.pageCtr_filled hc).x]
  rfl

/-- Whether the CWAIT of a cluster is at its target, and whether it is late. -/
theorem State.cwaitMet_eq {s : State} {n c target deadline rd : Nat} {h : Hold} {x : CtrName}
    (hact : (s.cluster n c).act = .waiting h) (hk : h.kind = .cwait x) (hv : h.vals = [target, deadline, rd]) :
    s.cwaitMet n c = decide (target ≤ s.ctrGet x) := by
  simp only [State.cwaitMet, Cluster.hold?_waiting hact, Hold.ctr, hk, hv]
  rfl

theorem State.cwaitLate_eq {s : State} {n c target deadline rd : Nat} {h : Hold} {x : CtrName}
    (hact : (s.cluster n c).act = .waiting h) (hk : h.kind = .cwait x) (hv : h.vals = [target, deadline, rd]) :
    s.cwaitLate n c = (decide (deadline ≠ 0) && decide (deadline ≤ s.cycle)) := by
  simp only [State.cwaitLate, Cluster.hold?_waiting hact, Hold.ctr, hk, hv]
  rfl

theorem counterWaits : Claim.CounterWaits := by
  refine ⟨fun o s h hrep hmet => ?_, fun o s h hrep hlt => ?_, fun o s u c e h hrep hc hmet => ?_, fun o s u c e h hrep hc hlt => ?_,
    fun o s cause info c h hrep => ?_, fun s n c target deadline rd h x hev hact hk hv => ?_⟩
  · exact State.issue_done h ((withReports_none (s := s.fresh) hrep _).trans (cwaitOn_met hmet))
  · exact ⟨_, State.issue_hold h ((withReports_none (s := s.fresh) hrep _).trans (cwaitOn_waits hlt)), rfl, rfl, rfl⟩
  · have hx : ∀ r, u.x r = s.x r := (State.pageCtr_filled hc).x
    rw [← hx] at hmet
    exact State.issue_done h ((bodyCwaitPage_eq hrep hc).trans (cwaitOn_met hmet))
  · have hx : ∀ r, u.x r = s.x r := (State.pageCtr_filled hc).x
    have hcycle : u.cycle = s.cycle := (congrArg State.cycle (State.pageCtr_filled hc)).trans rfl
    rw [← hx] at hlt
    refine ⟨_, State.issue_hold h ((bodyCwaitPage_eq hrep hc).trans (cwaitOn_waits hlt)), rfl, rfl, rfl, ?_⟩
    rw [hx, hx, hcycle]
  · exact State.issue_trapWith h (withReports_some (s := s.fresh) hrep _)
  · have hn : s.ev.nat 0 = n ∧ s.ev.nat 1 = c := by rw [hev]; exact ⟨rfl, rfl⟩
    obtain ⟨hn0, hn1⟩ := hn
    have hend := State.endCwait_eq hact hk hv
    refine ⟨fun hmet => ?_, fun hlt => ?_, fun hlt hd hlate => ?_⟩
    · change execCounterWaitSatisfied s = _
      rw [execCounterWaitSatisfied, hn0, hn1, State.cwaitMet_eq hact hk hv, if_pos (decide_eq_true hmet), hend]
      rfl
    · change execCounterWaitSatisfied s = _
      rw [execCounterWaitSatisfied, hn0, hn1, State.cwaitMet_eq hact hk hv, decide_eq_false (Nat.not_le.mpr hlt)]
      rfl
    · change execCwaitTimeout s = _
      rw [execCwaitTimeout, hn0, hn1, State.cwaitMet_eq hact hk hv, State.cwaitLate_eq hact hk hv, if_pos (by simp [hd, hlate, hlt]),
        hend]
      rfl

/-- Settles O21: the instructions from their bodies, the resets by following the slots through the close of the cycle. A CREAD that
blocked reads its counter in the cycle of its completion: the model's choice of log entry 6 within R145. -/
theorem counters : Obligations.Counters := ⟨counterInstructions, counterReads, counterResets, counterWaits⟩

end Sys2Proof.Machine
end

section
/-!
Atomics (R149-R151, R165): their one body, their completion and their messages: O22.
-/

namespace Sys2Proof.Machine

/-! ### The rows of Table 7-9 -/

/-- The atomics with their operations. -/
def atomRows : List ((AtomOps → Instr) × AtomFn) :=
  (Instr.afadd, AtomFn.fadd) :: (Claim.atomTable.map Prod.fst).zip [.add, .min, .max, .minu, .maxu, .and, .or, .xor, .swp, .cas]

/-- The atomics are one body, which differs in the operation. -/
theorem exec_atom {p : (AtomOps → Instr) × AtomFn} (hp : p ∈ atomRows) (o : AtomOps) (s : State) :
    exec (p.1 o) s = s.issue (p.1 o) (atomBody p.2 (p.1 o) o) := by
  revert p
  simp only [atomRows, Claim.atomTable, List.map_cons, List.map_nil, List.zip_cons_cons, List.zip_nil_left, List.forall_mem_cons]
  exact ⟨rfl, rfl, rfl, rfl, rfl, rfl, rfl, rfl, rfl, rfl, rfl, List.forall_mem_nil _⟩

/-- Each row of Table 7-9 is an atomic whose new value is the row's, of operands cut to the location. -/
theorem atomTable_row {p : (AtomOps → Instr) × (Nat → Nat → Nat → Nat → Nat)} (hp : p ∈ Claim.atomTable) :
    ∃ f, (p.1, f) ∈ atomRows ∧ ∀ n old v ex, atomNew f n old v ex = p.2 n old (v % 2 ^ (8 * n)) (ex % 2 ^ (8 * n)) := by
  revert p
  simp only [atomRows, Claim.atomTable, List.map_cons, List.map_nil, List.zip_cons_cons, List.zip_nil_left, List.forall_mem_cons]
  refine ⟨⟨.add, ?_, fun _ _ _ _ => rfl⟩, ⟨.min, ?_, fun _ _ _ _ => rfl⟩, ⟨.max, ?_, fun _ _ _ _ => rfl⟩,
    ⟨.minu, ?_, fun _ _ _ _ => rfl⟩, ⟨.maxu, ?_, fun _ _ _ _ => rfl⟩, ⟨.and, ?_, fun _ _ _ _ => rfl⟩,
    ⟨.or, ?_, fun _ _ _ _ => rfl⟩, ⟨.xor, ?_, fun _ _ _ _ => rfl⟩, ⟨.swp, ?_, fun _ _ _ _ => rfl⟩,
    ⟨.cas, ?_, fun _ _ _ _ => rfl⟩, List.forall_mem_nil _⟩
  all_goals simp only [List.mem_cons, true_or, or_true]

/-- The instruction of every atomic has its row. -/
theorem atomRows_of_instr {p : AtomOps → Instr} (hp : p ∈ Instr.afadd :: Claim.atomTable.map Prod.fst) : ∃ f, (p, f) ∈ atomRows := by
  obtain rfl | hp := List.mem_cons.mp hp
  · exact ⟨.fadd, List.mem_cons_self⟩
  · obtain ⟨q, hq, rfl⟩ := List.mem_map.mp hp
    obtain ⟨f, hf, -⟩ := atomTable_row hq
    exact ⟨f, hf⟩

/-! ### The body of an atomic -/

/-- An address of the own scratchpad is one of a scratchpad. -/
theorem State.own_memKind {s : State} {pa : Nat} (h : s.own pa = true) : memKind pa = some .scratch := by
  have hc : scratchCore pa = some s.curCore := of_decide_eq_true h
  unfold scratchCore at hc
  split at hc
  · assumption
  · cases hc

section
variable {f : AtomFn} {i : Instr} {o : AtomOps} {n : Nat} {s u : State} {e : TlbEntry} {pa : Nat}
  (hn : n = if o.dbl then 8 else 4) (hacc : s.access .atomic n (s.x o.ra) = .ok (u, e, pa))
include hn hacc

theorem atomBody_counter (hc : pteC e.ent = true) : atomBody f i o s = .trap cCNTSTORE (s.x o.ra) := by
  rw [hn] at hacc
  simp only [atomBody, hacc, hc, if_true]

theorem atomBody_prot (hc : pteC e.ent = false) (hp : pteKind e.ent = 3 ∨ pteM e.ent = true ∨ memKind pa = some .host) :
    atomBody f i o s = .trap cPROT (s.x o.ra) := by
  rw [hn] at hacc
  have hbad : (decide (pteKind e.ent = 3) || pteM e.ent || decide (memKind pa = some .host)) = true := by
    simpa [or_assoc] using hp
  simp only [atomBody, hacc, hc, Bool.false_eq_true, if_false, hbad, if_true]

variable (hc : pteC e.ent = false) (hk : pteKind e.ent ≠ 3) (hm : pteM e.ent = false)
include hc hk hm

theorem atomBody_own (hown : u.own pa = true) :
    let r := (u.reach pa n .update).atomAt f pa n (s.x o.rb).toNat (s.x o.rd).toNat
    atomBody f i o s = if decide (o.rd ≠ 0) then .hold (r.1.completeIn 6) (r.1.blocking i (s.x o.ra) [0, r.2, o.rd.toNat])
      else .done r.1 := by
  have hx : ∀ r, u.x r = s.x r := fun r => by rw [State.access_fill hacc]; rfl
  have hreach : (u.reach pa n .update).own pa = true := (State.own_reach u pa n .update pa).trans hown
  have hgood : (decide (pteKind e.ent = 3) || pteM e.ent || decide (memKind pa = some .host)) = false := by
    simp [hk, hm, State.own_memKind hown]
  rw [hn] at hacc hreach
  simp only [atomBody, hacc, hc, Bool.false_eq_true, if_false, hgood, hreach, if_true, hx, hn]

variable (hh : memKind pa ≠ some .host) (hown : u.own pa = false)
include hh hown

/-- An atomic outside the own scratchpad: it waits for a value, or is posted; to another core's scratchpad as a message. -/
theorem atomBody_away :
    let v := u.reach pa n .update
    let args := [s.curCore, s.curCl, s.cycle, pa, f.code, n, (s.x o.rb).toNat, (s.x o.rd).toNat, o.rd.toNat, (pteAM e.ent).toNat,
      v.nextId, (s.x o.ra).toNat, e.ent]
    atomBody f i o s =
      if decide (o.rd ≠ 0) then
        if (scratchCore pa).isSome then .hold (v.scheduleOpen 1 .atomicMessageArrival (.nats args)) (v.blocking i (s.x o.ra) [1])
        else .hold (v.completeOpen 1) (v.blocking i (s.x o.ra) (2 :: args))
      else if (scratchCore pa).isSome then
        .done ((({ v with nextId := v.nextId + 1 } : State).modMe fun c => { c with posted := c.posted ++
          [{ id := v.nextId, ea := s.x o.ra, fail := 0, so := decide (pteKind e.ent = 1) }] }).scheduleOpen 1 .atomicMessageArrival
            (.nats args))
      else match v.target pa true with
        | none => .done (v.post e pa [] (s.x o.ra))
        | some a =>
          let w := (v.countAtom (pteAM e.ent) pa (coreDie s.curCore)).atomAt f a n (s.x o.rb).toNat (s.x o.rd).toNat
          .done (w.1.postAs e pa [] (s.x o.ra) fun b => [(b, .atomic f.code n (s.x o.rb).toNat (s.x o.rd).toNat)]) := by
  have hu := State.access_fill hacc
  have hx : ∀ r, u.x r = s.x r := fun r => by rw [hu]; rfl
  obtain ⟨-, -, -, hcycle, hcore, hcl⟩ := u.reach_kept pa n .update
  have hcycle' : (u.reach pa n .update).cycle = s.cycle := hcycle.trans ((congrArg State.cycle hu).trans rfl)
  have hcore' : (u.reach pa n .update).curCore = s.curCore := hcore.trans ((congrArg State.curCore hu).trans rfl)
  have hcl' : (u.reach pa n .update).curCl = s.curCl := hcl.trans ((congrArg State.curCl hu).trans rfl)
  have hreach : (u.reach pa n .update).own pa = false := (State.own_reach u pa n .update pa).trans hown
  have hgood : (decide (pteKind e.ent = 3) || pteM e.ent || decide (memKind pa = some .host)) = false := by
    simp [hk, hm, hh]
  rw [hn] at hacc hreach hcycle' hcore' hcl'
  simp only [atomBody, hacc, hc, Bool.false_eq_true, if_false, hgood, hreach, hx, hn, hcycle', hcore', hcl', Nat.add_sub_cancel] <;> rfl

end

/-! ### At issue -/

/-- An atomic on the own scratchpad, by what its operation gives. -/
theorem exec_atom_own {p : AtomOps → Instr} {f : AtomFn} {o : AtomOps} {s u : State} {e : TlbEntry} {pa n new : Nat}
    (hp : (p, f) ∈ atomRows) (h : s.issues (p o)) (hn : n = if o.dbl then 8 else 4)
    (hacc : s.fresh.access .atomic n (s.x o.ra) = .ok (u, e, pa)) (hc : pteC e.ent = false) (hk : pteKind e.ent ≠ 3)
    (hm : pteM e.ent = false) (hown : u.own pa = true)
    (hnew : atomNew f n ((u.reach pa n .update).readN pa n) (s.x o.rb).toNat (s.x o.rd).toNat = new) :
    let v := u.reach pa n .update
    let t := v.writeN pa n new
    (o.rd = 0 → exec (p o) s = .next t.inSequence) ∧
    (o.rd ≠ 0 → exec (p o) s = .next ((t.schedule (s.cycle + 5) .blockingCompletion
      (.nats [s.curCore, s.curCl, s.cycle])).holding (t.blocking (p o) (s.x o.ra) [0, v.readN pa n, o.rd.toNat]))) := by
  subst hnew
  intro v t
  have hu := State.access_fill hacc
  obtain ⟨-, -, -, hcycle, hcore, hcl⟩ := u.reach_kept pa n .update
  obtain ⟨m, hwrite⟩ := v.writeN_eq pa n _
  have htc : t.cycle = s.cycle := (congrArg State.cycle hwrite).trans (hcycle.trans ((congrArg State.cycle hu).trans rfl))
  have htn : t.curCore = s.curCore := (congrArg State.curCore hwrite).trans (hcore.trans ((congrArg State.curCore hu).trans rfl))
  have htl : t.curCl = s.curCl := (congrArg State.curCl hwrite).trans (hcl.trans ((congrArg State.curCl hu).trans rfl))
  have hbody : atomBody f (p o) o s.fresh = if decide (o.rd ≠ 0) then
      .hold (t.completeIn 6) (t.blocking (p o) (s.x o.ra) [0, v.readN pa n, o.rd.toNat]) else .done t :=
    atomBody_own (s := s.fresh) hn hacc hc hk hm hown
  refine ⟨fun h0 => ?_, fun h0 => ?_⟩
  · exact (exec_atom hp o s).trans (State.issue_done h (hbody.trans (if_neg (by simp [h0]))))
  · refine (exec_atom hp o s).trans ((State.issue_hold h (hbody.trans (if_pos (decide_eq_true h0)))).trans ?_)
    rw [State.completeIn, htc, htn, htl]
    rfl

theorem atomicsOwnScratchpad : Claim.AtomicsOwnScratchpad := by
  intro p hp o s u e pa h n hacc hc hk hm hown
  obtain ⟨f, hf, hnew⟩ := atomTable_row hp
  exact exec_atom_own hf h rfl hacc hc hk hm hown (hnew n _ _ _)

/-- The new value of AFADD (R149). -/
theorem atomNew_fadd (dbl : Bool) (old v ex : Nat) :
    atomNew .fadd (if dbl then 8 else 4) old v ex =
      ((if dbl then Fmt.fp64 else Fmt.fp32).ofVal .rne (((if dbl then Fmt.fp64 else Fmt.fp32).value old).add false
        ((if dbl then Fmt.fp64 else Fmt.fp32).value (v % 2 ^ (8 * if dbl then 8 else 4))))).1 := by
  cases dbl <;> rfl

theorem atomicFloatAndPages : Claim.AtomicFloatAndPages := by
  refine ⟨?_, fun p hp o s u e pa h hacc => ?_⟩
  · intro o s u e pa h n f hacc hc hk hm hown
    exact exec_atom_own List.mem_cons_self h rfl hacc hc hk hm hown (atomNew_fadd o.dbl _ _ _)
  · obtain ⟨f, hf⟩ := atomRows_of_instr hp
    refine ⟨fun hc => ?_, fun hc hpage => ?_⟩
    · exact (exec_atom hf o s).trans (State.issue_trap h (atomBody_counter (s := s.fresh) rfl hacc hc))
    · exact (exec_atom hf o s).trans (State.issue_trap h (atomBody_prot (s := s.fresh) rfl hacc hc hpage))

theorem atomicsElsewhere : Claim.AtomicsElsewhere := by
  intro p hp o s u e pa h n hacc hc hk hm hh hown v args
  have hbody := atomBody_away (f := p.2) (i := p.1 o) (s := s.fresh) (n := n) rfl hacc hc hk hm hh hown
  have hnone : ∀ {c : Option Nat}, c = none → ¬ c.isSome = true := fun h => by simp [h]
  have hsome : ∀ {c : Option Nat}, c ≠ none → c.isSome = true := fun h => Option.isSome_iff_ne_none.mpr h
  have hret : o.rd ≠ 0 → decide (o.rd ≠ 0) = true := fun h => decide_eq_true h
  have hpost : o.rd = 0 → ¬ decide (o.rd ≠ 0) = true := fun h => by simp [h]
  refine ⟨fun hs h0 => ?_, fun a hs h0 ha => ?_, fun hs h0 ha => ?_, fun hs h0 => ?_, fun hs h0 => ?_⟩
  all_goals refine (exec_atom hp o s).trans ?_
  · exact State.issue_hold h (hbody.trans ((if_pos (hret h0)).trans (if_neg (hnone hs))))
  · refine State.issue_done h (hbody.trans ((if_neg (hpost h0)).trans ((if_neg (hnone hs)).trans ?_)))
    rw [show (u.reach pa n .update).target pa true = some a from ha]
    rfl
  · refine State.issue_done h (hbody.trans ((if_neg (hpost h0)).trans ((if_neg (hnone hs)).trans ?_)))
    rw [show (u.reach pa n .update).target pa true = none from ha]
    rfl
  · exact State.issue_hold h (hbody.trans ((if_pos (hret h0)).trans (if_pos (hsome hs))))
  · exact State.issue_done h (hbody.trans ((if_neg (hpost h0)).trans (if_pos (hsome hs))))

/-! ### At completion -/

/-- The operation of a code of Table 7-9. -/
theorem atomNew_ofCode (f n old v ex : Nat) (p : (AtomOps → Instr) × (Nat → Nat → Nat → Nat → Nat)) (hp : Claim.atomTable[f]? = some p) :
    atomNew (AtomFn.ofCode f) n old v ex = p.2 n old (v % 2 ^ (8 * n)) (ex % 2 ^ (8 * n)) := by
  have hlt : f < 10 := (List.getElem?_eq_some_iff.mp hp).1
  interval_cases f
  all_goals
    obtain rfl := Option.some.inj hp
    rfl

/-- The completion of an atomic that waits with its operands or its old value. -/
theorem complete_atom {p : AtomOps → Instr} (hp : p ∈ Instr.afadd :: Claim.atomTable.map Prod.fst) {o : AtomOps} {h : Hold}
    (hi : h.instr = p o) (hv : h.vals ≠ [1]) (s : State) : complete h s = s.closeWait h (atomDone h s) := by
  have hrow : complete h s = if h.vals = [1] then s else s.closeWait h (atomDone h s) := by
    rw [complete, hi]
    revert p
    simp only [Claim.atomTable, List.map_cons, List.map_nil, List.forall_mem_cons, implies_true, List.not_mem_nil, false_implies, and_self]
  rw [hrow, if_neg hv]

theorem atomicCompletes : Claim.AtomicCompletes := by
  refine ⟨atomNew_ofCode, fun p hp o s h hheld hi => ?_⟩
  obtain ⟨hact, hsince⟩ := hheld
  have hexec : h.vals ≠ [1] → exec .blockingCompletion s = .next (s.resumed.closeWait h (atomDone h s.resumed)) := fun hv =>
    (blockingCompletion_eq hact hsince).trans (congrArg _ (complete_atom hp hi hv _))
  refine ⟨fun old rd hv => ?_, fun n c t0 pa f w v ex rd am id ea ent hv => ⟨fun a ha => ?_, fun ha => ?_⟩⟩
  · rw [hexec (by simp [hv]), atomDone, hv]
    rfl
  · rw [hexec (by simp [hv]), atomDone, hv]
    have ha' : s.resumed.target pa true = some a := ha
    simp only [List.getD_cons_succ, List.getD_cons_zero, ha']
    rfl
  · rw [hexec (by simp [hv]), atomDone, hv]
    have ha' : s.resumed.target pa true = none := ha
    simp only [List.getD_cons_succ, List.getD_cons_zero, ha']
    rfl

/-! ### Messages (R165) -/

theorem atomicMessageArrives : Claim.AtomicMessageArrives := by
  intro s n c t0 pa f w v ex rd am id ea ent hev old t
  have hrow : exec .atomicMessageArrival s = execAtomicMessageArrival s := rfl
  refine ⟨fun h0 => ?_, fun h h0 hact hsince hk => ?_⟩
  · rw [hrow, execAtomicMessageArrival, hev]
    exact if_pos h0
  · have hhold : (t.cluster n c).hold? = some h := by
      obtain ⟨m, hm⟩ := s.writeN_eq pa w (atomNew (AtomFn.ofCode f) w old v ex)
      refine Cluster.hold?_waiting (Eq.trans ?_ hact)
      rw [show t = { s with mem := m } from hm]
      rfl
    rw [hrow, execAtomicMessageArrival, hev]
    refine (if_neg h0).trans ?_
    change (match (t.cluster n c).hold? with | some k => if k.since = t0 ∧ k.kind = WaitKind.blocking then _ else _ | none => _) = _
    rw [hhold]
    exact if_pos ⟨hsince, hk⟩

/-- Settles O22: the rows of Table 7-9 are one body, whose cases are stated once. The TRAPINFO of CNTSTORE and PROT is log entry 81, that a
posted atomic on device memory is performed at issue is log entry 26, that a waiting one reads at its completion is log entry 6. -/
theorem atomics : Obligations.Atomics :=
  ⟨atomicsOwnScratchpad, atomicFloatAndPages, atomicsElsewhere, atomicCompletes, atomicMessageArrives⟩

end Sys2Proof.Machine
end

section
/-!
The boundary of a gang and what crossing it commits, and the fences (R147, R148): O29.
-/

namespace Sys2Proof.Machine

/-! ### When a gang stands at its boundary -/

theorem mem_clusters {c : Nat} : c ∈ clusters ↔ c < 4 := by
  simp only [clusters, List.mem_cons, List.not_mem_nil, or_false]
  omega

theorem State.fillsPending_eq_false {s : State} {n c : Nat} : s.fillsPending n c = false ↔
    ∀ d ∈ s.agenda, d.row = .ldqFill → d.args.nat 0 = n → d.args.nat 5 ≠ c := by
  simp only [State.fillsPending, List.any_eq_false, Bool.and_eq_true, decide_eq_true_eq, not_and, ne_eq, and_imp]

theorem State.accessesDone_iff {s : State} {n c : Nat} : s.accessesDone n c = true ↔ (s.cluster n c).posted = [] ∧
    ∀ d ∈ s.agenda, d.row = .ldqFill → d.args.nat 0 = n → d.args.nat 5 ≠ c := by
  rw [State.accessesDone, Bool.and_eq_true, List.isEmpty_iff, Bool.not_eq_true', State.fillsPending_eq_false]

theorem State.atBoundary_iff (s : State) (n : Nat) : s.atBoundary n = true ↔ ∀ m ∈ s.gangOf n, ∀ c, c < 4 →
    (s.cluster m c).act = .exited ∨ ((s.cluster m c).arrived = true ∧ (s.cluster m c).posted = [] ∧
      ∀ d ∈ s.agenda, d.row = .ldqFill → d.args.nat 0 = m → d.args.nat 5 ≠ c) := by
  simp only [State.atBoundary, List.all_eq_true, mem_clusters, Bool.or_eq_true, Bool.and_eq_true, Cluster.exited, decide_eq_true_eq,
    State.accessesDone_iff]

theorem State.mem_gangOf {s : State} {n i m : Nat} (h : (s.core n).node = some i) :
    m ∈ s.gangOf n ↔ ∃ k, (m, k) ∈ s.cores ∧ k.node = some i := by
  simp only [State.gangOf, h, List.mem_map, List.mem_filter, decide_eq_true_eq]
  constructor
  · rintro ⟨⟨q, k⟩, ⟨hmem, hnode⟩, rfl⟩
    exact ⟨k, hmem, hnode⟩
  · rintro ⟨k, hmem, hnode⟩
    exact ⟨(m, k), ⟨hmem, hnode⟩, rfl⟩

theorem State.gangOf_nodup {s : State} (h : (s.cores.map fun e => e.1).Nodup) (n : Nat) : (s.gangOf n).Nodup := by
  unfold State.gangOf
  split
  · exact List.nodup_singleton n
  · exact h.sublist (List.filter_sublist.map _)

/-! ### Steps over the clusters of some cores -/

/-- The clusters of some cores, in ascending global cluster index. -/
def clustersOf (cores : List Nat) : List (Nat × Nat) := cores.flatMap fun m => clusters.map fun c => (m, c)

theorem mem_clustersOf {cores : List Nat} {m c : Nat} : (m, c) ∈ clustersOf cores ↔ m ∈ cores ∧ c < 4 := by
  simp only [clustersOf, List.mem_flatMap, List.mem_map, mem_clusters, Prod.mk.injEq]
  constructor
  · rintro ⟨a, ha, d, hd, rfl, rfl⟩
    exact ⟨ha, hd⟩
  · rintro ⟨hm, hc⟩
    exact ⟨m, hm, c, hc, rfl, rfl⟩

theorem clustersOf_nodup {cores : List Nat} (h : cores.Nodup) : (clustersOf cores).Nodup := by
  refine List.nodup_flatMap.mpr ⟨fun m _ => ?_, ?_⟩
  · exact (List.nodup_map_iff fun a b hab => (Prod.mk.inj hab).2).mpr (by decide)
  · refine h.imp fun {a b} hab => ?_
    intro p hpa hpb
    simp only [List.mem_map] at hpa hpb
    obtain ⟨_, _, rfl⟩ := hpa
    obtain ⟨_, _, hb⟩ := hpb
    exact hab (Prod.mk.inj hb).1.symm

theorem foldl_clustersOf (cores : List Nat) (f : State → Nat → Nat → State) (s : State) :
    cores.foldl (fun s m => clusters.foldl (fun s c => f s m c) s) s = (clustersOf cores).foldl (fun s p => f s p.1 p.2) s := by
  rw [clustersOf, List.foldl_flatMap]
  simp only [List.foldl_map]

/-- A step over different clusters, each of which changes its own cluster as `R` says and no other, changes all of them so. -/
theorem foldl_each_cluster {f : State → Nat × Nat → State} {R : Cluster → Cluster → Prop}
    (hown : ∀ s p, R (s.cluster p.1 p.2) ((f s p).cluster p.1 p.2))
    (hother : ∀ s p m d, (m, d) ≠ p → (f s p).cluster m d = s.cluster m d) {l : List (Nat × Nat)} (hl : l.Nodup) (s : State) :
    (∀ p ∈ l, R (s.cluster p.1 p.2) ((l.foldl f s).cluster p.1 p.2)) ∧
      ∀ m d, (m, d) ∉ l → (l.foldl f s).cluster m d = s.cluster m d := by
  induction l generalizing s with
  | nil => exact ⟨fun p hp => absurd hp List.not_mem_nil, fun _ _ _ => rfl⟩
  | cons q l ih =>
    obtain ⟨hq, hl⟩ := List.nodup_cons.mp hl
    obtain ⟨hin, hout⟩ := ih hl (f s q)
    refine ⟨fun p hp => ?_, fun m d hmd => ?_⟩
    · obtain rfl | hp := List.mem_cons.mp hp
      · rw [List.foldl_cons, hout _ _ hq]
        exact hown s p
      · have hne : (p.1, p.2) ≠ q := fun h => hq (h ▸ hp)
        rw [List.foldl_cons, ← hother s q p.1 p.2 hne]
        exact hin p hp
    · rw [List.mem_cons, not_or] at hmd
      obtain ⟨hne, hmd⟩ := hmd
      rw [List.foldl_cons, hout m d hmd, hother s q m d hne]

/-! ### The commit of buffered DT stores (R147, R253) -/

/-- A store of bytes by offset changes memory cell by cell, and nothing else. -/
theorem State.setCells_eq (s : State) (pa : Nat) (cells : List (Nat × Byte)) : s.setCells pa cells =
    { s with mem := cells.foldl (fun m x => SMap.set memDefault m (s.media (pa + x.1)) x.2) s.mem } := by
  induction cells generalizing s with
  | nil => rfl
  | cons x cells ih =>
    rw [State.setCells, List.foldl_cons, ← State.setCells, ih]
    rfl

/-- The state with some DT stores in memory, and their bursts counted. -/
def State.storeBuffer (s : State) (buf : List DtStore) : State :=
  buf.foldl (fun (s : State) d => (s.traffic d.pa d.size .write).setCells d.pa d.cells) s

theorem committed_congr {s t : State} (hmedia : ∀ q, t.media q = s.media q) {a : List DtStore} (hm : t.mem = Claim.committed s a)
    (l : List DtStore) : Claim.committed t l = Claim.committed s (a ++ l) := by
  simp only [Claim.committed, List.foldl_append, hmedia, hm]

theorem State.storeBuffer_kept (s : State) (buf : List DtStore) : (s.storeBuffer buf).mem = Claim.committed s buf ∧
    (∀ q, (s.storeBuffer buf).media q = s.media q) ∧ (s.storeBuffer buf).cores = s.cores := by
  induction buf generalizing s with
  | nil => exact ⟨rfl, fun _ => rfl, rfl⟩
  | cons d buf ih =>
    have hstep : (s.traffic d.pa d.size .write).setCells d.pa d.cells =
        { s with chanCtrs := (s.traffic d.pa d.size .write).chanCtrs, moves := (s.traffic d.pa d.size .write).moves,
                 mem := Claim.committed s [d] } := by
      rw [State.setCells_eq, State.traffic, State.bursts_eq]
      rfl
    obtain ⟨hmem, hmedia, hcores⟩ := ih ((s.traffic d.pa d.size .write).setCells d.pa d.cells)
    rw [State.storeBuffer, List.foldl_cons, ← State.storeBuffer]
    refine ⟨?_, fun q => (hmedia q).trans ?_, hcores.trans ?_⟩
    · rw [hmem, committed_congr (s := s) (a := [d]) (by rw [hstep]; exact fun _ => rfl) (by rw [hstep])]
      rfl
    · rw [hstep]
      rfl
    · rw [hstep]

/-- The commit of one cluster: its stores are in memory, and its buffer is empty. -/
theorem State.commitDt_kept (s : State) (n c : Nat) :
    (s.commitDt n c).mem = Claim.committed s (s.cluster n c).dtBuf ∧ (∀ q, (s.commitDt n c).media q = s.media q) ∧
      (s.commitDt n c).cluster n c = { s.cluster n c with dtBuf := [] } ∧
      (∀ m d, (m, d) ≠ (n, c) → (s.commitDt n c).cluster m d = s.cluster m d) ∧
      ∀ m, m ≠ n → (s.commitDt n c).core m = s.core m := by
  obtain ⟨hmem, hmedia, hcores⟩ := s.storeBuffer_kept (s.cluster n c).dtBuf
  have hcore : ∀ m, (s.storeBuffer (s.cluster n c).dtBuf).core m = s.core m := fun m => by rw [State.core, hcores]; rfl
  have hcluster : ∀ m d, (s.storeBuffer (s.cluster n c).dtBuf).cluster m d = s.cluster m d := fun m d => by
    rw [State.cluster, hcore]; rfl
  rw [State.commitDt, ← State.storeBuffer]
  split
  next hempty =>
    refine ⟨hmem, hmedia, ?_, fun m d _ => hcluster m d, fun m _ => hcore m⟩
    rw [hcluster, ← List.isEmpty_iff.mp hempty]
  next =>
    refine ⟨hmem, hmedia, ?_, fun m d h => ?_, fun m h => ?_⟩
    · rw [State.cluster_modCluster, hcluster]
    · rw [State.cluster_modCluster_other _ _ h, hcluster]
    · exact (State.core_modCore_other _ _ h).trans (hcore m)

theorem State.commitGang_mem {l : List (Nat × Nat)} (hl : l.Nodup) (s : State) :
    (l.foldl (fun s p => s.commitDt p.1 p.2) s).mem = Claim.committed s (l.flatMap fun p => (s.cluster p.1 p.2).dtBuf) := by
  induction l generalizing s with
  | nil => rfl
  | cons q l ih =>
    obtain ⟨hq, hl⟩ := List.nodup_cons.mp hl
    obtain ⟨hmem, hmedia, -, hother, -⟩ := s.commitDt_kept q.1 q.2
    have hrest : (l.flatMap fun p => ((s.commitDt q.1 q.2).cluster p.1 p.2).dtBuf) = l.flatMap fun p => (s.cluster p.1 p.2).dtBuf :=
      List.flatMap_congr fun p hp => by rw [hother p.1 p.2 fun h => hq ((show p = q from h) ▸ hp)]
    rw [List.foldl_cons, ih hl, hrest, committed_congr hmedia hmem, List.flatMap_cons]

/-! ### Crossing the boundary -/

/-- What the crossing does to a cluster of the gang: its QSYNC completes, and it has not arrived at the next boundary. -/
def Cluster.crossed (k j : Cluster) : Prop :=
  j.dtBuf = k.dtBuf ∧ j.arrived = false ∧ ∀ h, k.act = .waiting h → if h.kind = .qsync then j.act = .running else j.act = .waiting h

/-- A cluster leaves the boundary: its QSYNC, if it waits in one, completes. -/
def State.leave (s : State) (n c : Nat) : State := (s.leaveQsync n c).modCluster n c fun k => { k with arrived := false }

theorem State.leaveQsync_kept (s : State) (n c : Nat) :
    (s.leaveQsync n c).mem = s.mem ∧ ((s.leaveQsync n c).cluster n c).dtBuf = (s.cluster n c).dtBuf ∧
      (∀ h, (s.cluster n c).act = .waiting h → if h.kind = .qsync then ((s.leaveQsync n c).cluster n c).act = .running
        else ((s.leaveQsync n c).cluster n c).act = .waiting h) ∧
      (∀ m d, (m, d) ≠ (n, c) → (s.leaveQsync n c).cluster m d = s.cluster m d) ∧
      ∀ m, m ≠ n → (s.leaveQsync n c).core m = s.core m := by
  unfold State.leaveQsync
  split
  next h hh =>
    split
    next hk =>
      refine ⟨rfl, ?_, fun g hg => ?_, fun m d hmd => ?_, fun m hm => ?_⟩
      · rw [State.release, State.modMe, State.cluster_modCluster, Cluster.loopStep_eq]
        rfl
      · have hgh : g = h := Option.some.inj ((Cluster.hold?_waiting hg).symm.trans hh)
        rw [hgh, if_pos hk, State.release, State.modMe, State.cluster_modCluster]
      · exact State.cluster_modCluster_other (n := n) (c := c) _ _ hmd
      · exact State.core_modCore_other (n := n) _ _ hm
    next hk =>
      refine ⟨rfl, rfl, fun g hg => ?_, fun _ _ _ => rfl, fun _ _ => rfl⟩
      have hgh : g = h := Option.some.inj ((Cluster.hold?_waiting hg).symm.trans hh)
      rw [hgh, if_neg hk, ← hgh, hg]
  next hh =>
    refine ⟨rfl, rfl, fun g hg => ?_, fun _ _ _ => rfl, fun _ _ => rfl⟩
    exact absurd (Cluster.hold?_waiting hg) (by rw [hh]; exact Option.some_ne_none _ ∘ Eq.symm)

theorem State.leave_kept (s : State) (n c : Nat) :
    (s.leave n c).mem = s.mem ∧ (s.cluster n c).crossed ((s.leave n c).cluster n c) ∧
      (∀ m d, (m, d) ≠ (n, c) → (s.leave n c).cluster m d = s.cluster m d) ∧ ∀ m, m ≠ n → (s.leave n c).core m = s.core m := by
  obtain ⟨hmem, hbuf, hact, hcluster, hcore⟩ := s.leaveQsync_kept n c
  refine ⟨hmem, ?_, fun m d h => ?_, fun m h => ?_⟩
  · rw [State.leave, State.cluster_modCluster]
    exact ⟨hbuf, rfl, hact⟩
  · rw [State.leave, State.cluster_modCluster_other _ _ h, hcluster m d h]
  · exact (State.core_modCore_other _ _ h).trans (hcore m h)

theorem State.crossBoundary_eq (s : State) (n : Nat) : s.crossBoundary n =
    { (clustersOf (s.gangOf n)).foldl (fun s p => s.leave p.1 p.2)
        ((clustersOf (s.gangOf n)).foldl (fun s p => s.commitDt p.1 p.2) s) with curCore := s.curCore, curCl := s.curCl } := by
  rw [← foldl_clustersOf (s.gangOf n) State.commitDt, ← foldl_clustersOf (s.gangOf n) State.leave]
  rfl

theorem core_foldl_apart {f : State → Nat × Nat → State} (hf : ∀ s p m, m ≠ p.1 → (f s p).core m = s.core m) {m : Nat}
    {l : List (Nat × Nat)} (hm : ∀ p ∈ l, m ≠ p.1) (s : State) : (l.foldl f s).core m = s.core m := by
  induction l generalizing s with
  | nil => rfl
  | cons q l ih =>
    obtain ⟨hq, hl⟩ := List.forall_mem_cons.mp hm
    rw [List.foldl_cons, ih hl, hf s q m hq]

theorem boundaryCommits : Claim.BoundaryCommits := by
  refine ⟨State.atBoundary_iff, fun s n i m h => State.mem_gangOf h, fun s n hnodup => ?_⟩
  have hpairs := clustersOf_nodup (State.gangOf_nodup hnodup n)
  rw [State.crossBoundary_eq]
  obtain ⟨hcommit, -⟩ := foldl_each_cluster (R := fun k j => j = { k with dtBuf := [] })
    (fun s p => (s.commitDt_kept p.1 p.2).2.2.1) (fun s p => (s.commitDt_kept p.1 p.2).2.2.2.1) hpairs s
  obtain ⟨hleave, -⟩ := foldl_each_cluster (R := Cluster.crossed) (fun s p => (s.leave_kept p.1 p.2).2.1)
    (fun s p => (s.leave_kept p.1 p.2).2.2.1) hpairs ((clustersOf (s.gangOf n)).foldl (fun s p => s.commitDt p.1 p.2) s)
  refine ⟨?_, fun m hm c hc => ?_, fun m hm => ?_, rfl, rfl⟩
  · refine (foldl_keeps State.mem (fun s (p : Nat × Nat) => (s.leave_kept p.1 p.2).1) _ _).trans ((State.commitGang_mem hpairs s).trans ?_)
    rw [clustersOf, List.flatMap_assoc]
    rfl
  · have hp : (m, c) ∈ clustersOf (s.gangOf n) := mem_clustersOf.mpr ⟨hm, hc⟩
    have hbuf := hcommit (m, c) hp
    obtain ⟨hd, ha, hact⟩ := hleave (m, c) hp
    rw [hbuf] at hd hact
    exact ⟨hd, ha, hact⟩
  · have hne : ∀ p ∈ clustersOf (s.gangOf n), m ≠ p.1 := fun p hp h => hm (h ▸ (mem_clustersOf.mp hp).1)
    exact (core_foldl_apart (fun s p m h => (s.leave_kept p.1 p.2).2.2.2 m h) hne _).trans
      (core_foldl_apart (fun s p m h => (s.commitDt_kept p.1 p.2).2.2.2.2 m h) hne s)

/-! ### QSYNC (R147) -/

theorem quantumBoundary : Claim.QuantumBoundary := by
  intro s h hrep u
  have hbody : bodyQsync s.fresh = if u.atBoundary s.curCore then .done (u.crossBoundary s.curCore) else .hold u u.qsyncHold :=
    withReports_none (s := s.fresh) hrep _
  refine ⟨fun hb => State.issue_done h (hbody.trans (if_pos hb)), fun hb => State.issue_hold h (hbody.trans (if_neg (by simp [hb]))),
    fun r g hheld hi => ?_⟩
  obtain ⟨hact, hsince⟩ := hheld
  rw [blockingCompletion_eq hact hsince, complete, hi]
  rfl

/-! ### FENCE (R148) -/

theorem State.any_mineMessage_eq_false {s : State} : s.agenda.any s.mineMessage = false ↔ ∀ d ∈ s.agenda,
    d.row = .atomicMessageArrival → d.args.nat 0 = s.curCore → d.args.nat 1 = s.curCl → d.args.nat 8 ≠ 0 := by
  simp only [List.any_eq_false, State.mineMessage, Bool.and_eq_true, decide_eq_true_eq, not_and, ne_eq]

section
variable {s : State} {o : FenceOps}

theorem State.fenceMet_acquire (h : o.flavour = 1) :
    s.fenceMet o = (!s.fillsPending s.curCore s.curCl && !s.agenda.any s.mineMessage) := by
  rw [State.fenceMet, h]
  rfl

theorem State.fenceMet_release (h : o.flavour = 2) : s.fenceMet o = s.me.posted.isEmpty := by
  rw [State.fenceMet, h]
  rfl

theorem State.fenceMet_full (h1 : o.flavour ≠ 1) (h2 : o.flavour ≠ 2) : s.fenceMet o = s.accessesDone s.curCore s.curCl := by
  unfold State.fenceMet
  split
  next h => exact absurd (BitVec.eq_of_toNat_eq h) h1
  next h => exact absurd (BitVec.eq_of_toNat_eq h) h2
  next => rfl

/-- What a FENCE of the cluster under way finds performed is what its flavour and scope order. -/
theorem State.fenceMet_iff :
    (s.fenceMet o && decide (o.scope ≠ 4 ∨ s.me.posted = [])) = true ↔ Claim.fenceReady s s.curCore s.curCl o := by
  have hme : s.cluster s.curCore s.curCl = s.me := rfl
  unfold Claim.fenceReady
  rw [Bool.and_eq_true, decide_eq_true_eq, ← State.fillsPending_eq_false, ← State.any_mineMessage_eq_false, hme]
  by_cases h1 : o.flavour = 1
  · have h2 : o.flavour ≠ 2 := by rw [h1]; decide
    rw [State.fenceMet_acquire h1, Bool.and_eq_true, Bool.not_eq_true', Bool.not_eq_true']
    tauto
  · by_cases h2 : o.flavour = 2
    · rw [State.fenceMet_release h2, List.isEmpty_iff]
      tauto
    · rw [State.fenceMet_full h1 h2, State.accessesDone_iff, ← State.fillsPending_eq_false, hme]
      tauto

theorem fence_report (h : o.scope = 4 → s.me.mirrRep = none) : (if o.scope = 4 then s.me.storeReport else none) = none := by
  split
  next h4 => rw [Cluster.storeReport, h h4]; rfl
  next => rfl

theorem fence_reported {r : Nat × Word} (h4 : o.scope = 4) (hr : s.me.mirrRep = some r) :
    (if o.scope = 4 then s.me.storeReport else none) = some (r.1, r.2, { s.me with mirrRep := none }) := by
  rw [if_pos h4, Cluster.storeReport, hr]
  rfl

/-- A cluster set to what it is without its report of a failed store. -/
theorem State.modMe_congr {f g : Cluster → Cluster} (h : f s.me = g s.me) : s.modMe f = s.modMe g := by
  simp only [State.modMe, State.modCluster, State.modCore]
  exact congrArg (fun k => s.setCore s.curCore ((s.core s.curCore).setCluster s.curCl k)) h

theorem bodyFence_ready (hrep : o.scope = 4 → s.me.mirrRep = none) (h : Claim.fenceReady s s.curCore s.curCl o) :
    bodyFence o s = .done s := by
  simp only [bodyFence, fence_report hrep]
  exact if_pos (State.fenceMet_iff.mpr h)

theorem bodyFence_waits (hrep : o.scope = 4 → s.me.mirrRep = none) (h : ¬Claim.fenceReady s s.curCore s.curCl o) :
    bodyFence o s = .hold s { s.blocking (.fence o) 0 [] with kind := .fence } := by
  simp only [bodyFence, fence_report hrep]
  exact if_neg fun hm => h (State.fenceMet_iff.mp hm)

theorem bodyFence_reports {r : Nat × Word} (h4 : o.scope = 4) (hr : s.me.mirrRep = some r) :
    bodyFence o s = .trapWith (s.modMe fun c => { c with mirrRep := none }) r.1 r.2 := by
  simp only [bodyFence, fence_reported h4 hr]
  exact congrArg (fun t => Res.trapWith t r.1 r.2) (State.modMe_congr rfl)

end

theorem fences : Claim.Fences := by
  refine ⟨fun o s h => ⟨fun hrep hready => ?_, fun hrep hready => ?_, fun r h4 hr => ?_⟩, fun o s h hheld hi => ?_⟩
  · exact State.issue_done h (bodyFence_ready (s := s.fresh) hrep hready)
  · exact ⟨_, State.issue_hold h (bodyFence_waits (s := s.fresh) hrep hready), rfl, rfl⟩
  · exact State.issue_trapWith h (bodyFence_reports (s := s.fresh) h4 hr)
  · obtain ⟨hact, hsince⟩ := hheld
    have hexec : exec .blockingCompletion s = .next (fenceStep o h s.resumed) := by
      rw [blockingCompletion_eq hact hsince, complete, hi]
    intro u
    refine ⟨fun hrep hready => ?_, fun hrep hready => ?_, fun r h4 hr => ?_⟩
    · simp only [hexec, fenceStep, fence_report (s := s.resumed) hrep]
      exact congrArg _ (if_pos (State.fenceMet_iff.mpr hready))
    · simp only [hexec, fenceStep, fence_report (s := s.resumed) hrep]
      exact congrArg _ (if_neg fun hm => hready (State.fenceMet_iff.mp hm))
    · simp only [hexec, fenceStep, fence_reported (s := s.resumed) h4 hr]
      exact congrArg (fun t : State => Host.Outcome.next (t.trapHeld h r.1 r.2)) (State.modMe_congr rfl)

/-- Settles O29: the commit and the crossing cluster by cluster, the fences by what they find performed. That a release FENCE need not
wait for LDQ fills is log entry 6: their bytes are read at issue. -/
theorem ordering : Obligations.Ordering := ⟨boundaryCommits, quantumBoundary, fences⟩

end Sys2Proof.Machine
end

section
/-!
The marks of SPGUARD (R163): O30.
-/

namespace Sys2Proof.Machine

/-- Granules that are marked all alike hold that mark, and the others what they held. -/
theorem get_setAll_range (m : SMap Bool) (first count j : Nat) (mark : Bool) :
    SMap.get false (SMap.setAll false m ((List.range count).map fun i => (first + i, mark))) j =
      if first ≤ j ∧ j < first + count then mark else SMap.get false m j := by
  split
  next h =>
    refine SMap.get_setAll_mem false _ m ?_ ?_
    · rw [List.map_map]
      exact List.nodup_range.map fun a b hab => Nat.add_left_cancel hab
    · exact List.mem_map.mpr ⟨j - first, List.mem_range.mpr (by omega), by rw [Nat.add_sub_cancel' h.1]⟩
  next h =>
    refine SMap.get_setAll_other false _ m fun e he => ?_
    obtain ⟨i, hi, rfl⟩ := List.mem_map.mp he
    have := List.mem_range.mp hi
    show first + i ≠ j
    omega

/-- Settles O30, from the cases of the body of SPGUARD and the landing of its write. -/
theorem guardMarks : Obligations.GuardMarks := by
  intro o s u e pa h hacc g n
  have hacc' : s.fresh.access .load 256 (s.fresh.x o.ra) = .ok (u, e, pa) := hacc
  refine ⟨fun hbad => State.issue_trap h ?_, fun hown hroom => ?_, fun k j => get_setAll_range _ _ _ _ _⟩
  · simp only [bodySpguard, hacc']
    by_cases hown : u.own pa = true
    · have hpast : 16384 < g + n := hbad.resolve_left (by simp [hown])
      rw [hown]
      exact (if_neg (by decide)).trans (if_pos hpast)
    · rw [Bool.eq_false_iff.mpr hown]
      rfl
  · have hbody : bodySpguard o s.fresh = if n = 0 then .done u else .done (u.result 1 (.guard g n o.mark)) := by
      simp only [bodySpguard, hacc', hown]
      exact (if_neg (by decide)).trans (if_neg (Nat.not_lt.mpr hroom))
    split
    next h0 => exact State.issue_done h (hbody.trans (if_pos h0))
    next h0 => exact State.issue_done h (hbody.trans (if_neg h0))

end Sys2Proof.Machine
end

section
/-!
Translation maintenance: invalidations, their units and their end (R160, R161, R269): O41.
-/

namespace Sys2Proof.Machine

/-! ### An invalidation opens (R160, R269) -/

theorem inScope_iff {scope die u : Nat} : inScope scope die u = true ↔ 3 ≤ scope ∨ unitDie u = die := by
  simp only [inScope, Bool.or_eq_true, decide_eq_true_eq]

theorem Ticket.hitsPage_iff {t : Ticket} {a b z : Nat} : t.hitsPage a b z = true ↔
    (∀ x, t.asid = some x → x = a) ∧ t.len ≠ 0 ∧ b < t.lo + t.len ∧ t.lo < b + z := by
  have hasid : (match t.asid with | none => true | some x => decide (x = a)) = true ↔ ∀ x, t.asid = some x → x = a := by
    cases t.asid <;> simp
  rw [Ticket.hitsPage, Bool.and_eq_true, Bool.and_eq_true, Bool.and_eq_true, decide_eq_true_eq, decide_eq_true_eq, decide_eq_true_eq,
    and_assoc, and_assoc]
  exact and_congr_left' hasid

theorem State.mem_hitUnits {s : State} {die u : Nat} {t : Ticket} : u ∈ s.hitUnits die t ↔
    (3 ≤ t.scope ∨ unitDie u = die) ∧ ∃ l, (u, l) ∈ s.tlbs ∧ ∃ e ∈ l, t.hitsPage e.asid e.vbase e.size = true := by
  simp only [State.hitUnits, List.mem_map, List.mem_filter, Bool.and_eq_true, inScope_iff, List.any_eq_true, Ticket.hits]
  constructor
  · rintro ⟨⟨v, l⟩, ⟨hmem, hscope, he⟩, rfl⟩
    exact ⟨hscope, l, hmem, he⟩
  · rintro ⟨hscope, l, hmem, he⟩
    exact ⟨(u, l), ⟨hmem, hscope, he⟩, rfl⟩

/-- The units that must acknowledge: those that hold an entry, and those with an access in flight under one. -/
theorem State.mem_hitUnits_or_busyUnits {s : State} {die u : Nat} {t : Ticket} : u ∈ s.hitUnits die t ++ s.busyUnits die t ↔
    u ∈ s.hitUnits die t ∨ ((3 ≤ t.scope ∨ unitDie u = die) ∧
      ∃ x ∈ s.flights, x.unit = u ∧ t.hitsPage x.asid x.base x.size = true) := by
  rw [List.mem_append]
  by_cases hu : u ∈ s.hitUnits die t
  · simp [hu]
  · simp only [hu, false_or, State.busyUnits, List.mem_eraseDups, List.mem_filter, List.mem_map, Bool.and_eq_true, inScope_iff,
      Ticket.hitsUse, List.contains_eq_mem, decide_false, Bool.not_false, and_true]
    constructor
    · rintro ⟨x, ⟨hx, hscope, hhit⟩, rfl⟩
      exact ⟨hscope, x, hx, rfl, hhit⟩
    · rintro ⟨hscope, x, hx, rfl, hhit⟩
      exact ⟨x, ⟨hx, hscope, hhit⟩, rfl⟩

/-- `t` is `s` but for what is due, and for the times that have been chosen. -/
def State.OnlyDue (s t : State) : Prop := ∃ agenda times, t = { s with agenda := agenda, times := times }

theorem State.OnlyDue.foldl_scheduleOpen {s t : State} (h : s.OnlyDue t) {α : Type} (l : List α) (least : Nat) (row : Instr)
    (args : α → EvArgs) : s.OnlyDue (l.foldl (fun s a => s.scheduleOpen least row (args a)) t) := by
  induction l generalizing t with
  | nil => exact h
  | cons a l ih =>
    obtain ⟨agenda, times, rfl⟩ := h
    exact ih ⟨_, _, rfl⟩

/-- The ticket of an invalidation. -/
def State.opened (s : State) (core cl die : Nat) (asid : Option Nat) (lo len scope : Nat) : Ticket :=
  let t : Ticket :=
    { id := s.nextId, core := core, cl := cl, asid := asid, lo := lo, len := len, scope := scope, undropped := [],
      unacked := [], doneAt := none }
  let us := s.hitUnits die t
  let bs := s.busyUnits die t
  { t with undropped := us, unacked := us ++ bs, doneAt := if (us ++ bs).isEmpty then some s.cycle else none }

/-- An invalidation opens its ticket and schedules what its units do. -/
theorem State.invalidate_onlyDue (s : State) (core cl die : Nat) (asid : Option Nat) (lo len scope : Nat) :
    State.OnlyDue { s with nextId := s.nextId + 1, tickets := s.tickets ++ [s.opened core cl die asid lo len scope] }
      (s.invalidate core cl die asid lo len scope) :=
  State.OnlyDue.foldl_scheduleOpen (State.OnlyDue.foldl_scheduleOpen ⟨_, _, rfl⟩ _ _ _ _) _ _ _ _

theorem invalidationOpens : Claim.InvalidationOpens := by
  intro s core cl die lo len scope asid hit inS t
  obtain ⟨agenda, times, ht⟩ := s.invalidate_onlyDue core cl die asid lo len scope
  have ht' : t = _ := ht
  rw [ht']
  refine ⟨s.opened core cl die asid lo len scope, rfl, rfl, rfl, fun u => ?_, fun u => ?_, fun h => if_pos (List.isEmpty_iff.mpr h),
    fun h => if_neg fun he => h (List.isEmpty_iff.mp he), rfl, rfl, rfl⟩
  · refine State.mem_hitUnits.trans (and_congr_right fun _ => ?_)
    simp only [Ticket.hitsPage_iff]
    exact Iff.rfl
  · refine State.mem_hitUnits_or_busyUnits.trans (or_congr Iff.rfl (and_congr_right fun _ => ?_))
    simp only [Ticket.hitsPage_iff]
    exact Iff.rfl

/-! ### TLBI and TLBSYNC (R160, R161) -/

theorem tlbi_opens {o : TlbiOps} {s : State} (h : s.issues (.tlbi o)) :
    ∃ (t : State) (k : Ticket), exec (.tlbi o) s = .next t.inSequence ∧ t.tickets = s.tickets ++ [k] ∧ k.id = s.nextId ∧
      k.lo = (s.x o.ra).toNat ∧ k.len = (s.x o.rb).toNat ∧ k.scope = o.scope.toNat ∧
      k.asid = (if o.all then none else some o.asid.toNat) ∧ t.me.tlbis = s.me.tlbis ++ [s.nextId] ∧ t.tlbs = s.tlbs ∧ t.mem = s.mem := by
  obtain ⟨agenda, times, hinv⟩ := s.fresh.invalidate_onlyDue s.curCore s.curCl (coreDie s.curCore)
    (if o.all then none else some o.asid.toNat) (s.x o.ra).toNat (s.x o.rb).toNat o.scope.toNat
  have hbody : bodyTlbi o s.fresh = .done ((s.fresh.invalidate s.curCore s.curCl (coreDie s.curCore)
      (if o.all then none else some o.asid.toNat) (s.x o.ra).toNat (s.x o.rb).toNat o.scope.toNat).modMe
        fun c => { c with tlbis := c.tlbis ++ [s.nextId] }) := rfl
  rw [hinv] at hbody
  refine ⟨_, _, State.issue_done h hbody, rfl, rfl, rfl, rfl, rfl, rfl, ?_, rfl, rfl⟩
  rw [State.me_modMe]
  rfl

theorem State.ticketsDone_iff {s : State} {ids : List Nat} : s.ticketsDone ids = true ↔
    ∀ i ∈ ids, ∀ t, s.ticket i = some t → ∃ c, t.doneAt = some c ∧ c < s.cycle := by
  rw [State.ticketsDone, List.all_eq_true]
  refine forall₂_congr fun i _ => ?_
  cases s.ticket i with
  | none => simp
  | some t => cases h : t.doneAt <;> simp [h]

/-- With no waiter on a page unmapped by one of them, the end of some invalidations only forgets them. -/
theorem State.syncTickets_unwaited {s : State} {ids : List Nat}
    (h : ∀ e ∈ s.cores, ∀ x ∈ e.2.cl, ∀ h, x.2.hold? = some h → ∀ p i, h.kind = .unmapped p i → i ∉ ids) :
    s.syncTickets ids = { s with tickets := s.tickets.filter fun t => !ids.contains t.id } := by
  unfold State.syncTickets
  refine Eq.trans (congrArg (List.foldl _ _) (?_ : _ = [])) rfl
  refine List.flatMap_eq_nil_iff.mpr fun e he => List.filterMap_eq_nil_iff.mpr fun x hx => ?_
  split
  next g hg =>
    split
    next p i hk => exact if_neg (by simpa using h e he x hx g hg p i hk)
    next => rfl
  next => rfl

theorem State.onlyTraps_me_tlbis {s t : State} (h : s.OnlyTraps t) : t.curCore = s.curCore ∧ t.curCl = s.curCl ∧ t.tlbs = s.tlbs := by
  rw [State.OnlyTraps] at h
  rw [h]
  exact ⟨rfl, rfl, rfl⟩

/-- The body of a TLBSYNC whose scope covers the open invalidations of its cluster. -/
theorem bodyTlbsync_covered {s : State} (hscope : 2 ≤ s.ir % 8) (hopen : ∀ t ∈ s.tickets, t.id ∈ s.me.tlbis → t.scope ≤ s.ir % 8) :
    bodyTlbsync s = if s.ticketsDone s.me.tlbis then .done ((s.syncTickets s.me.tlbis).modMe fun c => { c with tlbis := [] })
      else .hold s { s.blocking .tlbsync 0 [] with kind := .tlbsync } := by
  have hno : ¬ (s.ir % 8 < 2 ∨ (s.tickets.filter fun t => s.me.tlbis.contains t.id).any (fun t => decide (s.ir % 8 < t.scope)) = true) := by
    rintro (hlow | hlow)
    · omega
    · obtain ⟨t, ht, hlt⟩ := List.any_eq_true.mp hlow
      obtain ⟨hmem, hid⟩ := List.mem_filter.mp ht
      have hle := hopen t hmem (List.contains_iff_mem.mp hid)
      have := of_decide_eq_true hlt
      omega
  exact if_neg hno

theorem bodyTlbsync_uncovered {s : State} (h : s.ir % 8 < 2 ∨ ∃ t ∈ s.tickets, t.id ∈ s.me.tlbis ∧ s.ir % 8 < t.scope) :
    bodyTlbsync s = .trap cILLFLD 0 := by
  refine if_pos (h.imp_right fun ⟨t, hmem, hid, hlt⟩ => ?_)
  exact List.any_eq_true.mpr ⟨t, List.mem_filter.mpr ⟨hmem, List.contains_iff_mem.mpr hid⟩, decide_eq_true hlt⟩

theorem invalidateAndSync : Claim.InvalidateAndSync := by
  refine ⟨fun o s h _ _ => tlbi_opens h, fun s h hscope hopen => ⟨fun hdone => ?_, fun i hi t ht hlate => ?_⟩,
    fun s h hbad => State.issue_trap h (bodyTlbsync_uncovered (s := s.fresh) hbad)⟩
  · intro left
    have hbody : bodyTlbsync s.fresh = .done ((s.fresh.syncTickets s.me.tlbis).modMe fun c => { c with tlbis := [] }) :=
      (bodyTlbsync_covered (s := s.fresh) hscope hopen).trans (if_pos (State.ticketsDone_iff (s := s.fresh).mpr hdone))
    have htraps := s.fresh.syncTickets_onlyTraps s.me.tlbis
    refine ⟨⟨_, State.issue_done h hbody, htraps.tickets, ?_, htraps.mem, ?_⟩, fun hno => ?_⟩
    · rw [State.me_modMe]
    · exact (State.onlyTraps_me_tlbis htraps).2.2
    · rw [State.syncTickets_unwaited (s := s.fresh) hno] at hbody
      exact State.issue_done h hbody
  · have hopen' : ¬ s.fresh.ticketsDone s.fresh.me.tlbis = true := fun hd => by
      obtain ⟨c, hc, hlt⟩ := State.ticketsDone_iff.mp hd i hi t ht
      exact absurd (hlate c hc) (Nat.not_le.mpr hlt)
    exact ⟨_, State.issue_hold h ((bodyTlbsync_covered (s := s.fresh) hscope hopen).trans (if_neg hopen')), rfl, rfl, rfl⟩

/-! ### The dropping of entries (R269) -/

/-- The unit drops its entries, a waiter on a page that is gone learns of it, and its answer is due later. -/
theorem exec_tlbEntryDrop {s : State} {u id : Nat} {k : Ticket} (hev : s.ev = .nats [u, id]) (hk : s.ticket id = some k)
    (hu : u ∈ k.undropped) : ∃ t : State, exec .tlbEntryDrop s = .next (t.scheduleOpen 1 .tlbiAcknowledge (.nats [u, k.id])) ∧
      t.tlbs = (s.dropHits u k).tlbs ∧ t.mem = s.mem ∧ t.cycle = s.cycle := by
  let d := (s.dropHits u k).modTicket k.id fun t => { t with undropped := t.undropped.filter fun x => decide (x ≠ u) }
  have hexec : exec .tlbEntryDrop s = .next ((if u < 1000 then
      d.modCore u fun c => { c with cl := c.cl.map fun e => (e.1, d.unmapWaiter u k e.2) } else d).scheduleOpen 1 .tlbiAcknowledge
        (.nats [u, k.id])) := by
    show execTlbEntryDrop s = _
    have hno : (!k.undropped.contains u) = false := by simpa using hu
    simp only [execTlbEntryDrop, hev, EvArgs.nat, List.getD_cons_zero, List.getD_cons_succ, hk, hno]
    rfl
  refine ⟨_, hexec, ?_⟩
  split <;> exact ⟨rfl, rfl, rfl⟩

theorem entriesDropped : Claim.EntriesDropped := by
  intro s u id k hev hk hid hu
  obtain ⟨t, hexec, htlbs, hmem, hcycle⟩ := exec_tlbEntryDrop hev hk hu
  have hdue := t.due_scheduleOpen Nat.one_pos .tlbiAcknowledge (.nats [u, k.id])
  rw [hcycle, hid] at hdue
  have htlbs' : (t.scheduleOpen 1 .tlbiAcknowledge (.nats [u, k.id])).tlbs =
    SMap.set [] s.tlbs u ((SMap.get [] s.tlbs u).filter fun e => !k.hits e) := htlbs
  refine ⟨_, hexec, ?_, fun v hv => ?_, hmem, by rw [hid]; exact hdue⟩
  · rw [htlbs', SMap.get_set_same]
  · rw [htlbs', SMap.get_set_other _ _ _ hv]

/-- Settles O41: the tickets of invalidations from what opens them, waits for them and drops their entries. -/
theorem translationMaintenance : Obligations.TranslationMaintenance := ⟨invalidateAndSync, invalidationOpens, entriesDropped⟩

end Sys2Proof.Machine
end

section
/-!
The instructions that speak to the engines: EPUSH, ESTART, RENQ, EFLUSH and TCFG (R152, R205, R218-R220): O40.
-/

namespace Sys2Proof.Machine

/-! ### Queues and their changes -/

theorem Core.queue_setQueue_same (k : Core) (q : Nat) (l : List QCmd) : (k.setQueue q l).queue q = l := by
  rcases q with _ | _ | q <;> rfl

theorem Core.queue_setQueue_other (k : Core) {q r : Nat} (l : List QCmd) (hq : q < 3) (hr : r < 3) (h : r ≠ q) :
    (k.setQueue q l).queue r = k.queue r := by
  match q, r, h with
  | 0, 0, h | 1, 1, h | 2, 2, h => exact absurd rfl h
  | 0, 1, _ | 0, 2, _ | 1, 0, _ | 1, 2, _ | 2, 0, _ | 2, 1, _ => rfl
  | q + 3, _, _ | _, r + 3, _ => omega

theorem SMap.erase_erase_same {α : Type} (m : SMap α) (k : Nat) : SMap.erase (SMap.erase m k) k = SMap.erase m k := by
  induction m with
  | nil => rfl
  | cons e t ih =>
    by_cases h : e.1 = k
    · simp only [SMap.erase, h, if_true, ih]
    · simp only [SMap.erase, h, if_false, ih]

theorem SMap.erase_insert_same {α : Type} (m : SMap α) (k : Nat) (v : α) : SMap.erase (SMap.insert m k v) k = SMap.erase m k := by
  induction m with
  | nil => simp only [SMap.insert, SMap.erase, if_true]
  | cons e t ih =>
    by_cases h : e.1 < k
    · simp only [SMap.insert, SMap.erase, h, Nat.ne_of_lt h, if_true, if_false, ih]
    · rw [SMap.insert, if_neg h, SMap.erase, if_pos rfl]

/-- Of two writes at one key the last one stays. -/
theorem SMap.set_set_same {α : Type} [DecidableEq α] (d : α) (m : SMap α) (k : Nat) (v w : α) :
    SMap.set d (SMap.set d m k v) k w = SMap.set d m k w := by
  have h : SMap.erase (SMap.set d m k v) k = SMap.erase m k := by
    unfold SMap.set
    split
    · exact SMap.erase_erase_same m k
    · rw [SMap.erase_insert_same, SMap.erase_erase_same]
  rw [SMap.set, h, SMap.set]

theorem State.modCore_modCore (s : State) (n : Nat) (f g : Core → Core) :
    (s.modCore n f).modCore n g = s.modCore n fun k => g (f k) := by
  unfold State.modCore State.setCore
  simp only [State.core, SMap.get_set_same, SMap.set_set_same]

theorem State.modCore_congr {s : State} {n : Nat} {f g : Core → Core} (h : f (s.core n) = g (s.core n)) : s.modCore n f = s.modCore n g :=
  congrArg (s.setCore n) h

theorem State.landMine_eq (s : State) : s.landMine = { s with agenda := s.landMine.agenda } := s.hasten_eq _

theorem State.myCore_landMine (s : State) : s.landMine.myCore = s.myCore := by
  rw [State.landMine_eq]
  rfl

/-- A result that is to land changes nothing of its core but what is in flight. -/
theorem State.myCore_land (s : State) (cl due : Nat) (w : Write) :
    (s.land s.curCore cl due w).myCore =
      { s.myCore with inflight := s.myCore.inflight ++ [{ due := due, iss := s.cycle, cl := cl, w := w }] } :=
  s.core_modCore s.curCore _

/-! ### EPUSH (R218) -/

theorem enterCheck_ok {t : Word} {q w : Nat} {c : EngCmd} (hd : decodeCmd w = some c) (hq : EngOp.inQueue c.op q = true)
    (ht : EngOp.pastT31 t c.op = false) : enterCheck t q w = .ok c := by
  simp [enterCheck, hd, hq, ht]

theorem enterCheck_undecoded {t : Word} {q w : Nat} (hd : decodeCmd w = none) : enterCheck t q w = .error (cENGILL, 0) := by
  simp [enterCheck, hd]

/-- A command that enters a queue stands at its tail; the lock counts of what it reads are in flight. -/
theorem State.enterQueue_core (s : State) (q : Nat) (c : EngCmd) (sect : Option Nat) (stream : Nat) (origin : Word) :
    ∃ l, s.enterQueue q c sect stream origin = s.modMyCore fun k => ({ k with inflight := l } : Core).setQueue q (k.queue q ++
      [{ cmd := c, placed := s.cycle, sect := sect, stream := stream, origin := origin, resume := none }]) := by
  unfold State.enterQueue
  dsimp only
  split
  · exact ⟨s.myCore.inflight, State.modCore_congr rfl⟩
  · refine ⟨s.myCore.inflight ++ [{ due := s.cycle, iss := s.cycle, cl := 4, w := .lock (EngOp.sources s.myCore.tcb c.op) true }], ?_⟩
    unfold State.land State.landAs State.modMyCore
    exact (s.modCore_modCore s.curCore _ _).trans (State.modCore_congr rfl)

theorem State.enterQueue_queue (s : State) (q : Nat) (c : EngCmd) (sect : Option Nat) (stream : Nat) (origin : Word) :
    ∃ x : QCmd, (s.enterQueue q c sect stream origin).myCore.queue q = s.myCore.queue q ++ [x] ∧ x.cmd = c ∧ x.placed = s.cycle ∧
      (s.enterQueue q c sect stream origin).mem = s.mem ∧ (s.enterQueue q c sect stream origin).faults = s.faults := by
  let x : QCmd := { cmd := c, placed := s.cycle, sect := sect, stream := stream, origin := origin, resume := none }
  obtain ⟨l, h⟩ := s.enterQueue_core q c sect stream origin
  rw [h]
  refine ⟨x, ?_, rfl, rfl, rfl, rfl⟩
  rw [State.myCore_modMyCore, Core.queue_setQueue_same]

theorem bodyEpush_ok {o : EpushOps} {s : State} {c : EngCmd} (ha : s.myCore.accepts o.queue.toNat = true)
    (hc : enterCheck s.myCore.tcb o.queue.toNat ((s.x o.a).toNat * 2 ^ 32 + (s.x o.b).toNat % 2 ^ 32) = .ok c) :
    bodyEpush o s = .done (s.landMine.enterQueue o.queue.toNat c none 0 (w64 s.curCl)) := by
  simp only [bodyEpush, ha, hc, Bool.not_true, Bool.false_eq_true, if_false]

theorem bodyEpush_error {o : EpushOps} {s : State} {e : Nat × Word} (ha : s.myCore.accepts o.queue.toNat = true)
    (hc : enterCheck s.myCore.tcb o.queue.toNat ((s.x o.a).toNat * 2 ^ 32 + (s.x o.b).toNat % 2 ^ 32) = .error e) :
    bodyEpush o s = .done (s.engFault s.curCore (queueUnit o.queue.toNat) e.1 e.2
      ((s.x o.a).toNat * 2 ^ 32 + (s.x o.b).toNat % 2 ^ 32) s.curCl 0) := by
  simp only [bodyEpush, ha, hc, Bool.not_true, Bool.false_eq_true, if_false]

theorem bodyEpush_full {o : EpushOps} {s : State} (ha : s.myCore.accepts o.queue.toNat = false) :
    bodyEpush o s = .stall (.engQueue o.queue.toNat) := by
  simp [bodyEpush, ha]

theorem epush_enters {o : EpushOps} {s : State} {c : EngCmd} (h : s.issues (.epush o)) (ha : s.myCore.accepts o.queue.toNat = true)
    (hc : enterCheck s.myCore.tcb o.queue.toNat ((s.x o.a).toNat * 2 ^ 32 + (s.x o.b).toNat % 2 ^ 32) = .ok c) :
    ∃ (t : State) (q : QCmd), exec (.epush o) s = .next t.inSequence ∧
      t.myCore.queue o.queue.toNat = s.myCore.queue o.queue.toNat ++ [q] ∧ q.cmd = c ∧ q.placed = s.cycle ∧ t.mem = s.fresh.landMine.mem ∧
      t.faults = s.faults := by
  obtain ⟨x, hqueue, hcmd, hplaced, hmem, hfaults⟩ :=
    s.fresh.landMine.enterQueue_queue o.queue.toNat c none 0 (w64 s.curCl)
  refine ⟨_, x, State.issue_done h (bodyEpush_ok (s := s.fresh) ha hc), ?_, hcmd, ?_, hmem, ?_⟩
  · rw [State.myCore_landMine] at hqueue
    exact hqueue
  · rw [hplaced, State.landMine_eq]
    rfl
  · rw [State.landMine_eq] at hfaults ⊢
    exact hfaults

/-! ### The inbox (R152, R219) -/

theorem State.placeInbox_landMine {u : State} {n rank : Nat} (ea : Word) (h : (u.core n).inbox.length + u.inboxAhead n rank < 8) :
    u.landMine.placeInbox n rank ea =
      .done (u.landMine.modCore n fun k => { k with inbox := k.inbox ++ [{ addr := ea, placed := u.cycle }] }) := by
  rw [State.landMine_eq]
  exact if_pos h

theorem bodyEstart_ok {o : XOnly} {s u : State} {e : TlbEntry} {pa : Nat} (h : s.access .load 8 (s.x o.a) = .ok (u, e, pa)) :
    bodyEstart o s = u.landMine.placeInbox u.curCore u.myCore.grank.toNat (s.x o.a) := by
  simp only [bodyEstart, h]

theorem bodyRenq_ok {o : RenqOps} {s u : State} {e : TlbEntry} {pa n : Nat} (h : s.access .load 8 (s.x o.ra) = .ok (u, e, pa))
    (hown : u.own pa = true) (hsize : (s.x o.rb).toNat < u.myCore.gangSize) (hcore : u.rankCore (s.x o.rb).toNat = some n) :
    bodyRenq o s = u.landMine.placeInbox n (s.x o.rb).toNat (s.x o.ra) := by
  simp [bodyRenq, h, hown, hcore, Nat.not_le.mpr hsize]

/-! ### EFLUSH (R220) -/

theorem mem_flushQueues {mask q : Nat} : q ∈ flushQueues mask ↔ q < 3 ∧ mask.testBit q = true := by
  rw [flushQueues, List.mem_filter, List.mem_range]

/-- Discarding empties the queues of a list and leaves the others, the inbox, the tokens and what has issued. -/
theorem Core.foldl_discardQueue (l : List Nat) (hl : ∀ q ∈ l, q < 3) (k : Core) :
    (∀ q, q < 3 → (l.foldl Core.discardQueue k).queue q = if q ∈ l then [] else k.queue q) ∧
      (l.foldl Core.discardQueue k).inbox = k.inbox ∧ (l.foldl Core.discardQueue k).tokens = k.tokens ∧
      (l.foldl Core.discardQueue k).freshTokens = k.freshTokens ∧ (l.foldl Core.discardQueue k).issued = k.issued := by
  induction l generalizing k with
  | nil => exact ⟨fun q _ => rfl, rfl, rfl, rfl, rfl⟩
  | cons r l ih =>
    obtain ⟨hr, hl'⟩ := List.forall_mem_cons.mp hl
    obtain ⟨hqueue, hinbox, htokens, hfresh, hissued⟩ := ih hl' (k.discardQueue r)
    have hkeep : (k.setQueue r []).inbox = k.inbox ∧ (k.setQueue r []).tokens = k.tokens ∧
        (k.setQueue r []).freshTokens = k.freshTokens ∧ (k.setQueue r []).issued = k.issued := by
      rcases r with _ | _ | r <;> exact ⟨rfl, rfl, rfl, rfl⟩
    obtain ⟨kinbox, ktokens, kfresh, kissued⟩ := hkeep
    refine ⟨fun q hq => ?_, hinbox.trans kinbox, htokens.trans ktokens, hfresh.trans kfresh, hissued.trans kissued⟩
    have hone : (k.discardQueue r).queue q = (k.setQueue r []).queue q := rfl
    rw [List.foldl_cons, hqueue q hq, hone]
    by_cases hqr : q = r
    · rw [hqr, Core.queue_setQueue_same, ite_self, if_pos (List.mem_cons_self ..)]
    · rw [Core.queue_setQueue_other k [] hr hq hqr]
      simp only [List.mem_cons, hqr, false_or]

/-- What EFLUSH discards at issue, and what it leaves. -/
theorem Core.flush_parts (k : Core) (mask : Nat) :
    (∀ q, q < 3 → (k.flush mask).queue q = if mask.testBit q then [] else k.queue q) ∧
      (k.flush mask).inbox = (if mask.testBit 3 then [] else k.inbox) ∧ (k.flush mask).tokens = k.tokens ∧
      (k.flush mask).freshTokens = k.freshTokens ∧ (k.flush mask).issued = k.issued := by
  obtain ⟨hqueue, hinbox, htokens, hfresh, hissued⟩ :=
    Core.foldl_discardQueue (flushQueues mask) (fun q hq => (mem_flushQueues.mp hq).1) k
  have hqueue' : ∀ q, q < 3 → ((flushQueues mask).foldl Core.discardQueue k).queue q = if mask.testBit q then [] else k.queue q :=
    fun q hq => (hqueue q hq).trans (if_congr (by rw [mem_flushQueues]; simp [hq]) rfl rfl)
  have hstop : ∀ k : Core, k.stopStream.queue = k.queue ∧ k.stopStream.tokens = k.tokens ∧ k.stopStream.freshTokens = k.freshTokens ∧
      k.stopStream.issued = k.issued := by
    intro k
    unfold Core.stopStream
    split <;> exact ⟨rfl, rfl, rfl, rfl⟩
  obtain ⟨squeue, stokens, sfresh, sissued⟩ := hstop ((flushQueues mask).foldl Core.discardQueue k)
  by_cases h3 : mask.testBit 3 = true
  · rw [Core.flush, if_pos h3, if_pos h3]
    exact ⟨fun q hq => (congrFun squeue q).trans (hqueue' q hq), rfl, stokens.trans htokens, sfresh.trans hfresh, sissued.trans hissued⟩
  · rw [Core.flush, if_neg h3, if_neg h3]
    exact ⟨hqueue', hinbox, htokens, hfresh, hissued⟩

theorem Core.flushTokens_parts (k : Core) (mask : Nat) :
    (k.flushTokens mask).queue = k.queue ∧ (k.flushTokens mask).inbox = k.inbox ∧
      (k.flushTokens mask).tokens = (if mask.testBit 4 then [] else k.tokens) ∧
      (k.flushTokens mask).freshTokens = (if mask.testBit 4 then [] else k.freshTokens) := by
  unfold Core.flushTokens
  split <;> exact ⟨rfl, rfl, rfl, rfl⟩

/-- The commands that EFLUSH waits for: those of the selected queues that have issued. -/
theorem Core.toRetire_eq (k : Core) (mask : Nat) :
    k.toRetire mask = (k.issued.filter fun i => decide (i.queue < 3) && mask.testBit i.queue).map fun i => i.r.order := by
  refine congrArg (List.map _) (List.filter_congr fun i _ => ?_)
  rw [Bool.eq_iff_iff, List.contains_iff_mem, mem_flushQueues, Bool.and_eq_true, decide_eq_true_eq]

/-- The state of an EFLUSH at issue, behind the lock counts that fall. -/
def State.unlocked (s : State) (mask : Nat) : State :=
  if (s.myCore.lostLocks mask).isEmpty then s else s.land s.curCore 4 s.cycle (.lock (s.myCore.lostLocks mask) false)

theorem State.unlocked_eq (s : State) (mask : Nat) : ∃ l, (s.unlocked mask).myCore = { s.myCore with inflight := l } ∧
    (s.unlocked mask).mem = s.mem := by
  unfold State.unlocked
  split
  · exact ⟨s.myCore.inflight, rfl, rfl⟩
  · exact ⟨_, s.myCore_land _ _ _, rfl⟩

theorem bodyEflush_eq (o : EflushOps) (s : State) : bodyEflush o s =
    (let t := (s.unlocked o.mask.toNat).modMyCore fun k => k.flush o.mask.toNat
     let l := t.myCore.toRetire o.mask.toNat
     if l.isEmpty then .done (t.modMyCore fun k => k.flushTokens o.mask.toNat)
     else .hold t (t.blocking (.eflush o) 0 (o.mask.toNat :: l))) := rfl

/-- The core behind the discarding of an EFLUSH. -/
theorem State.flushed_parts (s : State) (mask : Nat) :
    let t := (s.unlocked mask).modMyCore fun k => k.flush mask
    (∀ q, q < 3 → t.myCore.queue q = if mask.testBit q then [] else s.myCore.queue q) ∧
      t.myCore.inbox = (if mask.testBit 3 then [] else s.myCore.inbox) ∧ t.myCore.tokens = s.myCore.tokens ∧
      t.myCore.freshTokens = s.myCore.freshTokens ∧ t.myCore.issued = s.myCore.issued ∧ t.mem = s.mem := by
  intro t
  obtain ⟨l, hcore, hmem⟩ := s.unlocked_eq mask
  have ht : t.myCore = ({ s.myCore with inflight := l } : Core).flush mask := by
    rw [State.myCore_modMyCore, hcore]
  obtain ⟨hqueue, hinbox, htokens, hfresh, hissued⟩ := ({ s.myCore with inflight := l } : Core).flush_parts mask
  rw [ht]
  exact ⟨hqueue, hinbox, htokens, hfresh, hissued, hmem⟩

theorem Core.flushed_iff {k : Core} {l : List Nat} : k.flushed l = true ↔
    ¬((∃ i ∈ k.issued, i.r.order ∈ l) ∨ ∃ q, q < 3 ∧ ∃ c ∈ k.queue q, ∃ r, c.resume = some r ∧ r.order ∈ l) := by
  have hstopped (c : QCmd) : (match c.resume with | some r => l.contains r.order | none => false) = true ↔
      ∃ r, c.resume = some r ∧ r.order ∈ l := by
    cases c.resume <;> simp
  have hthree : ∀ p : Nat → Prop, (∃ q ∈ [0, 1, 2], p q) ↔ ∃ q, q < 3 ∧ p q := fun p =>
    exists_congr fun q => and_congr_left' (List.mem_range (n := 3))
  simp only [Core.flushed, Bool.and_eq_true, Bool.not_eq_true', ← Bool.not_eq_true, List.any_eq_true, List.contains_iff_mem, hthree,
    not_or]
  exact and_congr_right fun _ => not_congr (exists_congr fun q => and_congr_right fun _ => exists_congr fun c =>
    and_congr_right fun _ => hstopped c)

theorem eflush_issues {o : EflushOps} {s : State} (h : s.issues (.eflush o)) :
    let l := (s.myCore.issued.filter fun i => decide (i.queue < 3) && o.mask.getLsbD i.queue).map fun i => i.r.order
    let discards (t : State) : Prop := (∀ q, q < 3 → t.myCore.queue q = if o.mask.getLsbD q then [] else s.myCore.queue q) ∧
      t.myCore.inbox = (if o.mask.getLsbD 3 then [] else s.myCore.inbox) ∧ t.mem = s.mem
    (l = [] → ∃ t : State, exec (.eflush o) s = .next t.inSequence ∧ discards t ∧
      t.myCore.tokens = (if o.mask.getLsbD 4 then [] else s.myCore.tokens) ∧
      t.myCore.freshTokens = (if o.mask.getLsbD 4 then [] else s.myCore.freshTokens)) ∧
    (l ≠ [] → ∃ (t : State) (h : Hold), exec (.eflush o) s = .next (t.holding h) ∧ discards t ∧ t.myCore.tokens = s.myCore.tokens ∧
      h.instr = .eflush o ∧ h.kind = .blocking ∧ h.since = s.cycle ∧ h.vals = o.mask.toNat :: l) := by
  intro l discards
  let t := (s.fresh.unlocked o.mask.toNat).modMyCore fun k => k.flush o.mask.toNat
  obtain ⟨hqueue, hinbox, htokens, hfresh, hissued, hmem⟩ := s.fresh.flushed_parts o.mask.toNat
  have hl : t.myCore.toRetire o.mask.toNat = l := by
    rw [Core.toRetire_eq, hissued]
    rfl
  have hbody := bodyEflush_eq o s.fresh
  dsimp only at hbody
  refine ⟨fun hnil => ?_, fun hsome => ?_⟩
  · have hdone := hbody.trans (if_pos (List.isEmpty_iff.mpr (hl.trans hnil)))
    obtain ⟨tqueue, tinbox, ttokens, tfresh⟩ := t.myCore.flushTokens_parts o.mask.toNat
    rw [← State.myCore_modMyCore t fun k => k.flushTokens o.mask.toNat] at tqueue tinbox ttokens tfresh
    refine ⟨_, State.issue_done h hdone, ⟨fun q hq => (congrFun tqueue q).trans (hqueue q hq), tinbox.trans hinbox, hmem⟩, ?_, ?_⟩
    · rw [ttokens, htokens]
      rfl
    · rw [tfresh, hfresh]
      rfl
  · have hhold := hbody.trans (if_neg fun he => hsome (hl.symm.trans (List.isEmpty_iff.mp he)))
    refine ⟨t, _, State.issue_hold h hhold, ⟨hqueue, hinbox, hmem⟩, htokens, rfl, rfl, ?_, congrArg (List.cons _) hl⟩
    show (s.fresh.unlocked o.mask.toNat).cycle = s.cycle
    unfold State.unlocked
    split <;> rfl

/-- A release takes the core over from a change of it that changes nothing. -/
theorem State.release_modMyCore_id (s : State) (h : Hold) : (s.modMyCore fun k => k).release h = s.release h := by
  unfold State.release State.modMe State.modCluster State.modMyCore
  exact s.modCore_modCore s.curCore (fun k => k) _

theorem complete_eflush {h : Hold} {o : EflushOps} (hi : h.instr = .eflush o) (s : State) : complete h s =
    if s.myCore.flushed (h.vals.drop 1) then (s.modMyCore fun k => k.flushTokens o.mask.toNat).release h else s := by
  rw [complete, hi]

theorem eflush_completes {o : EflushOps} {s : State} {h : Hold} {m : Nat} {l : List Nat} (hheld : Claim.held s h)
    (hi : h.instr = .eflush o) (hv : h.vals = m :: l) :
    let u := Claim.woken s
    let waits : Prop := (∃ i ∈ u.myCore.issued, i.r.order ∈ l) ∨ ∃ q, q < 3 ∧ ∃ c ∈ u.myCore.queue q, ∃ r, c.resume = some r ∧ r.order ∈ l
    (waits → exec .blockingCompletion s = .next u) ∧
    (¬waits → exec .blockingCompletion s = .next ((if o.mask.getLsbD 4 then
      u.modMyCore fun k => { k with tokens := [], freshTokens := [] } else u).release h)) := by
  intro u waits
  obtain ⟨hact, hsince⟩ := hheld
  have hexec : exec .blockingCompletion s = .next (if u.myCore.flushed l then
      (u.modMyCore fun k => k.flushTokens o.mask.toNat).release h else u) := by
    rw [blockingCompletion_eq hact hsince, complete_eflush hi, hv]
    rfl
  refine ⟨fun hw => ?_, fun hw => ?_⟩
  · rw [hexec, if_neg fun hf => Core.flushed_iff.mp hf hw]
  · rw [hexec, if_pos (Core.flushed_iff.mpr hw)]
    by_cases h4 : o.mask.getLsbD 4 = true
    · have hflush : (fun k : Core => k.flushTokens o.mask.toNat) = fun k => { k with tokens := [], freshTokens := [] } :=
        funext fun k => if_pos h4
      rw [if_pos h4, hflush]
    · have hflush : (fun k : Core => k.flushTokens o.mask.toNat) = fun k => k := funext fun k => if_neg h4
      rw [if_neg h4, hflush, State.release_modMyCore_id]

/-! ### TCFG (R205) -/

theorem bodyTcfg_bad {o : XOnly} {s : State} {r : Nat} (h : tcbBad (s.x o.a) = some r) : bodyTcfg o s = .trap cSHAPE (w64 (256 * r)) := by
  rw [bodyTcfg, h]

theorem bodyTcfg_idle {o : XOnly} {s : State} (h : tcbBad (s.x o.a) = none) (hidle : s.myCore.matrixIdle s.cycle = true) :
    bodyTcfg o s = .done (s.modMyCore fun k => k.setTcb (s.x o.a)) := by
  rw [bodyTcfg, h]
  exact if_pos hidle

/-- Settles O40: the queues and the inbox behind each instruction, from what its body does to the core under way. -/
theorem engineInstructions : Obligations.EngineInstructions := by
  refine ⟨fun o s c h ha hd hq ht => epush_enters h ha (enterCheck_ok hd hq ht), fun o s h ha hd => ?_,
    fun o s h ha => State.issue_stall h (bodyEpush_full (s := s.fresh) ha), fun o s u e pa h hacc hroom => ?_,
    fun o s u e pa n h hacc hown hsize hcore hroom => ?_, fun o s h => eflush_issues h,
    fun o s h m l hheld hi hv => eflush_completes hheld hi hv,
    fun o s h hgood hidle => State.issue_done h (bodyTcfg_idle (s := s.fresh) hgood hidle),
    fun o s r h hbad => State.issue_trap h (bodyTcfg_bad (s := s.fresh) hbad)⟩
  · exact ⟨_, _, State.issue_done h (bodyEpush_error (s := s.fresh) ha (enterCheck_undecoded hd)), rfl, rfl, rfl, rfl⟩
  · have hu := State.access_fill hacc
    have hbody : bodyEstart o s.fresh = .done _ :=
      (bodyEstart_ok (s := s.fresh) hacc).trans (State.placeInbox_landMine _ (by rw [hu] at hroom ⊢; exact hroom))
    rw [show exec (.estart o) s = _ from State.issue_done h hbody]
    rw [hu, State.landMine_eq]
    rfl
  · have hbody : bodyRenq o s.fresh = .done _ :=
      (bodyRenq_ok (s := s.fresh) hacc hown hsize hcore).trans (State.placeInbox_landMine _ hroom)
    rw [show exec (.renq o) s = _ from State.issue_done h hbody, State.access_fill hacc]
    rfl

end Sys2Proof.Machine
end

section
/-!
DLAUNCH and the entering of graphs (R153): O47.
-/

namespace Sys2Proof.Machine

/-! ### DLAUNCH -/

theorem bodyDlaunch_ok {o : Reg2} {s u : State} {e : TlbEntry} {pa : Nat} (h : s.access .load 32 (s.x o.ra) = .ok (u, e, pa)) :
    bodyDlaunch o s = .hold
      (u.landMine.schedule (u.cycle + min (max 1 u.time) (2 ^ 19)) .blockingCompletion (.nats [u.curCore, u.curCl, u.cycle])).useTime
      (u.blocking (.dlaunch o) (u.x o.ra) [o.rd.toNat]) := by
  simp only [bodyDlaunch, h]

theorem dlaunch_holds {o : Reg2} {s u : State} {e : TlbEntry} {pa : Nat} (h : s.issues (.dlaunch o))
    (hacc : s.fresh.access .load 32 (s.x o.ra) = .ok (u, e, pa)) :
    ∃ (t : State) (h : Hold), exec (.dlaunch o) s = .next (t.holding h) ∧ h.instr = .dlaunch o ∧ h.ea = s.x o.ra ∧
      h.vals = [o.rd.toNat] ∧ t.mem = u.landMine.mem ∧ ∃ d ∈ t.agenda, d.row = .blockingCompletion ∧ s.cycle < d.cycle ∧
        d.cycle ≤ s.cycle + 2 ^ 19 ∧ d.args = .nats [s.curCore, s.curCl, s.cycle] := by
  refine ⟨_, _, State.issue_hold h (bodyDlaunch_ok (s := s.fresh) hacc), rfl, ?_, rfl, rfl,
    { cycle := u.cycle + min (max 1 u.time) (2 ^ 19), row := .blockingCompletion, args := .nats [u.curCore, u.curCl, u.cycle] },
    mem_insertDue.mpr (.inl rfl), rfl, ?_⟩
  · rw [State.access_fill hacc]
    rfl
  · rw [State.access_fill hacc]
    refine ⟨?_, ?_, rfl⟩
    · show s.cycle < s.cycle + min (max 1 _) (2 ^ 19)
      omega
    · show s.cycle + min (max 1 _) (2 ^ 19) ≤ s.cycle + 2 ^ 19
      omega

theorem complete_dlaunch {h : Hold} {o : Reg2} (hi : h.instr = .dlaunch o) (s : State) : complete h s = launchDone h s := by
  rw [complete, hi]

theorem launchDone_refused {h : Hold} {s : State} {d : Nat} {e : Nat × Nat} (hv : h.vals = [d])
    (hc : s.checkGraph s.myCore.vifn.toNat s.myCore.asid.toNat h.ea.toNat = .error e) :
    launchDone h s = (s.resultX 1 (BitVec.ofNat 5 d) (w64 (e.1 + e.2 * 2 ^ 16))).release h := by
  simp only [launchDone, hc, hv]
  rfl

theorem launchDone_entered {h : Hold} {s : State} {d : Nat} {p : Parsed} (hv : h.vals = [d])
    (hc : s.checkGraph s.myCore.vifn.toNat s.myCore.asid.toNat h.ea.toNat = .ok p) :
    launchDone h s = (((s.enterGraph s.myCore.vifn.toNat s.launchCtx p none).1.settleGraph
      (s.enterGraph s.myCore.vifn.toNat s.launchCtx p none).2.1).resultX 1 (BitVec.ofNat 5 d) 0).release h := by
  simp only [launchDone, hc, hv]
  rfl

/-! ### The nodes of an entered graph -/

/-- Writes at the keys from `first` on, one for each of `n` numbers, are read back. -/
theorem SMap.get_foldl_range {α : Type} [DecidableEq α] (d : α) (m : SMap α) (first n : Nat) (val : Nat → α) {i : Nat} (h : i < n) :
    SMap.get d ((List.range n).foldl (fun m i => SMap.set d m (first + i) (val i)) m) (first + i) = val i := by
  induction n with
  | zero => exact absurd h (Nat.not_lt_zero i)
  | succ n ih =>
    rw [List.range_succ, List.foldl_append, List.foldl_cons, List.foldl_nil]
    by_cases hi : i = n
    · rw [hi, SMap.get_set_same]
    · rw [SMap.get_set_other _ _ _ (by omega), ih (by omega)]

/-- Node `i` of a graph entered as number `g`. -/
def Parsed.node (p : Parsed) (g i : Nat) : Node :=
  { record := p.recs.getD i 0, graph := g, index := i,
    preds := ((List.range p.recs.length).filter fun j => p.edges.contains (j, i)).map fun j => g + 1 + j,
    st := .waiting, readyAt := 0, cores := [], dispatchNo := 0, reqAt := none, stop := .none, faultVa := none, faultRep := .bare,
    victimOf := none, saved := [], savedMem := [], savedRanges := [] }

theorem Parsed.mem_preds {p : Parsed} {g i j : Nat} : g + 1 + j ∈ (p.node g i).preds ↔ j < p.recs.length ∧ (j, i) ∈ p.edges := by
  simp only [Parsed.node, List.mem_map, List.mem_filter, List.mem_range, List.contains_iff_mem, Nat.add_left_cancel_iff,
    exists_eq_right]

theorem State.nodes_enterGraph (s : State) (v ctx : Nat) (p : Parsed) (b : Option (Nat × Nat × Nat × Nat)) :
    (s.enterGraph v ctx p b).1.nodes =
      (List.range p.recs.length).foldl (fun m i => SMap.set none m (s.nextId + 1 + i) (some (p.node s.nextId i))) s.nodes := rfl

theorem State.node_enterGraph (s : State) (v ctx : Nat) (p : Parsed) (b : Option (Nat × Nat × Nat × Nat)) {i : Nat}
    (h : i < p.recs.length) : (s.enterGraph v ctx p b).1.node (s.nextId + 1 + i) = some (p.node s.nextId i) := by
  rw [State.node, State.nodes_enterGraph, SMap.get_foldl_range none s.nodes _ _ (fun i => some (p.node s.nextId i)) h]

/-- The graph that is entered with the nodes of `p`. -/
def State.entered (s : State) (v ctx : Nat) (p : Parsed) (b : Option (Nat × Nat × Nat × Nat)) : Graph :=
  { vi := v, ctx := ctx, handle := (s.enterGraph v ctx p b).2.2, nodes := (List.range p.recs.length).map fun i => s.nextId + 1 + i,
    doneCtr := w64 p.doneCtr, batch := b }

theorem State.graphs_enterGraph (s : State) (v ctx : Nat) (p : Parsed) (b : Option (Nat × Nat × Nat × Nat)) :
    (s.enterGraph v ctx p b).1.graphs = SMap.set none s.graphs (s.enterGraph v ctx p b).2.1 (some (s.entered v ctx p b)) := rfl

theorem State.graph_enterGraph (s : State) (v ctx : Nat) (p : Parsed) (b : Option (Nat × Nat × Nat × Nat)) :
    (s.enterGraph v ctx p b).1.graph (s.enterGraph v ctx p b).2.1 = some (s.entered v ctx p b) := by
  rw [State.graph, State.graphs_enterGraph, SMap.get_set_same]

/-- Settles O47: from issue and completion of DLAUNCH, and the nodes that an entered graph has. -/
theorem launches : Obligations.Launches := by
  refine ⟨fun o s u e pa h hacc => dlaunch_holds h hacc, fun s h o d hact hi hsince hv => ?_, fun s v ctx p b => ?_⟩
  · have hexec : exec .blockingCompletion s = .next (launchDone h s.resumed) :=
      (blockingCompletion_eq hact hsince).trans (congrArg _ (complete_dlaunch hi _))
    exact ⟨fun e hc => hexec.trans (congrArg _ (launchDone_refused hv hc)),
      fun p hc => hexec.trans (congrArg _ (launchDone_entered hv hc))⟩
  · exact ⟨rfl, rfl, ⟨_, s.graph_enterGraph v ctx p b, rfl, rfl, rfl, rfl⟩, fun i hi =>
      ⟨p.node s.nextId i, s.node_enterGraph v ctx p b hi, rfl, rfl, rfl, fun j => Parsed.mem_preds⟩⟩

end Sys2Proof.Machine
end

section
/-!
The flow of engine commands: issue of CWT and CAD, adds of a cycle, retirement, and the end of TCFG (R143, R205, R213-R215, R238): O50.
-/

namespace Sys2Proof.Machine

/-! ### Issue of a command that starts -/

theorem Core.setQueue_eq (k : Core) (q : Nat) (l : List QCmd) :
    ∃ a b c, k.setQueue q l = { k with loadQ := a, matQ := b, storeQ := c } := by
  rcases q with _ | _ | q
  · exact ⟨l, k.matQ, k.storeQ, rfl⟩
  · exact ⟨k.loadQ, l, k.storeQ, rfl⟩
  · exact ⟨k.loadQ, k.matQ, l, rfl⟩

/-- The two neighbours of a queue are different, so a command names no FIFO twice. -/
theorem nodup_ring {q : Nat} {a b : Bool} {f : Nat → Nat} (hf : f (nextQ q) ≠ f (prevQ q)) :
    ((if a then [f (nextQ q)] else []) ++ if b then [f (prevQ q)] else []).Nodup := by
  cases a <;> cases b <;> simp [hf]

theorem nextQ_ne_prevQ (q : Nat) : nextQ q ≠ prevQ q := by
  unfold nextQ prevQ
  omega

theorem QCmd.nodup_pops (c : QCmd) (q : Nat) : (c.pops q).Nodup := by
  unfold QCmd.pops
  split
  · exact List.nodup_nil
  · refine nodup_ring (f := fun r => fifoKey r q) fun h => nextQ_ne_prevQ q ?_
    unfold fifoKey at h
    omega

theorem QCmd.nodup_pushes (c : QCmd) (q : Nat) : (c.pushes q).Nodup := by
  refine nodup_ring (f := fun r => fifoKey q r) fun h => nextQ_ne_prevQ q ?_
  unfold fifoKey at h
  omega

/-- A change of the entries at distinct keys, each by `g`. -/
theorem SMap.get_foldl_update {m : SMap Nat} {l : List Nat} (g : Nat → Nat) (hl : l.Nodup) (f : Nat) :
    SMap.get 0 (l.foldl (fun m f => SMap.set 0 m f (g (SMap.get 0 m f))) m) f =
      if f ∈ l then g (SMap.get 0 m f) else SMap.get 0 m f := by
  induction l generalizing m with
  | nil => rfl
  | cons a l ih =>
    obtain ⟨ha, hl'⟩ := List.nodup_cons.mp hl
    rw [List.foldl_cons, ih hl']
    by_cases hf : f = a
    · rw [hf, if_neg ha, if_pos (List.mem_cons_self ..), SMap.get_set_same]
    · rw [SMap.get_set_other _ _ _ hf]
      simp only [List.mem_cons, hf, false_or]

/-- The core from which command `c` has issued with record `i`, leaving `q` in its queue. -/
def Core.started (k : Core) (c : QCmd) (q : List QCmd) (queue cycle : Nat) (i : Issued) : Core :=
  let k := { k with tokens := (c.pops queue).foldl (fun m f => SMap.set 0 m f (SMap.get 0 m f - 1)) k.tokens }
  let k := { k.setQueue queue q with progress := cycle, lastStep := cycle }
  { k with issued := k.issued ++ [i], nextCmd := k.nextCmd + 1 }

theorem Core.started_parts (k : Core) (c : QCmd) (q : List QCmd) (queue cycle : Nat) (i : Issued) :
    (k.started c q queue cycle i).queue queue = q ∧ (k.started c q queue cycle i).issued = k.issued ++ [i] ∧
      (k.started c q queue cycle i).k = k.k ∧
      ∀ f, SMap.get 0 (k.started c q queue cycle i).tokens f = SMap.get 0 k.tokens f - if f ∈ c.pops queue then 1 else 0 := by
  have hqueue : (k.started c q queue cycle i).queue queue = q := by
    refine Eq.trans ?_ (Core.queue_setQueue_same
      { k with tokens := (c.pops queue).foldl (fun m f => SMap.set 0 m f (SMap.get 0 m f - 1)) k.tokens } queue q)
    rfl
  obtain ⟨x, y, z, h⟩ := Core.setQueue_eq
    { k with tokens := (c.pops queue).foldl (fun m f => SMap.set 0 m f (SMap.get 0 m f - 1)) k.tokens } queue q
  refine ⟨hqueue, ?_, ?_, fun f => ?_⟩
  · rw [Core.started]
    dsimp only
    rw [h]
  · rw [Core.started]
    dsimp only
    rw [h]
  · rw [Core.started]
    dsimp only
    rw [h]
    refine (SMap.get_foldl_update (m := k.tokens) (· - 1) (c.nodup_pops queue) f).trans ?_
    split
    · rfl
    · exact (Nat.sub_zero _).symm

/-- The head that starts at once leaves its queue with its record; what its start has added stays. -/
theorem engIssue_go {s : State} {row : Instr} {start : QCmd → State → Start} {c : QCmd} {q : List QCmd} {adds : List AddReq} {i : Issued}
    (h : Claim.heads s c q) (hrow : EngOp.instr c.cmd.op = row) (hstart : start c s = .go { s with adds := adds } i) :
    s.engIssue row start = .next (({ s with adds := adds } : State).modMyCore fun k => k.started c q s.curQueue s.cycle i) := by
  obtain ⟨hqueue, -, hrun, hready⟩ := h
  have hcond : (decide (EngOp.instr c.cmd.op = row) && s.queuesRun s.curCore && s.myCore.headReady s.cycle s.curQueue c) = true := by
    rw [hrow, hrun, hready, decide_eq_true rfl]
    rfl
  unfold State.engIssue
  dsimp only
  rw [hqueue]
  dsimp only
  rw [if_pos hcond, hstart]
  simp only [State.engProgress, State.modMyCore, State.modCore_curCore, State.modCore_cycle, State.modCore_modCore]
  rfl

theorem engIssue_wait {s : State} {row : Instr} {start : QCmd → State → Start} {c : QCmd} {q : List QCmd}
    (h : Claim.heads s c q) (hstart : start c s = .wait) : s.engIssue row start = .next s := by
  obtain ⟨hqueue, -, -, -⟩ := h
  unfold State.engIssue
  dsimp only
  rw [hqueue]
  dsimp only
  rw [hstart]
  exact ite_self _

theorem State.issued_started {s : State} {c : QCmd} {q : List QCmd} (h : Claim.heads s c q) (adds : List AddReq) (done : Option Nat) :
    Claim.issued s (({ s with adds := adds } : State).modMyCore fun k =>
      k.started c q s.curQueue s.cycle { s.issued c 0 0 with doneAt := done }) c q done := by
  obtain ⟨-, hresume, -, -⟩ := h
  obtain ⟨hqueue, hissued, -, htokens⟩ := s.myCore.started_parts c q s.curQueue s.cycle { s.issued c 0 0 with doneAt := done }
  have hcore : (({ s with adds := adds } : State).modMyCore fun k =>
      k.started c q s.curQueue s.cycle { s.issued c 0 0 with doneAt := done }).myCore =
        s.myCore.started c q s.curQueue s.cycle { s.issued c 0 0 with doneAt := done } := State.core_modCore _ _ _
  have hrow : (s.taken c 0 0).row = 0 := by
    rw [State.taken, hresume]
  refine ⟨rfl, by rw [hcore, hqueue], rfl, rfl, fun f => by rw [hcore, htokens], _, by rw [hcore, hissued], rfl, rfl, rfl, ?_, rfl, hrow, rfl⟩
  show s.cycle - (s.taken c 0 0).row = s.cycle
  rw [hrow, Nat.sub_zero]

/-! ### CWT and CAD (R238) -/

theorem startCwt_own {s : State} {c : QCmd} {n : BitVec 9} (hop : c.cmd.op = .cwt (.own n)) (hidle : s.arrayIdle = true) :
    startCwt c s = if waitOk (SMap.get 0 s.myCore.kSnap n.toNat).toNat c.cmd.h.waitVal.toNat
      then .go s { s.issued c 0 0 with doneAt := some s.cycle } else .wait := by
  rw [startCwt, hop]
  simp only [hidle, Bool.not_true, Bool.false_eq_true, if_false]
  rfl

theorem startCad_own {s : State} {c : QCmd} {n : BitVec 9} {a : BitVec 30} (hop : c.cmd.op = .cad (.own n) a) (hidle : s.arrayIdle = true) :
    startCad c s = .go (s.queueAdd (.slot s.curCore n.toNat) a.toNat (.engine s.curCore (queueUnit s.curQueue) (ctrInfo 0 n.toNat 0 0)
      (encodeCmd c.cmd) c.origin.toNat 0)) { s.issued c 0 0 with doneAt := some s.cycle } := by
  rw [startCad, hop]
  simp only [hidle, Bool.not_true, Bool.false_eq_true, if_false]
  rfl

theorem cwt_issues {s : State} {c : QCmd} {q : List QCmd} {n : BitVec 9} (h : Claim.heads s c q) (hop : c.cmd.op = .cwt (.own n))
    (hidle : s.arrayIdle = true) :
    if waitOk (SMap.get 0 s.myCore.kSnap n.toNat).toNat c.cmd.h.waitVal.toNat = true then
      ∃ t, exec .cwt s = .next t ∧ Claim.issued s t c q (some s.cycle)
    else exec .cwt s = .next s := by
  have hstart := startCwt_own hop hidle
  split
  next hpass =>
    rw [if_pos hpass] at hstart
    exact ⟨_, engIssue_go (adds := s.adds) h (by rw [hop]; rfl) hstart, State.issued_started h s.adds _⟩
  next hpass =>
    rw [if_neg hpass] at hstart
    exact engIssue_wait h hstart

theorem cad_issues {s : State} {c : QCmd} {q : List QCmd} {n : BitVec 9} {a : BitVec 30} (h : Claim.heads s c q)
    (hop : c.cmd.op = .cad (.own n) a) (hidle : s.arrayIdle = true) :
    ∃ t, exec .cad s = .next t ∧ Claim.issued s t c q (some s.cycle) ∧ t.myCore.k = s.myCore.k ∧
      ∃ x ∈ t.adds, x.ctr = .slot s.curCore n.toNat ∧ x.amount = a.toNat ∧ ∃ unit cmd place row,
        x.src = .engine s.curCore unit (ctrInfo 0 n.toNat 0 0) cmd place row := by
  refine ⟨_, engIssue_go h (by rw [hop]; rfl) (startCad_own hop hidle), State.issued_started h _ _, ?_, _, mem_insertAdd.mpr (.inl rfl),
    rfl, rfl, _, _, _, _, rfl⟩
  obtain ⟨-, -, hk, -⟩ := s.myCore.started_parts c q s.curQueue s.cycle { s.issued c 0 0 with doneAt := some s.cycle }
  exact (congrArg Core.k (State.core_modCore _ _ _)).trans hk

/-! ### The adds of a cycle (R146, R214) -/

theorem State.SameCounters.setLane (s : State) (die n : Nat) (l : Lane) : s.SameCounters (s.setLane die n l) :=
  ⟨fun _ => rfl, rfl, fun _ => rfl⟩

theorem State.SameCounters.agenda (s : State) (l : List Due) : s.SameCounters { s with agenda := l } :=
  ⟨fun _ => rfl, rfl, fun _ => rfl⟩

theorem State.SameCounters.stopLane (s : State) (die n : Nat) : s.SameCounters (s.stopLane die n) := by
  unfold State.stopLane
  refine State.SameCounters.trans ?_ (State.SameCounters.setLane _ _ _ _)
  refine (State.SameCounters.agenda s _).trans (State.SameCounters.foldl (fun t x => ?_) _ _)
  split
  · exact ⟨fun _ => rfl, rfl, fun _ => rfl⟩
  · exact .refl t

theorem State.SameCounters.laneFault (s : State) (die n cause : Nat) (info : Word) : s.SameCounters (s.laneFault die n cause info) :=
  (State.SameCounters.stopLane s die n).trans (State.SameCounters.setLane _ _ _ _)

/-- What an add that saturates gives its source to report changes no counter. -/
theorem State.applyAdd_counters (s : State) (a : AddReq) : (s.ctrAdd a.ctr a.amount).1.SameCounters (s.applyAdd a) := by
  unfold State.applyAdd
  dsimp only
  split
  · split
    · exact ⟨fun _ => rfl, rfl, fun _ => rfl⟩
    · exact .laneFault _ _ _ _ _
    · exact ⟨fun _ => rfl, rfl, fun _ => rfl⟩
    · exact .refl _
  · exact .refl _

theorem State.applyAdd_fits {s : State} {a : AddReq} (h : (s.ctrAdd a.ctr a.amount).2 = false) : s.applyAdd a = (s.ctrAdd a.ctr a.amount).1 := by
  unfold State.applyAdd
  dsimp only
  rw [h]
  rfl

theorem State.applyAdd_engine {s : State} {a : AddReq} {core unit cmd place row : Nat} {info : Word}
    (h : (s.ctrAdd a.ctr a.amount).2 = true) (hsrc : a.src = .engine core unit info cmd place row) :
    s.applyAdd a = (s.ctrAdd a.ctr a.amount).1.engFault core unit cCNTOVF info cmd place row := by
  unfold State.applyAdd
  dsimp only
  rw [h, hsrc]
  rfl

theorem State.ctrAdd_slot_faults (s : State) (n k a : Nat) : (s.ctrAdd (.slot n k) a).1.faults = s.faults := by
  obtain ⟨t, rfl, ht | ht, -⟩ := s.ctrAdd_eq (.slot n k) a <;> rw [ht] <;> rfl

theorem slotAdds {s : State} {x : AddReq} {n k : Nat} (hx : x.ctr = .slot n k) : let t := s.applyAdd x
    let v := (SMap.get 0 (s.core n).k k).toNat + x.amount
    (SMap.get 0 (t.core n).k k).toNat = Min.min v (2 ^ 64 - 1) ∧ t.mem = s.mem ∧
    (∀ m j, (m ≠ n ∨ j ≠ k) → SMap.get 0 (t.core m).k j = SMap.get 0 (s.core m).k j) ∧
    (v < 2 ^ 64 → t.faults = s.faults) ∧
    (2 ^ 64 ≤ v → ∀ core unit info cmd place row, x.src = .engine core unit info cmd place row →
      ∃ r : FaultRec, t.faults = s.faults ++ [r] ∧ r.cause = cCNTOVF ∧ r.info = info ∧ r.core = core) := by
  intro t v
  have hcounters := s.applyAdd_counters x
  have hpast : (s.ctrAdd x.ctr x.amount).2 = decide (2 ^ 64 ≤ v) := by rw [State.ctrAdd_past, hx]; rfl
  rw [hx] at hcounters hpast
  obtain ⟨hslot, hmem⟩ := s.ctrAdd_slot n k x.amount
  refine ⟨(hcounters.ctrGet (.slot n k)).trans hslot, hcounters.mem.trans hmem, fun m j hne => ?_, fun hfits => ?_,
    fun hover core unit info cmd place row hsrc => ?_⟩
  · have hset := (s.ctrAdd_counters (.slot n k) x.amount).trans hcounters
    have hslots := hset.slots m
    rw [show (t.core m).k = _ from hslots]
    show SMap.get 0 ((s.modCore n fun q => { q with k := SMap.set 0 q.k k _ }).core m).k j = _
    by_cases hm : m = n
    · rw [hm, State.core_modCore]
      exact SMap.get_set_other _ _ _ (hne.resolve_left (not_not.mpr hm))
    · rw [State.core_modCore_other _ _ hm]
  · have h := State.applyAdd_fits (s := s) (a := x) (by rw [hx, hpast]; exact decide_eq_false (Nat.not_le.mpr hfits))
    rw [show t = _ from h, hx, State.ctrAdd_slot_faults]
  · have h := State.applyAdd_engine (s := s) (a := x) (by rw [hx, hpast]; exact decide_eq_true hover) hsrc
    rw [show t = _ from h, hx, State.engFault, State.ctrAdd_slot_faults]
    exact ⟨_, rfl, rfl, rfl, rfl⟩

/-! ### Retirement (R213-R215) -/

/-- The core behind the retirement of command `i`. -/
def Core.retired (k : Core) (cycle : Nat) (i : Issued) : Core :=
  let k := { k with issued := k.issued.filter fun x => decide (x.id ≠ i.id) }
  let k := { k with freshTokens := (i.c.pushes i.queue).foldl (fun m f => SMap.set 0 m f (SMap.get 0 m f + 1)) k.freshTokens }
  { k.sectDone i.queue i.c with progress := cycle, lastStep := cycle }

theorem Core.retired_parts (k : Core) (cycle : Nat) (i : Issued) :
    (k.retired cycle i).issued = k.issued.filter (fun x => decide (x.id ≠ i.id)) ∧ (k.retired cycle i).k = k.k ∧
      ∀ f, SMap.get 0 (k.retired cycle i).freshTokens f = SMap.get 0 k.freshTokens f + if f ∈ i.c.pushes i.queue then 1 else 0 := by
  have hsect : ∀ k : Core, (k.sectDone i.queue i.c).issued = k.issued ∧ (k.sectDone i.queue i.c).k = k.k ∧
      (k.sectDone i.queue i.c).freshTokens = k.freshTokens := by
    intro k
    unfold Core.sectDone
    split <;> exact ⟨rfl, rfl, rfl⟩
  obtain ⟨hissued, hk, hfresh⟩ := hsect { k with
    issued := k.issued.filter fun x => decide (x.id ≠ i.id)
    freshTokens := (i.c.pushes i.queue).foldl (fun m f => SMap.set 0 m f (SMap.get 0 m f + 1)) k.freshTokens }
  refine ⟨hissued, hk, fun f => ?_⟩
  refine (congrArg (SMap.get 0 · f) hfresh).trans ((SMap.get_foldl_update (m := k.freshTokens) (· + 1) (i.c.nodup_pushes i.queue) f).trans ?_)
  split <;> rfl

/-- What a command with an add at its retirement adds. -/
def State.retireAdd (s : State) (i : Issued) : State :=
  if i.c.cmd.h.addEn then
    s.queueAdd (.slot s.curCore i.c.cmd.h.addSlot.toNat) 1 (.engine s.curCore (queueUnit i.queue)
      (ctrInfo 0 i.c.cmd.h.addSlot.toNat 0 0) (encodeCmd i.c.cmd) i.c.origin.toNat i.r.row)
  else s

theorem State.retire_eq {s : State} {i : Issued} (hfind : s.myCore.issued.find? (fun j => decide (j.id = i.id)) = some i)
    (hcan : s.myCore.canRetire s.cycle i = true) (hguard : i.guard = none) :
    s.retire i.id = (s.modMyCore fun k => k.retired s.cycle i).retireAdd i := by
  unfold State.retire
  rw [hfind]
  dsimp only
  rw [if_pos hcan, hguard]
  simp only [State.engProgress, State.modMyCore, State.modCore_curCore, State.modCore_cycle, State.modCore_modCore]
  rfl

theorem State.retireAdd_parts (s : State) (i : Issued) : (s.retireAdd i).cores = s.cores ∧ (s.retireAdd i).mem = s.mem ∧
    (i.c.cmd.h.addEn = false → (s.retireAdd i).adds = s.adds) ∧
    (i.c.cmd.h.addEn = true → ∃ x ∈ (s.retireAdd i).adds, x.ctr = .slot s.curCore i.c.cmd.h.addSlot.toNat ∧ x.amount = 1) := by
  unfold State.retireAdd
  split
  next h => exact ⟨rfl, rfl, fun hoff => absurd h (by simp [hoff]), fun _ => ⟨_, mem_insertAdd.mpr (.inl rfl), rfl, rfl⟩⟩
  next h => exact ⟨rfl, rfl, fun _ => rfl, fun hon => absurd hon h⟩

theorem engineRetires {s : State} {n id : Nat} {i : Issued} (hev : s.ev = .nats [n, id])
    (hfind : (s.core n).issued.find? (fun i => decide (i.id = id)) = some i) (hcan : (s.core n).canRetire s.cycle i = true)
    (hguard : i.guard = none) : ∃ t, exec .engineRetire s = .next t ∧ t.mem = s.mem ∧
      (t.core n).issued = (s.core n).issued.filter (fun x => decide (x.id ≠ id)) ∧
      (∀ f, SMap.get 0 (t.core n).freshTokens f = SMap.get 0 (s.core n).freshTokens f + (if f ∈ i.c.pushes i.queue then 1 else 0)) ∧
      (t.core n).k = (s.core n).k ∧ (i.c.cmd.h.addEn = false → t.adds = s.adds) ∧
      (i.c.cmd.h.addEn = true → ∃ x ∈ t.adds, x.ctr = .slot n i.c.cmd.h.addSlot.toNat ∧ x.amount = 1) := by
  obtain rfl : i.id = id := of_decide_eq_true (List.find?_some (p := fun i : Issued => decide (i.id = id)) hfind)
  let u : State := { s with curCore := n }
  have hexec : exec .engineRetire s = .next (u.retire i.id) := by
    show Host.Outcome.next (State.retire { s with curCore := s.ev.nat 0 } (s.ev.nat 1)) = _
    rw [show s.ev.nat 0 = n by rw [hev]; rfl, show s.ev.nat 1 = i.id by rw [hev]; rfl]
  obtain ⟨hcores, hmem, hoff, hon⟩ := (u.modMyCore fun k => k.retired u.cycle i).retireAdd_parts i
  rw [← State.retire_eq (s := u) hfind hcan hguard] at hcores hmem hoff hon
  have hcore : (u.retire i.id).core n = (s.core n).retired s.cycle i :=
    (congrArg (fun m => SMap.get Core.reset m n) hcores).trans (u.core_modCore n _)
  obtain ⟨hissued, hk, hfresh⟩ := (s.core n).retired_parts s.cycle i
  rw [← hcore] at hissued hk hfresh
  exact ⟨_, hexec, hmem, hissued, hfresh, hk, hoff, hon⟩

/-! ### The end of a TCFG that waited (R205) -/

theorem tcfgCompletes {s : State} {n cl : Nat} {h : Hold} (hev : s.ev = .nats [n]) (hwait : (s.core n).tcfgWaiters = [(cl, h)])
    (hqueue : (s.core n).matQ = []) (hloader : (s.core n).loaderFree ≤ s.cycle) (hrun : (s.core n).runFree ≤ s.cycle)
    (harray : (s.core n).arrayFree ≤ s.cycle) : ∃ t : State,
      exec .tcfgComplete s = .next (t.release h) ∧ t.curCore = n ∧ t.curCl = cl ∧
      t.core n = { s.core n with tcb := w64 (h.vals.getD 0 0), acc := [], planes := [] } ∧ t.mem = s.mem := by
  have hidle : (s.core n).matrixIdle s.cycle = true := by
    simp [Core.matrixIdle, hqueue, hloader, hrun, harray]
  refine ⟨({ s with curCore := n, curCl := cl } : State).modMyCore fun k => k.setTcb (w64 (h.vals.getD 0 0)), ?_, rfl, rfl, ?_, rfl⟩
  · show execTcfgComplete s = _
    rw [execTcfgComplete, show s.ev.nat 0 = n by rw [hev]; rfl]
    refine (if_pos hidle).trans ?_
    show Host.Outcome.next (List.foldl _ _ (s.core n).tcfgWaiters) = _
    rw [hwait]
    rfl
  · exact State.core_modCore _ n _

end Sys2Proof.Machine
end

section
/-!
The Bridle: the beginning of a stream, the fetch of its words and its end (R211, R212, R370); with O50.
-/

namespace Sys2Proof.Machine

/-! ### What a fetch leaves -/

/-- What no access of the Bridle changes. -/
def State.engineView (s : State) : SMap Core × List Host.Cell × List FaultRec × Nat × Nat :=
  (s.cores, s.mem, s.faults, s.cycle, s.curCore)

theorem State.engineView_unitCheck {s u : State} {unit asid : Nat} {need : Need} {l : List (Nat × Nat)} {ps : List (Nat × Nat × Nat)}
    (h : s.unitCheck unit asid need l = .ok (u, ps)) : u.engineView = s.engineView := by
  induction l generalizing s ps with
  | nil =>
    cases h
    rfl
  | cons p l ih =>
    rw [State.unitCheck] at h
    split at h
    · cases h
    next e he =>
      split at h
      · cases h
      next hd =>
        split at h
        · cases h
        next v r hv =>
          cases h
          rw [ih hv, State.fill_eq]
          rfl

theorem State.engineView_sendPieces (s : State) (unit : Nat) (ps : List (Nat × Nat × Nat)) (k : Traffic) :
    (s.sendPieces unit ps k).engineView = s.engineView := by
  unfold State.sendPieces
  refine foldl_keeps State.engineView (fun t p => ?_) _ _
  split
  · rfl
  · refine foldl_keeps State.engineView (fun v a => ?_) _ t
    rfl

theorem State.engineView_trafficPieces (s : State) (unit : Nat) (ps : List (Nat × Nat × Nat)) (k : Traffic) :
    (s.trafficPieces unit ps k).engineView = s.engineView := by
  refine (State.engineView_sendPieces _ _ _ _).trans (foldl_keeps State.engineView (fun t p => ?_) _ _)
  rw [State.traffic, State.bursts_eq]
  rfl

theorem State.engineView_bridleRead {s u : State} {va n w : Nat} {g : Option Word} (h : s.bridleRead va n = .ok (u, w, g)) :
    u.engineView = s.engineView := by
  rw [State.bridleRead] at h
  split at h
  · cases h
  next v ps hv =>
    split at h
    · cases h
    · cases h
      exact (State.engineView_trafficPieces _ _ _ _).trans (State.engineView_unitCheck hv)

theorem State.core_of_engineView {s u : State} (h : u.engineView = s.engineView) (n : Nat) : u.core n = s.core n :=
  congrArg (fun v : SMap Core × List Host.Cell × List FaultRec × Nat × Nat => SMap.get Core.reset v.1 n) h

theorem State.mem_of_engineView {s u : State} (h : u.engineView = s.engineView) : u.mem = s.mem :=
  congrArg (fun v : SMap Core × List Host.Cell × List FaultRec × Nat × Nat => v.2.1) h

theorem State.faults_of_engineView {s u : State} (h : u.engineView = s.engineView) : u.faults = s.faults :=
  congrArg (fun v : SMap Core × List Host.Cell × List FaultRec × Nat × Nat => v.2.2.1) h

theorem State.curCore_of_engineView {s u : State} (h : u.engineView = s.engineView) : u.curCore = s.curCore :=
  congrArg (fun v : SMap Core × List Host.Cell × List FaultRec × Nat × Nat => v.2.2.2.2) h

/-! ### The steps of the Bridle -/

section
variable {s u : State} {n : Nat} {st : Stream}

theorem fetchAt_le {a b : Nat} (h : Claim.fetched s n st a b) : ({ s with curCore := n } : State).fetchAt st a b ≤ s.cycle := by
  unfold State.fetchAt
  split
  · exact Nat.le_refl _
  next hown =>
    obtain ⟨hgate, hle⟩ := h.resolve_left hown
    rw [State.openAt, if_pos hgate]
    exact hle

/-- The fetch of the Bridle of core `n`, which has a stream and runs. -/
theorem exec_bridleFetch (hev : s.ev = .nats [n]) (hst : (s.core n).stream = some st) (hrun : s.bridleRuns n = true) :
    exec .bridleFetch s =
      (let u : State := { s with curCore := n }
       if st.left = 0 then
         let a := (st.next.toNat + 7) / 8 * 8
         let t := u.fetchAt st a 8
         if s.cycle < t then .next (u.fetchLater st a t)
         else match u.bridleRead a 8 with
         | .error e => .next (u.bridleFault st e.1 e.2)
         | .ok (u, h, g) => .next ((u.engProgress.takeHeader st a h).bridleGuard st g)
       else if !(s.core n).accepts st.eng then .next u
       else
         let t := u.fetchAt st st.next.toNat 12
         if s.cycle < t then .next (u.fetchLater st st.next.toNat t)
         else match u.bridleRead st.next.toNat 12 with
         | .error e => .next (u.bridleFault st e.1 e.2)
         | .ok (u, w, g) => .next ((u.engProgress.takeCommand st w).bridleGuard st g)) := by
  show execBridleFetch s = _
  rw [execBridleFetch, show s.ev.nat 0 = n by rw [hev]; rfl]
  have hmine : ({ s with curCore := n } : State).myCore.stream = some st := hst
  dsimp only
  rw [hmine]
  have hno : ¬ (!({ s with curCore := n } : State).bridleRuns n) = true := by
    rw [show ({ s with curCore := n } : State).bridleRuns n = true from hrun]
    decide
  exact (if_neg hno).trans rfl

theorem exec_bridleFetch_command {w : Nat} (hev : s.ev = .nats [n]) (hst : (s.core n).stream = some st) (hrun : s.bridleRuns n = true)
    (hleft : st.left ≠ 0) (haccepts : (s.core n).accepts st.eng = true) (hfetched : Claim.fetched s n st st.next.toNat 12)
    (hread : ({ s with curCore := n } : State).bridleRead st.next.toNat 12 = .ok (u, w, none)) :
    exec .bridleFetch s = .next (u.engProgress.takeCommand st w) := by
  rw [exec_bridleFetch hev hst hrun]
  dsimp only
  rw [if_neg hleft, haccepts, if_neg (Nat.not_lt.mpr (fetchAt_le hfetched)), hread]
  rfl

theorem exec_bridleFetch_header {h : Nat} (hev : s.ev = .nats [n]) (hst : (s.core n).stream = some st) (hrun : s.bridleRuns n = true)
    (hleft : st.left = 0) (hfetched : Claim.fetched s n st ((st.next.toNat + 7) / 8 * 8) 8)
    (hread : ({ s with curCore := n } : State).bridleRead ((st.next.toNat + 7) / 8 * 8) 8 = .ok (u, h, none)) :
    exec .bridleFetch s = .next (u.engProgress.takeHeader st ((st.next.toNat + 7) / 8 * 8) h) := by
  rw [exec_bridleFetch hev hst hrun]
  dsimp only
  rw [if_pos hleft, if_neg (Nat.not_lt.mpr (fetchAt_le hfetched)), hread]
  rfl

/-- A command whose checks it passes enters its queue, and its stream goes on behind it. -/
theorem takeCommand_enters {w : Nat} {c : EngCmd} (hd : decodeCmd w = some c) (hq : EngOp.inQueue c.op st.eng = true)
    (ht : EngOp.pastT31 s.myCore.tcb c.op = false) :
    ∃ x : QCmd, (s.takeCommand st w).myCore.queue st.eng = s.myCore.queue st.eng ++ [x] ∧ x.cmd = c ∧ x.sect = some st.num ∧
      (s.takeCommand st w).myCore.stream = some { st with next := st.next + 12, left := st.left - 1 } ∧ (s.takeCommand st w).mem = s.mem ∧
      (s.takeCommand st w).curCore = s.curCore := by
  let v : State := s.modMyCore fun k => { k with stream := some { st with next := st.next + 12, left := st.left - 1 } }
  have hv : v.myCore = { s.myCore with stream := some { st with next := st.next + 12, left := st.left - 1 } } := s.myCore_modMyCore _
  have hcheck : enterCheck v.myCore.tcb st.eng w = .ok c := enterCheck_ok hd hq (by rw [hv]; exact ht)
  obtain ⟨l, hl⟩ := v.enterQueue_core st.eng c (some st.num) st.id st.start
  have htake : s.takeCommand st w = v.enterQueue st.eng c (some st.num) st.id st.start := by
    unfold State.takeCommand
    dsimp only
    rw [hcheck]
  rw [htake, hl]
  refine ⟨{ cmd := c, placed := v.cycle, sect := some st.num, stream := st.id, origin := st.start, resume := none }, ?_, rfl, rfl, ?_, rfl,
    rfl⟩
  · rw [State.myCore_modMyCore, Core.queue_setQueue_same, hv]
    rfl
  · rw [State.myCore_modMyCore]
    obtain ⟨a, b, d, hset⟩ := Core.setQueue_eq { v.myCore with inflight := l } st.eng (v.myCore.queue st.eng ++
      [{ cmd := c, placed := v.cycle, sect := some st.num, stream := st.id, origin := st.start, resume := none }])
    rw [hset, hv]

/-- The end marker of a stream without open sections ends it. -/
theorem takeHeader_ends {a : Nat} (hsections : s.myCore.sections = []) :
    s.takeHeader st a (3 * 2 ^ 62) = s.modMyCore fun k => { k with stream := none } := by
  unfold State.takeHeader
  rw [hsections]
  rfl

end

/-! ### The statements -/

theorem streamBegins {s : State} {n : Nat} {e : InEntry} {l : List InEntry} (hev : s.ev = .nats [n]) (hstream : (s.core n).stream = none)
    (hinbox : (s.core n).inbox = e :: l) (hplaced : e.placed < s.cycle) (hrun : s.bridleRuns n = true) :
    ∃ t st, exec .bridleStreamBegin s = .next t ∧
      (t.core n).stream = some st ∧ st.start = e.addr ∧ st.next = e.addr ∧ st.left = 0 ∧ (t.core n).inbox = l ∧ t.mem = s.mem := by
  let st : Stream := { id := (s.core n).nextStream, start := e.addr, next := e.addr, left := 0, eng := 0, num := 0, counts := [] }
  let u : State := { s with curCore := n }
  have hexec : exec .bridleStreamBegin s =
      .next (u.modMyCore fun k => { k with stream := some st, inbox := l, nextStream := k.nextStream + 1 }) := by
    show execBridleStreamBegin s = _
    rw [execBridleStreamBegin, show s.ev.nat 0 = n by rw [hev]; rfl]
    have hs : ({ s with curCore := n } : State).myCore.stream = none := hstream
    have hi : ({ s with curCore := n } : State).myCore.inbox = e :: l := hinbox
    dsimp only
    rw [hs, hi]
    refine (if_pos ?_).trans rfl
    rw [Bool.and_eq_true, decide_eq_true_eq]
    exact ⟨hplaced, hrun⟩
  refine ⟨_, st, hexec, ?_, rfl, rfl, rfl, ?_, rfl⟩
  · exact congrArg Core.stream (u.core_modCore n _)
  · exact congrArg Core.inbox (u.core_modCore n _)

theorem State.core_engProgress (s : State) : s.engProgress.myCore = { s.myCore with progress := s.cycle, lastStep := s.cycle } :=
  s.myCore_modMyCore _

theorem commandFetched {s u : State} {n w : Nat} {st : Stream} {c : EngCmd} (hev : s.ev = .nats [n])
    (hst : (s.core n).stream = some st) (hrun : s.bridleRuns n = true) (hleft : st.left ≠ 0) (haccepts : (s.core n).accepts st.eng = true)
    (hfetched : Claim.fetched s n st st.next.toNat 12)
    (hread : ({ s with curCore := n } : State).bridleRead st.next.toNat 12 = .ok (u, w, none)) (hd : decodeCmd w = some c)
    (hq : EngOp.inQueue c.op st.eng = true) (ht : EngOp.pastT31 (s.core n).tcb c.op = false) :
    ∃ (t : State) (x : QCmd), exec .bridleFetch s = .next t ∧ (t.core n).queue st.eng = (s.core n).queue st.eng ++ [x] ∧ x.cmd = c ∧
      x.sect = some st.num ∧ (t.core n).stream = some { st with next := st.next + 12, left := st.left - 1 } ∧ t.mem = s.mem := by
  have hview := State.engineView_bridleRead hread
  have hn : u.curCore = n := State.curCore_of_engineView (s := { s with curCore := n }) hview
  have humem : u.mem = s.mem := State.mem_of_engineView (s := { s with curCore := n }) hview
  have hcore : u.engProgress.myCore = { s.core n with progress := u.cycle, lastStep := u.cycle } := by
    rw [State.core_engProgress, State.myCore, hn, State.core_of_engineView hview]
    rfl
  obtain ⟨x, hqueue, hcmd, hsect, hstream, hmem, hcur⟩ := takeCommand_enters (s := u.engProgress) (st := st) hd hq (by rw [hcore]; exact ht)
  have hcur' : (u.engProgress.takeCommand st w).curCore = n := hcur.trans hn
  rw [State.myCore, hcur', hcore] at hqueue
  rw [State.myCore, hcur'] at hstream
  exact ⟨_, x, exec_bridleFetch_command hev hst hrun hleft haccepts hfetched hread, hqueue, hcmd, hsect, hstream,
    hmem.trans humem⟩

theorem streamEnds {s u : State} {n : Nat} {st : Stream} (hev : s.ev = .nats [n]) (hst : (s.core n).stream = some st)
    (hrun : s.bridleRuns n = true) (hleft : st.left = 0) (hfetched : Claim.fetched s n st ((st.next.toNat + 7) / 8 * 8) 8)
    (hread : ({ s with curCore := n } : State).bridleRead ((st.next.toNat + 7) / 8 * 8) 8 = .ok (u, 3 * 2 ^ 62, none))
    (hsections : (s.core n).sections = []) :
    ∃ t, exec .bridleFetch s = .next t ∧ (t.core n).stream = none ∧ t.mem = s.mem ∧ t.faults = s.faults := by
  have hview := State.engineView_bridleRead hread
  have hn : u.curCore = n := State.curCore_of_engineView (s := { s with curCore := n }) hview
  have humem : u.mem = s.mem := State.mem_of_engineView (s := { s with curCore := n }) hview
  have hcore : u.myCore = s.core n := by
    rw [State.myCore, hn, State.core_of_engineView hview]
    rfl
  have hufaults : u.faults = s.faults := State.faults_of_engineView (s := { s with curCore := n }) hview
  have hexec := exec_bridleFetch_header hev hst hrun hleft hfetched hread
  rw [takeHeader_ends (by rw [State.core_engProgress, hcore]; exact hsections)] at hexec
  refine ⟨_, hexec, ?_, humem, hufaults⟩
  have hcur : (u.engProgress.modMyCore fun k => { k with stream := none }).core n =
      { u.engProgress.myCore with stream := none } := by
    rw [← hn]
    exact u.engProgress.myCore_modMyCore _
  rw [hcur]

theorem fetchDelayed {s : State} {n : Nat} {st : Stream} (hev : s.ev = .nats [n]) (hst : (s.core n).stream = some st)
    (hrun : s.bridleRuns n = true) (hleft : st.left ≠ 0) (haccepts : (s.core n).accepts st.eng = true) : let a := st.next.toNat
    let due := if st.gate.1 = a + 1 then st.gate.2 else s.cycle + s.time
    ({ s with curCore := n } : State).ownBytes (unitBridle n) a 12 = false → s.cycle < due →
    ∃ t, exec .bridleFetch s = .next t ∧ (t.core n).stream = some { st with gate := (a + 1, due) } ∧ t.mem = s.mem ∧
      (t.core n).queue st.eng = (s.core n).queue st.eng := by
  intro a due hown hdue
  let u : State := { s with curCore := n }
  have hat : u.fetchAt st a 12 = due := if_neg (by rw [hown]; decide)
  have hexec : exec .bridleFetch s = .next (u.fetchLater st a due) := by
    rw [exec_bridleFetch hev hst hrun]
    dsimp only
    rw [if_neg hleft, haccepts]
    rw [show ({ s with curCore := n } : State).fetchAt st st.next.toNat 12 = due from hat]
    exact if_pos hdue
  have hdrawn : ∃ times, u.drawn st.gate a = { u with times := times } := by
    unfold State.drawn
    split
    · exact ⟨u.times, rfl⟩
    · exact ⟨_, rfl⟩
  obtain ⟨times, htimes⟩ := hdrawn
  have hlater : u.fetchLater st a due = ({ u with times := times } : State).modMyCore fun k =>
      { k with stream := some { st with gate := (a + 1, due) } } := by
    rw [State.fetchLater, htimes]
  have hcore : (u.fetchLater st a due).core n = { s.core n with stream := some { st with gate := (a + 1, due) } } := by
    rw [hlater]
    exact State.core_modCore _ n _
  refine ⟨_, hexec, by rw [hcore], by rw [hlater]; rfl, by rw [hcore]; rfl⟩

/-- Settles O50: issue, adds, retirement and the steps of the Bridle, each from what it does to its core. -/
theorem engineFlow : Obligations.EngineFlow :=
  ⟨fun _ _ _ _ h hop hidle => cwt_issues h hop hidle, fun _ _ _ _ _ h hop hidle => cad_issues h hop hidle, fun _ _ _ _ hx => slotAdds hx,
    fun _ _ _ _ hev hfind hcan hguard => engineRetires hev hfind hcan hguard,
    fun _ _ _ _ hev hwait hq hl hr ha => tcfgCompletes hev hwait hq hl hr ha,
    fun _ _ _ _ hev hstream hinbox hplaced hrun => streamBegins hev hstream hinbox hplaced hrun,
    fun _ _ _ _ _ _ hev hst hrun hleft hacc hf hread hd hq ht => commandFetched hev hst hrun hleft hacc hf hread hd hq ht,
    fun _ _ _ _ hev hst hrun hleft hf hread hsec => streamEnds hev hst hrun hleft hf hread hsec,
    fun _ _ _ hev hst hrun hleft hacc => fetchDelayed hev hst hrun hleft hacc⟩

end Sys2Proof.Machine
end

section
/-!
Host commands on work: graphs, gather queues and their batches (R153, R345, R356, R357): O57.
-/

namespace Sys2Proof.Machine

/-! ### Commands -/

theorem State.command_host {s : State} {c : HostCmd} (hev : s.ev = .host c) (f : HostCmd → State → Host.Outcome State Fault Refusal) :
    s.command f = f c s := by
  rw [State.command, hev]

theorem cclean_iff {c : HostCmd} {i bits : Nat} : cclean c i bits = true ↔ cop c i < 2 ^ bits := decide_eq_true_iff

theorem State.withCtx_held {s : State} {c : HostCmd} {n : Nat} {x : Ctx} {root : Nat} (hop : c.op0.toNat < 2 ^ 16)
    (hctx : s.cmdCtx c = some (n, x, root)) (f : Nat → Ctx → Nat → Host.Outcome State Fault Refusal) : s.withCtx c f = f n x root := by
  have hclean : cclean c 0 16 = true := cclean_iff.mpr hop
  rw [State.withCtx, hclean, hctx]
  rfl

theorem State.ringOn_eq (s : State) (v n : Nat) :
    s.ringOn v n = { s with rings := (s.ringOn v n).rings, agenda := (s.ringOn v n).agenda, times := (s.ringOn v n).times } := rfl

/-- What the completion of a command changes. -/
theorem State.finishCmd_eq (s : State) (c : HostCmd) (status detail index value : Nat) : ∃ mem rings agenda times,
    s.finishCmd c status detail index value = { s with mem := mem, rings := rings, agenda := agenda, times := times } := by
  cases hentry : (s.ring c.vi).entry with
  | none =>
    refine ⟨s.mem, s.rings, s.agenda, s.times, ?_⟩
    simp only [State.finishCmd, hentry]
  | some n =>
    by_cases hhost : memKind (s.ring c.vi).completionAddr = some .host
    · obtain ⟨mem, hmem⟩ := s.writeN_eq (s.ring c.vi).completionAddr 16 (completionEntry c status detail index value n)
      rw [State.finishCmd_inHost _ _ _ _ hentry hhost, hmem, State.ringOn_eq]
      exact ⟨_, _, _, _, rfl⟩
    · rw [State.finishCmd_outside _ _ _ _ hentry hhost, State.ringOn_eq]
      exact ⟨_, _, _, _, rfl⟩

/-! ### SUBMIT (R153) -/

theorem submit_accepts {s : State} {c : HostCmd} {n : Nat} {x : Ctx} {root : Nat} (hev : s.ev = .host c) (hop : c.op0.toNat < 2 ^ 16)
    (hctx : s.cmdCtx c = some (n, x, root)) :
    (∀ e, s.checkGraph c.vi x.asid c.op1.toNat = .error e → exec .submit s = .next (s.finishCmd c 4 e.1 e.2 0)) ∧
    (∀ p, s.checkGraph c.vi x.asid c.op1.toNat = .ok p → let r := s.enterGraph c.vi n p none
      exec .submit s = .next ((r.1.finishCmd c 0 0 0 r.2.2).settleGraph r.2.1)) := by
  have hexec : exec .submit s = s.withCtx c fun n x _ =>
      match s.checkGraph c.vi x.asid c.op1.toNat with
      | .error e => .next (s.finishCmd c 4 e.1 e.2 0)
      | .ok p => .next (((s.enterGraph c.vi n p none).1.finishCmd c 0 0 0 (s.enterGraph c.vi n p none).2.2).settleGraph
          (s.enterGraph c.vi n p none).2.1) := s.command_host hev cmdSubmit
  rw [hexec, State.withCtx_held hop hctx]
  refine ⟨fun e he => ?_, fun p hp => ?_⟩
  · rw [he]
  · rw [hp]

/-! ### CORRAL and ENQUEUE (R356, R357) -/

theorem State.corral_modVif (s : State) (v k : Nat) (y : Option Corral) :
    SMap.get none ((s.modVif v fun x => { x with corrals := SMap.set none x.corrals k y }).vif v).corrals k = y := by
  rw [State.vif_modVif, if_pos rfl]
  exact SMap.get_set_same _ _ _ _

theorem corral_setsUp {s : State} {c : HostCmd} {n : Nat} {x : Ctx} {root : Nat} {bs : List Byte} (hev : s.ev = .host c)
    (hop : c.op0.toNat < 2 ^ 16) (hctx : s.cmdCtx c = some (n, x, root)) (hqueue : c.op1.toNat < 16) (hbase : c.op3.toNat % 4096 = 0)
    (hrecord : c.op2.toNat % 64 = 0) (hn : 0 < fld c.op4.toNat 0 16) (hmax : fld c.op4.toNat 0 16 ≤ 4096)
    (hzero : fld c.op4.toNat 20 12 = 0) (hdead : 0 < fld c.op4.toNat 32 32) (hlate : fld c.op4.toNat 32 32 ≤ 1000000)
    (hold : SMap.get none (s.vif c.vi).corrals c.op1.toNat = none) (hread : s.fwRead x.asid c.op2.toNat 64 = some bs)
    (hgood : nrBad (leNat bs) = false) : ∃ (u : State) (q : Corral), exec .corral s = .next (u.finishCmd c 0 0 0 0) ∧
      SMap.get none (u.vif c.vi).corrals c.op1.toNat = some q ∧ q.ctx = n ∧ q.record = leNat bs ∧ q.base = c.op3.toNat ∧
      q.n = fld c.op4.toNat 0 16 ∧ q.deadline = fld c.op4.toNat 32 32 ∧ q.pending = [] ∧ u.mem = s.mem := by
  have hsetUp : bit (cop c 1) 4 = false := by
    refine decide_eq_false ?_
    show c.op1.toNat / 2 ^ 4 % 2 ^ 1 ≠ 1
    omega
  have hbad : corralBad c = false := by
    have hclean : cclean c 1 5 = true := cclean_iff.mpr (Nat.lt_trans hqueue (by decide))
    have h3 : cop c 3 = c.op3.toNat := rfl
    have h4 : cop c 4 = c.op4.toNat := rfl
    simp only [corralBad, hclean, h3, h4, hbase, hzero, Bool.not_true, Bool.false_or, Bool.or_eq_false_iff, decide_eq_false_iff_not]
    omega
  have hmod : cop c 1 % 16 = c.op1.toNat := Nat.mod_eq_of_lt hqueue
  let q : Corral :=
    { ctx := n, record := leNat bs, base := cop c 3, n := fld (cop c 4) 0 16,
      buffers := if fld (cop c 4) 16 4 = 0 then 16 else fld (cop c 4) 16 4, deadline := fld (cop c 4) 32 32, pending := [], seq := 0,
      nextBuf := 0, busy := [], removing := false }
  have hexec : exec .corral s = ((s.modVif c.vi fun v => { v with corrals := SMap.set none v.corrals c.op1.toNat (some q) }).endCmd c 0 0) := by
    refine (s.command_host hev cmdCorral).trans ?_
    rw [cmdCorral, State.withCtx_held hop hctx, hmod]
    dsimp only
    rw [hsetUp, hbad, hold]
    refine (if_neg Bool.false_ne_true).trans ((if_neg Bool.false_ne_true).trans ?_)
    have hread' : s.fwRead x.asid (cop c 2) 64 = some bs := hread
    dsimp only
    rw [State.setUp, hread']
    refine if_neg ?_
    rw [hgood]
    rintro (h | h)
    · exact h hrecord
    · cases h
  exact ⟨_, q, hexec, State.corral_modVif s c.vi _ _, rfl, rfl, rfl, rfl, rfl, rfl, rfl⟩

theorem enqueue_joins {s : State} {c : HostCmd} {n : Nat} {x : Ctx} {root : Nat} {y : Corral} (hev : s.ev = .host c)
    (hctx : s.cmdCtx c = some (n, x, root)) (hqueue : SMap.get none (s.vif c.vi).corrals (fld c.op0.toNat 16 4) = some y) (hy : y.ctx = n)
    (hstays : y.removing = false) :
    (65536 ≤ y.pending.length → exec .enqueue s = .next (s.finishCmd c 2 0 0 0)) ∧
    (y.pending.length < 65536 → ∃ (u : State) (r : Request), exec .enqueue s = .next (u.finishCmd c 0 0 0 (y.pending.length + 1)) ∧
      SMap.get none (u.vif c.vi).corrals (fld c.op0.toNat 16 4) = some { y with pending := y.pending ++ [r] } ∧ r.placed = s.cycle ∧
      r.tag = c.tag.toNat ∧ r.ops = [c.op0, c.op1, c.op2, c.op3, c.op4, c.op5] ∧ u.mem = s.mem) := by
  have hqueue' : SMap.get none (s.vif c.vi).corrals (fld (cop c 0) 16 4) = some y := hqueue
  have hexec : exec .enqueue s = if 65536 ≤ y.pending.length then s.endCmd c 2 0 else
      (s.modVif c.vi fun v => { v with corrals := SMap.set none v.corrals (fld c.op0.toNat 16 4) (some { y with pending := y.pending ++
        [{ ops := [c.op0, c.op1, c.op2, c.op3, c.op4, c.op5], tag := c.tag.toNat, placed := s.cycle }] }) }).endCmd c 0
          (y.pending.length + 1) := by
    refine (s.command_host hev cmdEnqueue).trans ?_
    rw [cmdEnqueue, hctx]
    dsimp only
    rw [hqueue']
    refine if_neg ?_
    rw [hstays]
    rintro (h | h)
    · exact h hy
    · cases h
  refine ⟨fun hfull => hexec.trans (if_pos hfull), fun hroom => ?_⟩
  exact ⟨_, _, hexec.trans (if_neg (Nat.not_le.mpr hroom)), State.corral_modVif s c.vi _ _, rfl, rfl, rfl, rfl⟩

/-! ### Batches (R357) -/

/-- The gather queue behind the forming of a batch in buffer `b`. -/
def Corral.formed (q : Corral) (cycle b : Nat) : Corral :=
  { q with pending := q.pending.drop ((q.ripe cycle).take q.n).length, seq := q.seq + 1, nextBuf := (b + 1) % q.buffers, busy := q.busy ++ [b] }

/-- What a batch that is refused comes to: its buffer is free again, and an event tells of it. -/
def State.batchRefused (s : State) (v n b ctx : Nat) : State := (s.freeBuffer v n b).postEvent v (eventWord 5 0 ctx 0 0 0xFFFF 0 0 0 0 0)

/-- What follows a write that is made and then checks that pass. -/
theorem checkedWrite {f : Option State} {u : State} {v asid : Nat} {P p : Parsed} (A : Host.Outcome State Fault Refusal)
    (C : State → Host.Outcome State Fault Refusal) (D : State → Parsed → Host.Outcome State Fault Refusal) :
    f = some u → u.checkNodes v asid P (some []) = .ok p →
      (match f with
       | none => A
       | some w => match w.checkNodes v asid P (some []) with
         | .error _ => C w
         | .ok p => D w p) = D u p := by
  intro hf hp
  subst hf
  dsimp only
  rw [hp]

/-- The queue that forms a batch takes its requests. -/
def State.batched (s : State) (v n b : Nat) (q : Corral) : State :=
  s.modVif v fun x => { x with corrals := SMap.set none x.corrals n (some (q.formed s.cycle b)) }

theorem exec_batchForm (s : State) : exec .batchForm s = execBatchForm s := rfl

section
variable {s : State} {v n b : Nat} {q : Corral}

theorem exec_batchForm_unheld (hev : s.ev = .nats [v, n]) (hq : SMap.get none (s.vif v).corrals n = some q)
    (hb : q.freeBuf = some b) (hforms : q.forms s.cycle = true) (hctx : (s.batched v n b q).ctx v q.ctx = none) :
    exec .batchForm s = .next ((s.batched v n b q).batchRefused v n b q.ctx) := by
  have hv : s.ev.nat 0 = v := by rw [hev]; rfl
  have hn : s.ev.nat 1 = n := by rw [hev]; rfl
  rw [exec_batchForm]
  unfold State.batched Corral.formed at hctx ⊢
  simp only [execBatchForm, hv, hn, hq, hb, hforms, hctx, Bool.not_true, Bool.false_eq_true, if_false]
  rfl

theorem exec_batchForm_held {u : State} {x : Ctx} {p : Parsed} (hev : s.ev = .nats [v, n]) (hq : SMap.get none (s.vif v).corrals n = some q)
    (hb : q.freeBuf = some b) (hforms : q.forms s.cycle = true) (hctx : (s.batched v n b q).ctx v q.ctx = some x)
    (hwrite : (s.batched v n b q).fwWrite x.asid (q.base + b * q.stride) (batchBytes q n (s.batched v n b q).cycle ((q.ripe s.cycle).take q.n)) = some u)
    (hcheck : u.checkNodes v x.asid { recs := [batchRecord q.record (q.base + b * q.stride)], edges := [], doneCtr := 0 } (some []) = .ok p) :
    exec .batchForm s = .next ((u.enterGraph v q.ctx p (some (n, b, q.seq, ((q.ripe s.cycle).take q.n).length))).1.settleGraph
      (u.enterGraph v q.ctx p (some (n, b, q.seq, ((q.ripe s.cycle).take q.n).length))).2.1) := by
  have hv : s.ev.nat 0 = v := by rw [hev]; rfl
  have hn : s.ev.nat 1 = n := by rw [hev]; rfl
  rw [exec_batchForm]
  unfold State.batched Corral.formed at hctx hwrite
  simp only [execBatchForm, hv, hn, hq, hb, hforms, hctx, Bool.not_true, Bool.false_eq_true, if_false]
  obtain ⟨P, hP⟩ : ∃ P : Parsed, P = { recs := [batchRecord q.record (q.base + b * q.stride)], edges := [], doneCtr := 0 } := ⟨_, rfl⟩
  rw [← hP] at hcheck ⊢
  exact checkedWrite _ (fun w => .next (w.batchRefused v n b q.ctx)) (fun w p =>
    .next ((w.enterGraph v q.ctx p (some (n, b, q.seq, ((q.ripe s.cycle).take q.n).length))).1.settleGraph
      (w.enterGraph v q.ctx p (some (n, b, q.seq, ((q.ripe s.cycle).take q.n).length))).2.1)) hwrite hcheck

end

/-- A free buffer is not busy. -/
theorem Corral.freeBuf_not_busy {q : Corral} {b : Nat} (h : q.freeBuf = some b) : b ∉ q.busy := by
  have := List.find?_some (p := fun b => !q.busy.contains b) h
  simpa using this

theorem batch_refused {s : State} {v n b : Nat} {q : Corral} (hev : s.ev = .nats [v, n]) (hq : SMap.get none (s.vif v).corrals n = some q)
    (hb : q.freeBuf = some b) (hforms : q.forms s.cycle = true) (hstays : q.removing = false) (hctx : s.ctx v q.ctx = none) :
    ∃ (t : State) (y : Corral), exec .batchForm s = .next t ∧
      SMap.get none (t.vif v).corrals n = some y ∧ y.pending = q.pending.drop ((q.ripe s.cycle).take q.n).length ∧ y.seq = q.seq + 1 ∧
      y.busy = q.busy ∧ y.nextBuf = (b + 1) % q.buffers := by
  let w := s.batched v n b q
  have hexec : exec .batchForm s = .next (w.batchRefused v n b q.ctx) := exec_batchForm_unheld hev hq hb hforms hctx
  have hbusy : (q.formed s.cycle b).busy.filter (fun y => decide (y ≠ b)) = q.busy := by
    rw [Corral.formed, List.filter_append, List.filter_cons_of_neg (by simp), List.filter_nil, List.append_nil]
    exact List.filter_eq_self.mpr fun y hy => decide_eq_true fun h => Corral.freeBuf_not_busy hb (h ▸ hy)
  have hfree : SMap.get none ((w.freeBuffer v n b).vif v).corrals n = some { q.formed s.cycle b with busy := q.busy } := by
    have hw : SMap.get none (w.vif v).corrals n = some (q.formed s.cycle b) := State.corral_modVif s v n _
    rw [State.freeBuffer, State.vif_modVif, if_pos rfl, hw]
    dsimp only
    rw [SMap.get_set_same, hbusy, show (q.formed s.cycle b).removing = false from hstays]
    rfl
  obtain ⟨mem, rings, hpost⟩ := (w.freeBuffer v n b).postEvent_eq v (eventWord 5 0 q.ctx 0 0 0xFFFF 0 0 0 0 0)
  refine ⟨_, { q.formed s.cycle b with busy := q.busy }, hexec, ?_, rfl, rfl, rfl, rfl⟩
  rw [State.batchRefused, hpost]
  exact hfree

end Sys2Proof.Machine
end

section
/-!
Host commands on resources: VIRESET, ASSIGN and FABCFG (R340, R341, R345, R358); with O57.
-/

namespace Sys2Proof.Machine

/-! ### VIRESET (R358) -/

/-- What the end of lanes and channels leaves. -/
def State.hostView (s : State) : SMap Vif × SMap (Option Group) × List Ticket := (s.vifs, s.groups, s.tickets)

theorem State.hostView_releaseLane (s : State) (die n : Nat) : (s.releaseLane die n).hostView = s.hostView := by
  have hset : ∀ (t : State) (l : Lane), (t.setLane die n l).hostView = t.hostView := fun _ _ => rfl
  have hstop : (s.stopLane die n).hostView = s.hostView := by
    unfold State.stopLane
    refine (hset _ _).trans ((foldl_keeps State.hostView (fun t x => ?_) _ _).trans rfl)
    split <;> rfl
  exact (hset _ _).trans hstop

theorem State.hostView_releaseChan (s : State) (n : Nat) : (s.releaseChan n).hostView = s.hostView := by
  unfold State.releaseChan
  refine (foldl_keeps State.hostView (fun t x => ?_) _ _).trans rfl
  split <;> rfl

/-- An interface behind step 4 of its reset. -/
def Vif.resetWork (x : Vif) : Vif :=
  { x with corrals := [], nextHandle := 1, credits := (List.range 4).foldl (fun m p => SMap.set 1 m p x.weight) [] }

theorem State.hostView_resetVif (s : State) (v : Nat) : (s.resetVif v).hostView =
    ((s.modVif v Vif.resetWork).vifs, s.groups.filter (fun e => decide (e.1 / 4096 ≠ v)), s.tickets) := by
  unfold State.resetVif
  refine (foldl_keeps State.hostView (fun t e => ?_) _ _).trans ((foldl_keeps State.hostView (fun t e => ?_) _ _).trans rfl)
  · split
    · exact State.hostView_releaseChan t _
    · rfl
  · split
    · exact State.hostView_releaseLane t _ _
    · rfl

/-- Groups of an interface are gone once the groups of no other one are left. -/
theorem get_groups_others (m : SMap (Option Group)) {v g : Nat} (hg : g < 4096) :
    SMap.get none (m.filter fun e => decide (e.1 / 4096 ≠ v)) (4096 * v + g) = none := by
  refine (get_filter_key none (fun k => decide (k / 4096 ≠ v)) m (4096 * v + g)).trans (if_neg ?_)
  have hv : (4096 * v + g) / 4096 = v := by omega
  simp [hv]

theorem vireset_refused {s : State} {c : HostCmd} (hev : s.ev = .host c) (hvi : c.vi ≠ 0) (hop : c.op0 ≠ 0) :
    exec .vireset s = .next (s.finishCmd c 1 0 0 0) := by
  refine (s.command_host hev cmdVireset).trans (if_pos (.inr ⟨hvi, fun h => hop ?_⟩))
  exact BitVec.eq_of_toNat_eq h

theorem State.destroyNodes_none {s : State} (h : s.nodes = []) (v : Nat) (sel : Nat → Bool) : s.destroyNodes v sel = (s, true) := by
  have hnone : s.nodesOf v sel = [] := by
    rw [State.nodesOf, State.liveNodes, h]
    rfl
  simp only [State.destroyNodes, hnone, List.foldl_nil, List.isEmpty_nil]

theorem State.dropRoots_none {s : State} (h : s.ctxs = []) (c v : Nat) (sel : Nat → Bool) : s.dropRoots c v sel = s := by
  rw [State.dropRoots, h]
  rfl

theorem State.syncTickets_nil (s : State) : s.syncTickets [] = { s with tickets := s.tickets.filter fun _ => true } :=
  State.syncTickets_unwaited fun _ _ _ _ _ _ _ _ _ => List.not_mem_nil

/-- Of a package without nodes and contexts a quiet interface is reset at once. -/
theorem exec_vireset {s : State} {c : HostCmd} (hev : s.ev = .host c) (hvi : c.vi ≠ 0) (hop : c.op0 = 0) (htickets : s.tickets = [])
    (hnodes : s.nodes = []) (hctxs : s.ctxs = []) (hquiet : (s.resetVif c.vi).vifQuiet c.vi = true) :
    exec .vireset s = .next ((((((s.resetVif c.vi).syncTickets []).dropCtxs c.vi fun _ => true).clearScratch
      ((s.resetVif c.vi).vif c.vi).cores).finishCmd c 0 0 0 0).disableRings c.vi) := by
  have hids : (s.resetVif c.vi).cmdTickets c.vi = [] := by
    have : (s.resetVif c.vi).tickets = [] := (congrArg (fun x : SMap Vif × SMap (Option Group) × List Ticket => x.2.2)
      (s.hostView_resetVif c.vi)).trans htickets
    rw [State.cmdTickets, this]
    rfl
  have hgood : ¬ ((c.vi = 0 ∧ cclean c 0 6 = false) ∨ (c.vi ≠ 0 ∧ cop c 0 ≠ 0)) := by
    rintro (⟨h, -⟩ | ⟨-, h⟩)
    · exact hvi h
    · exact h (by rw [cop, hop]; rfl)
  refine (s.command_host hev cmdVireset).trans ((if_neg hgood).trans ?_)
  dsimp only
  rw [if_neg hvi, if_neg (fun h => h.1 rfl), State.destroyNodes_none hnodes, State.dropRoots_none hctxs, hids, hquiet]
  rfl

theorem vireset_resets {s : State} {c : HostCmd} (hev : s.ev = .host c) (hvi : c.vi ≠ 0) (hop : c.op0 = 0) (htickets : s.tickets = [])
    (hnodes : s.nodes = []) (hctxs : s.ctxs = []) (hquiet : (s.resetVif c.vi).vifQuiet c.vi = true) :
    ∃ t, exec .vireset s = .next t ∧ (t.ring c.vi).enabled = false ∧
      (t.ring c.vi).entry = none ∧ (t.vif c.vi).corrals = [] ∧ (t.vif c.vi).nextHandle = 1 ∧
      ∀ g, g < 4096 → SMap.get none t.groups (4096 * c.vi + g) = none := by
  refine ⟨_, exec_vireset hev hvi hop htickets hnodes hctxs hquiet, ?_⟩
  have hview := s.hostView_resetVif c.vi
  have hvif : (s.resetVif c.vi).vif c.vi = (s.vif c.vi).resetWork := by
    have hvifs : (s.resetVif c.vi).vifs = (s.modVif c.vi Vif.resetWork).vifs := congrArg Prod.fst hview
    rw [State.vif, hvifs]
    exact SMap.get_set_same _ _ _ _
  have hgroups : (s.resetVif c.vi).groups = s.groups.filter fun e => decide (e.1 / 4096 ≠ c.vi) :=
    congrArg (fun x : SMap Vif × SMap (Option Group) × List Ticket => x.2.1) hview
  rw [State.syncTickets_nil]
  generalize s.resetVif c.vi = r at hvif hgroups
  obtain ⟨mem, rings, agenda, times, hfinish⟩ := State.finishCmd_eq
    ((({ r with tickets := r.tickets.filter fun _ => true } : State).dropCtxs c.vi fun _ => true).clearScratch (r.vif c.vi).cores) c 0 0 0 0
  rw [hfinish]
  have hdropped : ((r.modVif c.vi fun x => { x with corrals := x.corrals.filter fun e => match e.2 with | some _ => false | none => false }).vif
      c.vi) = { (s.vif c.vi).resetWork with corrals := [] } := by
    rw [State.vif_modVif, if_pos rfl, hvif]
    rfl
  refine ⟨?_, ?_, ?_, ?_, ?_⟩
  · rw [State.disableRings, State.ring_modRing_same, Ring.enabled, w64, BitVec.getLsbD_ofNat,
      Nat.testBit_lt_two_pow (Nat.mod_lt _ (by decide)), Bool.and_false]
  · rw [State.disableRings, State.ring_modRing_same]
  · exact (congrArg Vif.corrals hdropped)
  · exact (congrArg Vif.nextHandle hdropped)
  · intro g hg
    show SMap.get none r.groups _ = none
    rw [hgroups]
    exact get_groups_others _ hg

/-! ### ASSIGN (R345) -/

theorem State.passing_zero (s : State) (v : Nat) : s.passing v 0 = [] :=
  List.filterMap_eq_nil_iff.mpr fun e _ => if_neg fun h => by simp at h

/-- The cores of a set of which an assignment makes an interface the owner. -/
theorem State.owner_own_ (s : State) (v set : Nat) {n : Nat} (hn : n < 176) (hset : set.testBit n = true) :
    SMap.get 0 (s.own_ v set).owners n = v + 1 := by
  have hmem : n ∈ (List.range 176).filter fun n => set.testBit n := List.mem_filter.mpr ⟨List.mem_range.mpr hn, hset⟩
  unfold State.own_
  generalize (List.range 176).filter (fun n => set.testBit n) = l at hmem
  show SMap.get 0 (l.foldl (fun m n => SMap.set 0 m n (v + 1)) s.owners) n = v + 1
  have hkeep : ∀ (l : List Nat) (m : SMap Nat), SMap.get 0 m n = v + 1 → SMap.get 0 (l.foldl (fun m n => SMap.set 0 m n (v + 1)) m) n = v + 1 := by
    intro l
    induction l with
    | nil => exact fun _ h => h
    | cons a l ih =>
      refine fun m h => ih _ ?_
      rw [SMap.get_set, h, ite_self]
  obtain ⟨l₁, l₂, rfl⟩ := List.append_of_mem hmem
  rw [List.foldl_append, List.foldl_cons]
  exact hkeep l₂ _ (SMap.get_set_same _ _ _ _)

theorem assign_denied {s : State} {c : HostCmd} (hev : s.ev = .host c) (hvi : c.vi ≠ 0) : exec .assign s = .next (s.finishCmd c 3 0 0 0) :=
  (s.command_host hev cmdAssign).trans (if_pos hvi)

/-- The cores that an assignment names: those of item 0. -/
def assignedCores (c : HostCmd) : Nat := if cop c 1 = 0 then cop c 2 + 2 ^ 64 * cop c 3 + 2 ^ 128 * cop c 4 else 0

/-- The state behind an assignment with nothing to wait for. -/
def State.assigned (s : State) (c : HostCmd) (f : Vif → Vif) : State :=
  ((s.syncTickets []).modVif c.op0.toNat f).own_ c.op0.toNat (assignedCores c)

/-- An assignment that is valid, and whose cores pass from no other interface, takes effect at once. -/
theorem exec_assign {s : State} {c : HostCmd} {f : Vif → Vif} (hev : s.ev = .host c) (hvi : c.vi = 0) (hop : c.op0.toNat < 64)
    (htickets : s.cmdTickets 0 = []) (hitem : s.assignItem c.op0.toNat c.op1.toNat c = .ok f)
    (hpass : s.passing c.op0.toNat (assignedCores c) = []) : exec .assign s = .next ((s.assigned c f).finishCmd c 0 0 0 0) := by
  have hclean : cclean c 0 6 = true := cclean_iff.mpr hop
  have hitem' : s.assignItem (cop c 0) (cop c 1) c = .ok f := hitem
  have hids : s.cmdTickets c.vi = [] := by rw [hvi]; exact htickets
  have hpass' : s.passing (cop c 0) (if cop c 1 = 0 then cop c 2 + 2 ^ 64 * cop c 3 + 2 ^ 128 * cop c 4 else 0) = [] := hpass
  refine (s.command_host hev cmdAssign).trans ((if_neg (not_not.mpr hvi)).trans ?_)
  rw [hclean, hitem', hids]
  refine (if_neg Bool.false_ne_true).trans ((if_neg Bool.false_ne_true).trans ?_)
  exact if_pos hpass'

theorem State.vif_assigned (s : State) (c : HostCmd) (f : Vif → Vif) (v : Nat) :
    (s.assigned c f).vif v = if v = c.op0.toNat then f (s.vif c.op0.toNat) else s.vif v := by
  rw [State.assigned, State.syncTickets_nil]
  exact State.vif_modVif _ _ _ _

theorem State.mem_assigned (s : State) (c : HostCmd) (f : Vif → Vif) : (s.assigned c f).mem = s.mem := by
  rw [State.assigned, State.syncTickets_nil]
  rfl

theorem assign_sets {s : State} {c : HostCmd} (hev : s.ev = .host c) (hvi : c.vi = 0) (hop : c.op0.toNat < 64)
    (htickets : s.cmdTickets 0 = []) :
    (c.op1 = 0 → let set := c.op2.toNat + 2 ^ 64 * c.op3.toNat + 2 ^ 128 * c.op4.toNat
      s.assignCores c.op0.toNat set = 0 → s.passing c.op0.toNat set = [] → ∃ u : State, exec .assign s = .next (u.finishCmd c 0 0 0 0) ∧
        (u.vif c.op0.toNat).cores = set ∧ (∀ n, n < 176 → set.testBit n = true → SMap.get 0 u.owners n = c.op0.toNat + 1) ∧
        u.mem = s.mem ∧ ∀ v, v ≠ c.op0.toNat → u.vif v = s.vif v) ∧
    (c.op1 = 1 → 1 ≤ c.op2.toNat → c.op2.toNat ≤ 255 → ∃ u : State, exec .assign s = .next (u.finishCmd c 0 0 0 0) ∧
      (u.vif c.op0.toNat).weight = c.op2.toNat ∧ (u.vif c.op0.toNat).cores = (s.vif c.op0.toNat).cores ∧ u.mem = s.mem ∧
      ∀ v, v ≠ c.op0.toNat → u.vif v = s.vif v) ∧
    (c.op1 = 6 → 20 ≤ c.op2.toNat → c.op2.toNat ≤ 30 → ∃ u : State, exec .assign s = .next (u.finishCmd c 0 0 0 0) ∧
      (u.vif c.op0.toNat).watchdog = c.op2.toNat ∧ ∀ v, v ≠ c.op0.toNat → u.vif v = s.vif v) := by
  have hother : ∀ (f : Vif → Vif) v, v ≠ c.op0.toNat → (s.assigned c f).vif v = s.vif v := fun f v hv =>
    (s.vif_assigned c f v).trans (if_neg hv)
  have hown : ∀ f : Vif → Vif, (s.assigned c f).vif c.op0.toNat = f (s.vif c.op0.toNat) := fun f =>
    (s.vif_assigned c f _).trans (if_pos rfl)
  have hnone : c.op1 ≠ 0 → s.passing c.op0.toNat (assignedCores c) = [] := fun h => by
    rw [assignedCores, if_neg (fun h0 : cop c 1 = 0 => h (BitVec.eq_of_toNat_eq h0)), State.passing_zero]
  refine ⟨fun h1 => ?_, fun h1 hlo hhi => ?_, fun h1 hlo hhi => ?_⟩
  · intro set hcheck hpass
    have hset : (assignedCores c) = set := if_pos (show c.op1.toNat = 0 by rw [h1]; rfl)
    have hitem : s.assignItem c.op0.toNat c.op1.toNat c = .ok fun y => { y with cores := set } := by
      rw [h1]
      exact if_pos hcheck
    have hexec := exec_assign hev hvi hop htickets hitem (by rw [hset]; exact hpass)
    refine ⟨_, hexec, by rw [hown], fun n hn hbit => ?_, s.mem_assigned c _, fun v => hother _ v⟩
    exact State.owner_own_ _ _ _ hn (by rw [hset]; exact hbit)
  · have hitem : s.assignItem c.op0.toNat c.op1.toNat c =
        .ok fun y => { y with weight := c.op2.toNat, credits := (List.range 4).foldl (fun m p => SMap.set 1 m p c.op2.toNat) [] } := by
      rw [h1]
      exact if_pos ⟨hlo, hhi⟩
    have hexec := exec_assign hev hvi hop htickets hitem (hnone (by rw [h1]; decide))
    exact ⟨_, hexec, by rw [hown], by rw [hown], s.mem_assigned c _, fun v => hother _ v⟩
  · have hitem : s.assignItem c.op0.toNat c.op1.toNat c = .ok fun y => { y with watchdog := c.op2.toNat } := by
      rw [h1]
      exact if_pos ⟨hlo, hhi⟩
    have hexec := exec_assign hev hvi hop htickets hitem (hnone (by rw [h1]; decide))
    exact ⟨_, hexec, by rw [hown], fun v => hother _ v⟩

/-! ### FABCFG (R340, R341) -/

/-- The package with a group of number `k`, or without it. -/
def State.setGroup (s : State) (k : Nat) (g : Option Group) : State := { s with groups := SMap.set none s.groups k g }

theorem State.group_setGroup (s : State) (k : Nat) (g : Option Group) : SMap.get none (s.setGroup k g).groups k = g :=
  SMap.get_set_same none s.groups k g

theorem group_sets {s : State} {c : HostCmd} {x : Ctx} (hev : s.ev = .host c) (h0 : c.op0 = 0) (h1 : c.op1.toNat < 2)
    (h2 : c.op2.toNat < 4096) (h3 : c.op3.toNat < 4096) (h4 : c.op4.toNat % 8 = 0) (h5 : c.op5.toNat < 65536)
    (hctx : s.ctx c.vi c.op5.toNat = some x) (hfirst : memKind (hostAddr c.op4.toNat) = some .host)
    (hlast : memKind (hostAddr (c.op4.toNat + 511)) = some .host) : let m := s.readN (hostAddr c.op4.toNat) 512
    ∃ u : State, exec .fabcfgGroup s = .next (u.finishCmd c 0 0 0 0) ∧ u.mem = s.mem ∧ SMap.get none u.groups (4096 * c.vi + c.op2.toNat) =
      if m = 0 then none else some { root := c.op3.toNat, members := m, ctx := c.op5.toNat } := by
  intro m
  have hgood : ¬ (cop c 0 ≠ 0 ∨ !(cclean c 1 1) ∨ !(cclean c 2 12) ∨ !(cclean c 3 12) ∨ cop c 4 % 8 ≠ 0 ∨ !(cclean c 5 16)) := by
    have hop : cop c 0 = 0 := by rw [cop, h0]; rfl
    rw [hop, cclean_iff.mpr h1, cclean_iff.mpr h2, cclean_iff.mpr h3, cclean_iff.mpr h5, show cop c 4 % 8 = 0 from h4]
    decide
  have hhost : ¬ (memKind (hostAddr (cop c 4)) ≠ some .host ∨ memKind (hostAddr (cop c 4 + 511)) ≠ some .host) := by
    rintro (h | h)
    · exact h hfirst
    · exact h hlast
  have hctx' : s.ctx c.vi (cop c 5) = some x := hctx
  refine ⟨s.setGroup (4096 * c.vi + c.op2.toNat) _, ?_, rfl, s.group_setGroup _ _⟩
  refine (s.command_host hev cmdGroup).trans ((if_neg hgood).trans ?_)
  rw [hctx']
  exact if_neg hhost

theorem mirror_pairs {s : State} {c : HostCmd} (hev : s.ev = .host c) (h0 : c.op0 = 0) (h1 : c.op1.toNat < 2)
    (h2 : c.op2.toNat < 4096) (h3 : c.op3.toNat < 4096) (h4 : c.op4 = 0) (hne : c.op2 ≠ c.op3) : let l := SMap.get [] s.mirrors c.vi
    (∀ q ∈ l, q.primary ≠ c.op2.toNat) →
    (16 ≤ l.length → exec .fabcfgMirror s = .next (s.finishCmd c 2 0 0 0)) ∧
    (l.length < 16 → ∃ u : State, exec .fabcfgMirror s = .next (u.finishCmd c 0 0 0 0) ∧ u.mem = s.mem ∧
      SMap.get [] u.mirrors c.vi = l ++ [{ primary := c.op2.toNat, secondary := c.op3.toNat, lostP := false, lostS := false }]) := by
  intro l hnew
  have hop : cop c 4 = 0 := by rw [cop, h4]; rfl
  have hgood : ¬ (cop c 0 ≠ 0 ∨ !(cclean c 1 1) ∨ !(cclean c 2 12) ∨ !(cclean c 3 12) ∨ !(cclean c 4 2)) := by
    have hzero : cop c 0 = 0 := by rw [cop, h0]; rfl
    rw [hzero, cclean_iff.mpr h1, cclean_iff.mpr h2, cclean_iff.mpr h3, cclean_iff.mpr (show cop c 4 < 2 ^ 2 by rw [hop]; decide)]
    decide
  have hfree : ¬ (cop c 2 = cop c 3 ∨ l.any (fun x => decide (x.primary = cop c 2)) = true) := by
    rintro (h | h)
    · exact hne (BitVec.eq_of_toNat_eq h)
    · obtain ⟨q, hq, hprimary⟩ := List.any_eq_true.mp h
      exact hnew q hq (of_decide_eq_true hprimary)
  let y : MirrorPair := { primary := c.op2.toNat, secondary := c.op3.toNat, lostP := false, lostS := false }
  have hexec : exec .fabcfgMirror s = if 16 ≤ l.length then s.endCmd c 2 0 else
      ({ s with mirrors := SMap.set [] s.mirrors c.vi (l ++ [y]) } : State).endCmd c 0 0 :=
    (s.command_host hev cmdMirror).trans ((if_neg hgood).trans ((if_neg (not_not.mpr hop)).trans (if_neg hfree)))
  refine ⟨fun hfull => hexec.trans (if_pos hfull), fun hroom => ?_⟩
  exact ⟨_, hexec.trans (if_neg (Nat.not_le.mpr hroom)), rfl, SMap.get_set_same _ _ _ _⟩

/-- Settles O57: each command from its checks and what it does to its interface. -/
theorem hostWork : Obligations.HostWork :=
  ⟨fun _ _ _ _ _ hev hop hctx => submit_accepts hev hop hctx,
    fun _ _ _ _ _ _ hev hop hctx hq hb hr hn hm hz hd hl hold hread hgood =>
      corral_setsUp hev hop hctx hq hb hr hn hm hz hd hl hold hread hgood,
    fun _ _ _ _ _ _ hev hctx hq hy hr => enqueue_joins hev hctx hq hy hr,
    fun _ _ _ _ _ hev hq hb hf hr hctx => batch_refused hev hq hb hf hr hctx,
    fun _ _ _ _ _ _ _ _ hev hq hb hf hctx hwrite hcheck => exec_batchForm_held hev hq hb hf hctx hwrite hcheck,
    fun _ _ hev hvi => ⟨fun hop => vireset_refused hev hvi hop, fun hop ht hn hc hquiet => vireset_resets hev hvi hop ht hn hc hquiet⟩,
    fun _ _ hev hvi => assign_denied hev hvi, fun _ _ hev hvi hop ht => assign_sets hev hvi hop ht,
    fun _ _ _ hev h0 h1 h2 h3 h4 h5 hctx hf hl => group_sets hev h0 h1 h2 h3 h4 h5 hctx hf hl,
    fun _ _ hev h0 h1 h2 h3 h4 hne => mirror_pairs hev h0 h1 h2 h3 h4 hne⟩

end Sys2Proof.Machine
end

section
/-!
SUPPORT. Sums over the lanes that a predicate enables (R55, R56): the number whose fields they are.
-/

namespace Sys2Proof.Machine

theorem foldl_range_packElem (w k n : Nat) (g : Nat → Nat) :
    (List.range n).foldl (fun acc i => acc + g (k + i) % 2 ^ w * 2 ^ (w * (k + i))) (packElem w k g) = packElem w (k + n) g := by
  induction n with
  | zero => rfl
  | succ n ih =>
    rw [List.range_succ, List.foldl_append, ih, List.foldl_cons, List.foldl_nil, ← Nat.add_assoc, packElem_succ, Nat.add_comm,
      Nat.mul_comm]

/-- What lane `i` adds to such a sum: its value where the predicate enables it, and else 0. -/
def State.enabled (s : State) (n : BitVec 3) (x : Nat → Nat) (i : Nat) : Nat := if (s.p n).getLsbD i then x i else 0

/-- A sum over the enabled lanes adds 16 fields. -/
theorem State.foldl_lanes_packElem {s : State} {n : BitVec 3} {w k : Nat} {x g : Nat → Nat} {f : Nat → Nat × Nat → Nat}
    (hg : ∀ i, i < 16 → g (k + i) % 2 ^ w = s.enabled n x i)
    (hf : ∀ acc i, i < 16 → f acc (i, 16 * s.curCl + i) = acc + x i * 2 ^ (w * (k + i))) :
    (s.lanes n).foldl f (packElem w k g) = packElem w (k + 16) g := by
  rw [State.lanes, List.foldl_map, List.foldl_filter, ← foldl_range_packElem]
  refine List.foldl_ext _ _ _ fun acc i hi => ?_
  have hi := List.mem_range.mp hi
  rw [hg i hi, State.enabled, hf acc i hi]
  split
  · rfl
  · rw [Nat.zero_mul, Nat.add_zero]

end Sys2Proof.Machine
end

section
/-!
Predicate instructions and tile moves (R55, R185, R186): O23, O24.
-/

namespace Sys2Proof.Machine

/-! ### Predicates (R55, R186) -/

/-- An instruction whose body is a result for Pd writes that value and completes in sequence. -/
theorem State.issue_toP {s : State} {i : Instr} {body : State → Res} {pd : BitVec 3} {v w : BitVec 16} (h : s.issues i)
    (hb : body s.fresh = toP pd v s.fresh) (hv : v = w) :
    s.issue i body = .next (s.fresh.result 1 (.p pd.toNat 0xFFFF w)).inSequence := by
  subst hv
  exact State.issue_done h hb

theorem and_eq_ofNat_toNat {n : Nat} (x y : BitVec n) : x &&& y = BitVec.ofNat n (x.toNat &&& y.toNat) :=
  BitVec.eq_of_toNat_eq (by simp)

theorem or_eq_ofNat_toNat {n : Nat} (x y : BitVec n) : x ||| y = BitVec.ofNat n (x.toNat ||| y.toNat) :=
  BitVec.eq_of_toNat_eq (by simp)

theorem not_eq_ofNat_toNat (x : BitVec 16) : ~~~x = BitVec.ofNat 16 (65535 - x.toNat) := by
  refine BitVec.eq_of_toNat_eq ?_
  rw [BitVec.toNat_not, BitVec.toNat_ofNat]
  omega

/-- A write of all bits of P[r] leaves nothing of its old value, and P0 stays all ones (R55). -/
theorem Core.readP_applyWrite_all (k : Core) (cl r : Nat) (v : BitVec 16) :
    ((k.applyWrite cl accAdd (.p r 0xFFFF v)).cluster cl).readP r = if r = 0 then 0xFFFF else v := by
  have hall : (k.cluster cl).readP r &&& ~~~0xFFFF ||| v &&& 0xFFFF = v := by
    rw [show (0xFFFF : BitVec 16) = BitVec.allOnes 16 from rfl, BitVec.not_allOnes, BitVec.and_zero, BitVec.and_allOnes,
      BitVec.zero_or]
  rw [Core.applyWrite, hall, Core.cluster_setCluster]
  split
  next h0 => rw [h0]; rfl
  next h0 => exact Cluster.readP_writeP _ v h0

theorem predicateInstructions : Claim.PredicateInstructions :=
  ⟨fun _ _ h => State.issue_toP h rfl (and_eq_ofNat_toNat _ _), fun _ _ h => State.issue_toP h rfl (or_eq_ofNat_toNat _ _),
    fun _ _ h => State.issue_toP h rfl (not_eq_ofNat_toNat _), fun _ _ h => State.issue_toP h rfl rfl, Core.readP_applyWrite_all⟩

/-- A word with a bit set in one of the reserved fields of its format is refused (Table 7-12, row 5). -/
theorem decode_reserved_fields {v : Nat} {rs : List (Nat × Nat)} {i : Instr} (hlen : fld v 30 2 = 0) (hd : dec32 v = chk v rs i)
    (hz : zeros v rs = false) : decode v = .error .illfld := by
  have hm : dec32 v = .error .illfld := hd.trans (if_neg (by simp [hz]))
  simp only [decode, hlen, hm]

theorem zeros_eq_false_iff {v : Nat} {rs : List (Nat × Nat)} : zeros v rs = false ↔ ∃ r ∈ rs, fld v r.1 r.2 ≠ 0 := by
  simp only [zeros, List.all_eq_false, decide_eq_true_eq, ne_eq]

/-- A register field whose reserved bits are clear names its register. -/
theorem toNat_truncate_of_lt {x : BitVec 5} (h : x.toNat < 8) : (x.truncate 3).toNat = x.toNat := by
  rw [BitVec.truncate_eq_setWidth, BitVec.toNat_setWidth]
  exact Nat.mod_eq_of_lt h

/-- The fields of a word of major opcode 0x50 (Table 7-1). -/
theorem fld_predicate_word {v d a b x : Nat} (hd : d < 32) (ha : a < 32) (hb : b < 32) (hx : x < 128)
    (hv : v = 0x50 * 2 ^ 22 + d * 2 ^ 17 + a * 2 ^ 12 + b * 2 ^ 7 + x) :
    fld v 30 2 = 0 ∧ fld v 22 7 = 0x50 ∧ fld v 0 7 = x ∧ fld v 20 2 = d / 8 ∧ fld v 15 2 = a / 8 ∧ fld v 10 2 = b / 8 ∧
      fld v 7 5 = b := by
  simp only [fld]
  omega

theorem dec32_predicate {v : Nat} (h : fld v 22 7 = 0x50) : dec32 v = dec32M50 v := by
  rw [dec32, h]
  rfl

theorem decode_pred3 {mk : Pred3 → Instr} {x : Nat} (hx : x < 128) (hi : ∀ o, Claim.encodable false 0 (mk o))
    (he : ∀ o, encFields false 0 (mk o) = encPred3 0x50 x false o)
    (hdec : ∀ v, fld v 0 7 = x → dec32M50 v = chk v [(10, 2), (15, 2), (20, 2)] (mk (decPred3 v)))
    (d a b : BitVec 5) : decode (0x50 * 2 ^ 22 + d.toNat * 2 ^ 17 + a.toNat * 2 ^ 12 + b.toNat * 2 ^ 7 + x) =
      if d.toNat < 8 ∧ a.toNat < 8 ∧ b.toNat < 8 then .ok (mk { pd := d.truncate 3, pa := a.truncate 3, pb := b.truncate 3 })
      else .error .illfld := by
  split
  next h =>
    obtain ⟨hd, ha, hb⟩ := h
    refine decode_word (hi _) ?_
    simp only [encode, he, encPred3, cat, encHead, List.cons_append, List.nil_append, Bool.toNat_false, toNat_truncate_of_lt hd,
      toNat_truncate_of_lt ha, toNat_truncate_of_lt hb]
    omega
  next h =>
    obtain ⟨v, hv⟩ : ∃ v, v = 0x50 * 2 ^ 22 + d.toNat * 2 ^ 17 + a.toNat * 2 ^ 12 + b.toNat * 2 ^ 7 + x := ⟨_, rfl⟩
    obtain ⟨hlen, hmaj, hsub, hfd, hfa, hfb, -⟩ := fld_predicate_word d.isLt a.isLt b.isLt hx hv
    rw [← hv]
    refine decode_reserved_fields hlen ((dec32_predicate hmaj).trans (hdec v hsub)) (zeros_eq_false_iff.mpr ?_)
    simp only [List.exists_mem_cons_iff, List.not_mem_nil, false_and, exists_false, or_false, hfd, hfa, hfb]
    omega

theorem decode_pnot (d a b : BitVec 5) :
    decode (0x50 * 2 ^ 22 + d.toNat * 2 ^ 17 + a.toNat * 2 ^ 12 + b.toNat * 2 ^ 7 + 0x02) =
      if d.toNat < 8 ∧ a.toNat < 8 ∧ b = 0 then .ok (.pnot { pd := d.truncate 3, pa := a.truncate 3 }) else .error .illfld := by
  split
  next h =>
    obtain ⟨hd, ha, rfl⟩ := h
    have he (o : Pred2) : encFields false 0 (.pnot o) = encPred2 0x50 0x02 false o := rfl
    refine decode_word ⟨Nat.one_pos, rfl, nofun, trivial⟩ ?_
    simp only [encode, he, encPred2, cat, encHead, List.cons_append, List.nil_append, Bool.toNat_false, toNat_truncate_of_lt hd,
      toNat_truncate_of_lt ha]
    have hzero : (0 : BitVec 5).toNat = 0 := rfl
    omega
  next h =>
    obtain ⟨v, hv⟩ : ∃ v, v = 0x50 * 2 ^ 22 + d.toNat * 2 ^ 17 + a.toNat * 2 ^ 12 + b.toNat * 2 ^ 7 + 0x02 := ⟨_, rfl⟩
    obtain ⟨hlen, hmaj, hsub, hfd, hfa, -, hfb⟩ := fld_predicate_word d.isLt a.isLt b.isLt (by decide) hv
    have hrow : dec32 v = chk v [(7, 5), (15, 2), (20, 2)] (.pnot (decPred2 v)) :=
      (dec32_predicate hmaj).trans (by rw [dec32M50, hsub]; rfl)
    have hzero : b = 0 ↔ b.toNat = 0 := BitVec.toNat_eq
    rw [hzero] at h
    rw [← hv]
    refine decode_reserved_fields hlen hrow (zeros_eq_false_iff.mpr ?_)
    simp only [List.exists_mem_cons_iff, List.not_mem_nil, false_and, exists_false, or_false, hfd, hfa, hfb]
    omega

theorem decode_pset (d : BitVec 5) (z : Bool) (imm : BitVec 16) :
    decode (0x51 * 2 ^ 22 + d.toNat * 2 ^ 17 + z.toNat * 2 ^ 16 + imm.toNat) =
      if d.toNat < 8 ∧ z = false then .ok (.pset { pd := d.truncate 3, imm := imm }) else .error .illfld := by
  have hdlt := d.isLt
  have hilt := imm.isLt
  split
  next h =>
    obtain ⟨hd, rfl⟩ := h
    have he (o : PSetOps) : encFields false 0 (.pset o) = encPSetOps 0x51 false o := rfl
    refine decode_word ⟨Nat.one_pos, rfl, nofun, trivial⟩ ?_
    simp only [encode, he, encPSetOps, cat, encHead, List.cons_append, List.nil_append, Bool.toNat_false, toNat_truncate_of_lt hd]
    omega
  next h =>
    have hz := z.toNat_lt
    obtain ⟨v, hv⟩ : ∃ v, v = 0x51 * 2 ^ 22 + d.toNat * 2 ^ 17 + z.toNat * 2 ^ 16 + imm.toNat := ⟨_, rfl⟩
    obtain ⟨hlen, hmaj, hfd, hfz⟩ : fld v 30 2 = 0 ∧ fld v 22 7 = 0x51 ∧ fld v 20 2 = d.toNat / 8 ∧ fld v 16 1 = z.toNat := by
      simp only [fld]; omega
    have hrow : dec32 v = chk v [(16, 1), (20, 2)] (.pset (decPSetOps v)) := by rw [dec32, hmaj]; rfl
    have hclear : z = false ↔ z.toNat = 0 := Bool.toNat_eq_zero.symm
    rw [hclear] at h
    rw [← hv]
    refine decode_reserved_fields hlen hrow (zeros_eq_false_iff.mpr ?_)
    simp only [List.exists_mem_cons_iff, List.not_mem_nil, false_and, exists_false, or_false, hfd, hfz]
    omega

theorem predicateWords : Claim.PredicateWords := by
  refine ⟨?_, decode_pnot, decode_pset, rfl, rfl⟩
  simp only [List.forall_mem_cons]
  refine ⟨?_, ?_, List.forall_mem_nil _⟩
  all_goals
    exact decode_pred3 (by decide) (fun _ => ⟨Nat.one_pos, rfl, nofun, trivial⟩) (fun _ => rfl)
      fun v hs => by rw [dec32M50, hs]; rfl

/-- Settles O23: the instructions from their bodies, the words by the encoder and the decoder's reserved fields. -/
theorem predicateRegisters : Obligations.PredicateRegisters := ⟨predicateInstructions, predicateWords⟩

/-! ### Moves (R185) -/

/-- An instruction whose body is a tile write of a destination that is not locked completes in sequence with it. -/
theorem tileWrite_of_body {s : State} {i : Instr} {body : State → Res} {l : Nat} {d : BitVec 5} {pred : BitVec 3} {mode : Rnd}
    {src : Option (BitVec 5)} {f : BitVec 32 → Nat → Nat → List Elem × FFlags} (hi : s.issues i) (hexec : exec i s = s.issue i body)
    (hlock : s.myCore.locked d.toNat = false) (hbody : body s.fresh = tileOp l d pred mode src f s.fresh) :
    ∃ t, tileOp l d pred mode src f s.fresh = .done t ∧ exec i s = .next t.inSequence := by
  obtain ⟨t, ht⟩ := tileOp_done (s := s.fresh) hlock l pred mode src f
  exact ⟨t, ht, hexec.trans (State.issue_done hi (hbody.trans ht))⟩

theorem insBody_done {o : Mov3} {s : State} (hlock : s.myCore.locked o.td.toNat = false) :
    insBody o s = .done (if (s.p o.pred).getLsbD ((s.x o.tb).toNat % 16) then
      (s.modMe fun c => { c with latch := none }).result 2 (.tile [(tileKey o.td.toNat ((s.x o.tb).toNat / 16 % 16)
        (16 * s.curCl + (s.x o.tb).toNat % 16), (s.x o.ta).truncate 32)])
      else s.modMe fun c => { c with latch := none }) := by
  have hp : (s.modMe fun c => { c with latch := none }).p o.pred = s.p o.pred := by rw [State.p, State.me_modMe]; rfl
  have hx (r : BitVec 5) : (s.modMe fun c => { c with latch := none }).x r = s.x r := by rw [State.x, State.me_modMe]; rfl
  simp only [insBody, hlock, Bool.false_eq_true, if_false, hp, hx]
  split <;> rfl

/-- Settles O24: moves and splats are tile writes, an insertion is one element where its column is enabled, an extraction a result for a
scalar register. -/
theorem tileMoves : Obligations.TileMoves := by
  refine ⟨fun o s hi hl => tileWrite_of_body hi rfl hl rfl, fun o s hi hl => tileWrite_of_body hi rfl hl rfl,
    fun o s hi hl => ?ins, fun o s hi => ?ext⟩
  case ins =>
    refine (State.issue_done hi (insBody_done (s := s.fresh) hl)).trans ?_
    rw [apply_ite State.inSequence]
    rfl
  case ext =>
    refine State.issue_done hi ?_
    rw [BitVec.ofNat_toNat]
    rfl

end Sys2Proof.Machine
end

section
/-!
Tile select, compare, special functions and conversions (R175-R181): O32.
-/

namespace Sys2Proof.Machine

/-! ### Compare (R176) -/

/-- The bits of a predicate register formed as a sum over the enabled lanes are those whose lane adds its power of two. -/
theorem State.getLsbD_lanes_sum {s : State} {n : BitVec 3} {holds : Nat → Bool} {k : Nat} (hk : k < 16)
    (hp : (s.p n).getLsbD k = true) :
    (BitVec.ofNat 16 ((s.lanes n).foldl (fun acc ij => if holds ij.2 then acc + 2 ^ ij.1 else acc) 0)).getLsbD k =
      holds (16 * s.curCl + k) := by
  have hbit (i : Nat) : s.enabled n (fun i => (holds (16 * s.curCl + i)).toNat) i % 2 ^ 1 =
      s.enabled n (fun i => (holds (16 * s.curCl + i)).toNat) i := by
    rw [State.enabled]
    cases (s.p n).getLsbD i <;> cases holds (16 * s.curCl + i) <;> rfl
  have hsum : (s.lanes n).foldl (fun acc ij => if holds ij.2 then acc + 2 ^ ij.1 else acc) 0 =
      packElem 1 16 (s.enabled n fun i => (holds (16 * s.curCl + i)).toNat) := by
    refine State.foldl_lanes_packElem (k := 0) (x := fun i => (holds (16 * s.curCl + i)).toNat) (fun i _ => ?_) fun acc i _ => ?_
    · rw [Nat.zero_add, hbit]
    · cases holds (16 * s.curCl + i) <;> simp
  have hfield := fld_packElem (w := 1) (s.enabled n fun i => (holds (16 * s.curCl + i)).toNat) hk
  rw [hbit, State.enabled, if_pos hp, Nat.one_mul, pow_one] at hfield
  rw [hsum, BitVec.getLsbD_ofNat, decide_eq_true hk, Bool.true_and, Nat.testBit_eq_decide_div_mod_eq, hfield]
  cases holds (16 * s.curCl + k) <;> rfl

/-- Whether the condition of a compare holds at any, or at every, value position of a column. -/
def cmpHolds (m : Mods) (cond : Nat) (any : Bool) (ca cb : List Elem) : Bool :=
  if any then (List.range m.ety.count).any (cmpAt m cond ca cb) else (List.range m.ety.count).all (cmpAt m cond ca cb)

theorem cmpHolds_iff {m : Mods} {cond : Nat} {any : Bool} {ca cb : List Elem} : cmpHolds m cond any ca cb = true ↔
    if any then ∃ q, q < m.ety.count ∧ cmpAt m cond ca cb q = true else ∀ q, q < m.ety.count → cmpAt m cond ca cb q = true := by
  cases any <;> simp [cmpHolds]

/-- An instruction whose body is a compare writes the enabled bits of Pd. -/
theorem compareTile_of_body {s : State} {i : Instr} {body : State → Res} {pd : BitVec 3} {a : BitVec 5} {cond : BitVec 4} {any : Bool}
    {m : Mods} {cb : Nat → List Elem} (hi : s.issues i) (hexec : exec i s = s.issue i body)
    (hbody : body s.fresh = cmpBody pd a cond any m cb s.fresh) : Claim.compareTile s i pd a cond any m cb := by
  have hp : (s.fresh.modMe fun c => { c with latch := some a }).p m.pred = s.p m.pred := by rw [State.p, State.me_modMe]; rfl
  have hdone : cmpBody pd a cond any m cb s.fresh = .done ((s.fresh.modMe fun c => { c with latch := some a }).result 2
      (.p pd.toNat (s.p m.pred) (BitVec.ofNat 16 ((s.lanes m.pred).foldl (fun acc ij =>
        if cmpHolds m cond.toNat any (s.myCore.column a.toNat ij.2) (cb ij.2) then acc + 2 ^ ij.1 else acc) 0)))) := by
    rw [← hp]
    rfl
  refine ⟨_, hexec.trans (State.issue_done hi (hbody.trans hdone)), fun k hk hpk => ?_⟩
  rw [State.getLsbD_lanes_sum (holds := fun j => cmpHolds m cond.toNat any (s.myCore.column a.toNat j) (cb j)) hk hpk]
  exact cmpHolds_iff

theorem tileSelectCompare : Claim.TileSelectCompare := by
  refine ⟨fun o s hi hl => tileWrite_of_body hi rfl hl ?sel, fun _ _ hi hl => tileWrite_of_body hi rfl hl rfl,
    fun _ _ hi => compareTile_of_body hi rfl rfl, fun _ _ hi => compareTile_of_body hi rfl rfl⟩
  have hcol (i j : Nat) : s.myCore.column (if (s.p o.sel).getLsbD i then o.a else o.b).toNat j =
      if (s.p o.sel).getLsbD i then s.myCore.column o.a.toNat j else s.myCore.column o.b.toNat j :=
    apply_ite (fun t : BitVec 5 => s.myCore.column t.toNat j) ..
  simp only [hcol]
  rfl

/-! ### Special functions and conversions (R177-R181) -/

theorem tileSpecialConvert : Claim.TileSpecialConvert := by
  refine ⟨?special, fun o s hi hl => values_of_body hi rfl hl rfl, fun o s hi hl => values_of_body hi rfl hl rfl,
    fun o s hi hl => values_of_body hi rfl hl ?unpk⟩
  case special =>
    simp only [List.forall_mem_cons]
    refine ⟨?_, ?_, ?_, ?_, ?_, ?_, ?_, ?_, ?_, ?_, nofun⟩ <;> exact fun o s hi hl => values_of_body hi rfl hl rfl
  case unpk =>
    have hoff (v : Nat) : (if o.hi then v + o.m.ety.count else v) = v + o.hi.toNat * o.m.ety.count := by cases o.hi <;> simp
    simp only [hoff]
    rfl

/-- Settles O32: a select is a tile write, a compare a sum over the enabled lanes, and every special function or conversion a tile write
computed position by position. -/
theorem tileSelectAndConvert : Obligations.TileSelectAndConvert := ⟨tileSelectCompare, tileSpecialConvert⟩

end Sys2Proof.Machine
end

section
/-!
SUPPORT. Instructions of several accesses (R125, R187-R189): what their checks grant and refuse, which bytes their loads deliver, and
what their stores in the own scratchpad leave in memory.
-/

namespace Sys2Proof.Machine

/-! ### Checks (R125, R187) -/

theorem State.onlyFilled.trans {s t u : State} (h : s.onlyFilled t) (g : t.onlyFilled u) : s.onlyFilled u := by
  unfold State.onlyFilled at *
  rw [g, h]

theorem State.onlyFilled.storeOnly {s t : State} (h : s.onlyFilled t) : Claim.storeOnly s t := storeOnly_of_package h

section
variable {need : Need} {align : Nat} {l : List (Nat × Word)}

theorem State.checkEach_filled {s u : State} {ps : List Piece} (h : s.checkEach need align l = .ok (u, ps)) : s.onlyFilled u := by
  induction l generalizing s ps with
  | nil =>
    obtain ⟨rfl, -⟩ := Prod.mk.inj (Except.ok.inj h)
    rfl
  | cons q l ih =>
    rw [State.checkEach] at h
    split at h
    · cases h
    next t e pa ha =>
      split at h
      · cases h
      next u' r hr =>
        obtain ⟨rfl, -⟩ := Prod.mk.inj (Except.ok.inj h)
        exact State.onlyFilled.trans (State.access_fill ha) (ih hr)

theorem State.checkAll_of_checkEach {s u : State} {ps : List Piece} (h : s.checkEach need align l = .ok (u, ps))
    (hc : need ≠ .store ∨ ∀ p ∈ ps, pteC p.ent = false) : s.checkAll need align l = .ok (u, ps) := by
  have hnone : (if need = .store then ps.find? fun p => pteC p.ent else none) = none := by
    obtain hn | hc := hc
    · exact if_neg hn
    · exact (ite_eq_right_iff.mpr fun _ => List.find?_eq_none.mpr fun p hp => by simp [hc p hp])
  simp only [State.checkAll, h, hnone]

theorem State.checkAll_counter {s u : State} {a b : List Piece} {p : Piece}
    (h : s.checkEach .store align l = .ok (u, a ++ p :: b)) (ha : ∀ q ∈ a, pteC q.ent = false) (hp : pteC p.ent = true) :
    s.checkAll .store align l = .error (cCNTSTORE, w64 p.ea) := by
  have hfirst : (a ++ p :: b).find? (fun p => pteC p.ent) = some p :=
    List.find?_eq_some_iff_append.mpr ⟨hp, a, b, rfl, fun q hq => by simp [ha q hq]⟩
  simp only [State.checkAll, h, if_true, hfirst]

theorem State.checkAll_refused {s : State} {e : Nat × Word} (h : s.checkEach need align l = .error e) :
    s.checkAll need align l = .error e := by
  rw [State.checkAll, h]

theorem State.checkAll_filled {s u : State} {ps : List Piece} (h : s.checkAll need align l = .ok (u, ps)) : s.onlyFilled u := by
  unfold State.checkAll at h
  split at h
  · cases h
  next r hr =>
    split at h
    · cases h
    · obtain rfl := Except.ok.inj h
      exact State.checkEach_filled hr

end

/-- A refused access that does not wait for order raises its trap. -/
theorem Res.denied_trap {e : Nat × Word} (h : e.1 ≠ cOrder) : Res.denied e = .trap e.1 e.2 := if_neg h

/-! ### What an access leaves as it is -/

theorem storeOnly_touch (s : State) (pa n : Nat) : Claim.storeOnly s (s.touch pa n) := by
  have hhit : Claim.storeOnly s ((s.landOwn pa n).hit pa n) :=
    storeOnly_trans (storeOnly_of_package (State.hasten_eq s _)) (storeOnly_of_package (State.hit_eq _ pa n))
  unfold State.touch
  dsimp only
  split
  · exact storeOnly_trans hhit (storeOnly_modMe _ rfl)
  · exact hhit

theorem storeOnly_traffic (s : State) (pa n : Nat) (k : Traffic) : Claim.storeOnly s (s.traffic pa n k) :=
  storeOnly_of_package (State.bursts_eq s _ n k)

theorem storeOnly_reach (s : State) (pa n : Nat) (k : Traffic) : Claim.storeOnly s (s.reach pa n k) :=
  storeOnly_trans (storeOnly_touch s pa n) (storeOnly_traffic _ pa n k)

theorem storeOnly_setCells (s : State) (pa : Nat) (cells : List (Nat × Byte)) : Claim.storeOnly s (s.setCells pa cells) :=
  storeOnly_of_package (State.setCells_eq s pa cells)

theorem storeOnly_refl (s : State) : Claim.storeOnly s s := storeOnly_of_package rfl

theorem storeOnly_foldl {α : Type} {f : State → α → State} (h : ∀ s a, Claim.storeOnly s (f s a)) (l : List α) (s : State) :
    Claim.storeOnly s (l.foldl f s) :=
  List.foldlRecOn (motive := fun t => Claim.storeOnly s t) _ _ (storeOnly_refl s) fun t ht a _ => storeOnly_trans ht (h t a)

section
variable {s t : State} (h : Claim.storeOnly s t)
include h

theorem curCore_of_storeOnly : t.curCore = s.curCore := (congrArg State.curCore h.1).trans rfl

theorem curCl_of_storeOnly : t.curCl = s.curCl := (congrArg State.curCl h.1).trans rfl

theorem own_of_storeOnly (pa : Nat) : t.own pa = s.own pa := by
  rw [State.own, State.own, curCore_of_storeOnly h]

theorem p_of_storeOnly (r : BitVec 3) : t.p r = s.p r := by
  obtain ⟨-, -, -, -, hme⟩ := h
  rw [State.p, State.p, hme]
  rfl

theorem lanes_of_storeOnly (r : BitVec 3) : t.lanes r = s.lanes r := by
  rw [State.lanes, State.lanes, p_of_storeOnly h, curCl_of_storeOnly h]

theorem tiles_of_storeOnly : t.myCore.tiles = s.myCore.tiles := by
  obtain ⟨-, -, hcore, -, -⟩ := h
  rw [hcore]

end

/-- The enabled lanes, with their columns (R55, R56). -/
theorem State.mem_lanes {s : State} {n : BitVec 3} {l : Nat × Nat} :
    l ∈ s.lanes n ↔ ∃ i, i < 16 ∧ (s.p n).getLsbD i = true ∧ l = (i, 16 * s.curCl + i) := by
  simp only [State.lanes, List.mem_map, List.mem_filter, List.mem_range, and_assoc, eq_comm]

/-! ### Loads (R188, R189) -/

theorem Piece.unpack_pack (ps : List Piece) : Piece.unpack (Piece.pack ps) = ps := by
  induction ps with
  | nil => rfl
  | cons p ps ih => rw [Piece.pack, Piece.unpack, ih]

/-- With every access performed somewhere the pieces of a load are the bytes that its completion reads there. -/
theorem State.loadPieces_ok {s : State} {ps : List Piece} (n : Nat) (h : ∀ p ∈ ps, ∃ as, s.dest p.leaf p.pa true = .ok as) :
    ∃ bs, s.loadPieces n ps = .ok bs ∧ ∀ b, b ∈ bs ↔
      ∃ p ∈ ps, ∃ as, s.dest p.leaf p.pa true = .ok as ∧ b = (p.key, s.view (as.headD p.pa) n) := by
  induction ps with
  | nil => exact ⟨[], rfl, by simp⟩
  | cons p ps ih =>
    obtain ⟨as, has⟩ := h p List.mem_cons_self
    obtain ⟨bs, hbs, hmem⟩ := ih fun q hq => h q (List.mem_cons_of_mem p hq)
    have hload : s.loadPiece p n = .ok (s.view (as.headD p.pa) n) := by rw [State.loadPiece, has]
    refine ⟨(p.key, s.view (as.headD p.pa) n) :: bs, by simp only [State.loadPieces, hload, hbs], fun b => ?_⟩
    simp only [List.mem_cons, hmem, exists_eq_or_imp, has, Except.ok.injEq, exists_eq_left']

/-- BLOCKING_COMPLETION of a load whose pieces are all read writes its result and releases its cluster. -/
theorem completes_of_closeTrap {s : State} {h : Hold} {r : State → Except (Nat × Word) State} {w : Write} (hheld : Claim.held s h)
    (hc : complete h s.resumed = s.resumed.closeTrap h (r s.resumed)) (hr : r s.resumed = .ok (s.resumed.resultOf h.since w)) :
    Claim.completes s h w := by
  obtain ⟨hact, hsince⟩ := hheld
  exact (blockingCompletion_eq hact hsince).trans (congrArg _ (by rw [hc, hr]; rfl))

/-! ### Stores in the own scratchpad (R187) -/

theorem State.mem_setCells_congr {s t : State} (hmem : t.mem = s.mem) (hmedia : ∀ q, t.media q = s.media q) (pa : Nat)
    (cells : List (Nat × Byte)) : (t.setCells pa cells).mem = (s.setCells pa cells).mem := by
  rw [State.setCells_eq, State.setCells_eq, hmem]
  simp only [hmedia]

/-- A store touches one of its bytes by offset. The step has a name so that a fold over it is compared by that name. -/
def State.touchCell (pa : Nat) (s : State) (c : Nat × Byte) : State := s.touch (pa + c.1) 1

theorem storeOnly_touchCell (pa : Nat) (s : State) (c : Nat × Byte) : Claim.storeOnly s (s.touchCell pa c) := by
  rw [State.touchCell]
  exact storeOnly_touch s (pa + c.1) 1

theorem State.mem_touchCell (pa : Nat) (s : State) (c : Nat × Byte) : (s.touchCell pa c).mem = s.mem :=
  (s.touch_kept (pa + c.1) 1).1

/-- A store touches all its bytes by offset. -/
def State.touchCells (s : State) (pa : Nat) (cells : List (Nat × Byte)) : State := cells.foldl (State.touchCell pa) s

theorem storeOnly_touchCells (s : State) (pa : Nat) (cells : List (Nat × Byte)) : Claim.storeOnly s (s.touchCells pa cells) :=
  storeOnly_foldl (storeOnly_touchCell pa) cells s

theorem State.mem_touchCells (s : State) (pa : Nat) (cells : List (Nat × Byte)) : (s.touchCells pa cells).mem = s.mem :=
  foldl_keeps State.mem (State.mem_touchCell pa) cells s

theorem State.mem_traffic (s : State) (pa n : Nat) (k : Traffic) : (s.traffic pa n k).mem = s.mem := by
  rw [State.traffic, State.bursts_eq]

/-- The store of one piece with its bytes by offset. -/
def State.storePiece (size : Nat) (s : State) (p : Piece × List (Nat × Byte)) : State :=
  if p.2.isEmpty then s
  else if pteKind p.1.ent = 3 then
    (s.touchCells p.1.pa p.2).modMe fun c =>
      { c with dtBuf := c.dtBuf ++ [{ va := p.1.ea, pa := p.1.pa, size := size, cells := p.2 }] }
  else ((s.touchCells p.1.pa p.2).traffic p.1.pa size .write).post p.1.leaf p.1.pa p.2 (w64 p.1.ea)

theorem storePieces_posted (size : Nat) {l : List (Piece × List (Nat × Byte))} {s : State} (h : ∀ p ∈ l, pteKind p.1.ent ≠ 3) :
    storePieces size l s = .done (l.foldl (State.storePiece size) s) := by
  have hdt : (l.filter fun p => decide (pteKind p.1.ent = 3) && !p.2.isEmpty) = [] :=
    List.filter_eq_nil_iff.mpr fun p hp => by simp [h p hp]
  rw [storePieces, hdt]
  rfl

theorem State.post_cells_own {s : State} {pa : Nat} (h : s.own pa = true) (e : TlbEntry) (cells : List (Nat × Byte)) (ea : Word)
    (sync : Bool) : s.post e pa cells ea sync = s.setCells pa cells :=
  if_pos h

/-- A piece in the own scratchpad, not on a DT page, is stored at once. -/
theorem State.storePiece_own (size : Nat) {s : State} {p : Piece × List (Nat × Byte)} (hown : s.own p.1.pa = true)
    (hkind : pteKind p.1.ent ≠ 3) :
    Claim.storeOnly s (s.storePiece size p) ∧ (s.storePiece size p).mem = (s.setCells p.1.pa p.2).mem := by
  unfold State.storePiece
  split
  next hempty =>
    rw [List.isEmpty_iff.mp hempty]
    exact ⟨storeOnly_refl s, rfl⟩
  next =>
    have honly := storeOnly_trans (storeOnly_touchCells s p.1.pa p.2) (storeOnly_traffic _ p.1.pa size .write)
    have hmem := (State.mem_traffic _ p.1.pa size .write).trans (s.mem_touchCells p.1.pa p.2)
    rw [State.post_cells_own ((own_of_storeOnly honly p.1.pa).trans hown)]
    exact ⟨storeOnly_trans honly (storeOnly_setCells _ _ _), State.mem_setCells_congr hmem (media_of_storeOnly honly) _ _⟩

/-- Pieces in the own scratchpad, none of them on a DT page, are stored at once, each with its bytes. -/
theorem storePieces_own (size : Nat) {l : List (Piece × List (Nat × Byte))} {s : State}
    (h : ∀ p ∈ l, s.own p.1.pa = true ∧ pteKind p.1.ent ≠ 3) : ∃ t, storePieces size l s = .done t ∧
      t.mem = (l.foldl (fun (t : State) p => t.setCells p.1.pa p.2) s).mem := by
  refine ⟨_, storePieces_posted size fun p hp => (h p hp).2, ?_⟩
  refine (List.foldl_rel (r := fun a b : State => a.mem = b.mem ∧ Claim.storeOnly s a ∧ Claim.storeOnly s b)
    ⟨rfl, storeOnly_refl s, storeOnly_refl s⟩ fun p hp a b hab => ?_).1
  obtain ⟨hmem, ha, hb⟩ := hab
  obtain ⟨hown, hkind⟩ := h p hp
  obtain ⟨hstep, hstepMem⟩ := State.storePiece_own size ((own_of_storeOnly ha p.1.pa).trans hown) hkind
  have hmedia (q : Nat) : a.media q = b.media q := (media_of_storeOnly ha q).trans (media_of_storeOnly hb q).symm
  exact ⟨hstepMem.trans (State.mem_setCells_congr hmem hmedia _ _), storeOnly_trans ha hstep,
    storeOnly_trans hb (storeOnly_setCells b _ _)⟩

/-- The bytes of an element at an offset are stored in a row. -/
theorem State.setCells_elemBytes (s : State) (pa off : Nat) (e : Elem) :
    s.setCells pa (elemBytes off e) = s.setBytes (pa + off) (leBytes 4 e.toNat) := by
  rw [← State.setCells_enum, State.setCells, State.setCells, elemBytes, List.foldl_map]
  simp only [Nat.add_assoc]

end Sys2Proof.Machine
end

section
/-!
Tile loads and stores, gather, scatter and queue transfers (R187-R191): O35.
-/

namespace Sys2Proof.Machine

/-- The reads of the pieces of a load reach memory. -/
def State.readAll (s : State) (ps : List Piece) (n : Nat) : State := ps.foldl (fun (t : State) p => t.reach p.pa n .read) s

theorem storeOnly_readAll (s : State) (ps : List Piece) (n : Nat) : Claim.storeOnly s (s.readAll ps n) :=
  storeOnly_foldl (fun t (p : Piece) => storeOnly_reach t p.pa n .read) ps s

/-! ### VLD (R188) -/

/-- The elements of a segment: each enabled column receives its own four bytes. -/
theorem mem_segCells {d r c k : Nat} {f : Nat → Bool} {bs : List Byte} {v : Elem} :
    (k, v) ∈ segCells d r (((List.range 16).filter f).map fun i => (i, 16 * c + i)) bs ↔ ∃ i, i < 16 ∧ f i = true ∧
      k = tileKey d r (16 * c + i) ∧ v = BitVec.ofNat 32 (leNat ((bs.drop (4 * i)).take 4)) := by
  simp only [segCells, List.map_map, List.mem_map, List.mem_filter, List.mem_range, Function.comp_apply, Prod.mk.injEq, and_assoc,
    eq_comm]

section
variable {o : TMem} {s u : State} {ps : List Piece} (hlock : s.myCore.locked o.d.toNat = false) (hal : (s.x o.a).toNat % 64 = 0)
include hlock hal

theorem bodyVld_refused {e : Nat × Word} (h : s.checkAll .load 64 ((List.range 16).map fun i => (i, segAddr s o i)) = .error e)
    (he : e.1 ≠ cOrder) : bodyVld o s = .trap e.1 e.2 := by
  simp only [bodyVld, hlock, Bool.false_eq_true, if_false, if_neg (not_not_intro hal), h]
  exact Res.denied_trap he

variable (h : s.checkAll .load 64 ((List.range 16).map fun i => (i, segAddr s o i)) = .ok (u, ps))
include h

theorem bodyVld_own (hown : ∀ p ∈ ps, u.own p.pa = true) : bodyVld o s = .done ((u.readAll ps 64).result 8 (.tile (ps.flatMap fun p =>
    segCells o.d.toNat p.key (s.lanes o.pred) ((u.readAll ps 64).view p.pa 64)))) := by
  have hread := storeOnly_readAll u ps 64
  have hall : (ps.all fun p => (u.readAll ps 64).own p.pa) = true :=
    List.all_eq_true.mpr fun p hp => (own_of_storeOnly hread p.pa).trans (hown p hp)
  have hlanes : (u.readAll ps 64).lanes o.pred = s.lanes o.pred :=
    lanes_of_storeOnly (storeOnly_trans (State.checkAll_filled h).storeOnly hread) o.pred
  simp only [bodyVld, hlock, Bool.false_eq_true, if_false, if_neg (not_not_intro hal), h]
  rw [← hlanes]
  exact if_pos hall

theorem bodyVld_away (haway : ∃ p ∈ ps, u.own p.pa = false) : ∃ g : Hold, bodyVld o s =
    .hold ((u.readAll ps 64).completeOpen 1) g ∧ g.instr = .vld o ∧ g.kind = .blocking ∧
      g.vals = (s.p o.pred).toNat :: Piece.pack ps := by
  have hread := storeOnly_readAll u ps 64
  have hall : ¬(ps.all fun p => (u.readAll ps 64).own p.pa) = true := by
    obtain ⟨p, hp, hno⟩ := haway
    intro hall
    have := List.all_eq_true.mp hall p hp
    rw [own_of_storeOnly hread, hno] at this
    exact Bool.false_ne_true this
  have hp : (u.readAll ps 64).p o.pred = s.p o.pred := p_of_storeOnly (storeOnly_trans (State.checkAll_filled h).storeOnly hread) o.pred
  simp only [bodyVld, hlock, Bool.false_eq_true, if_false, if_neg (not_not_intro hal), h]
  rw [← hp]
  exact ⟨_, if_neg hall, rfl, rfl, rfl⟩

end

theorem vld_completes {o : TMem} {s : State} {h : Hold} {m : Nat} {ps : List Piece} (hheld : Claim.held s h) (hi : h.instr = .vld o)
    (hv : h.vals = m :: Piece.pack ps) :
    let u := Claim.woken s
    (∀ p ∈ ps, ∃ as, u.dest p.leaf p.pa true = .ok as) → ∃ cells, Claim.completes s h (.tile cells) ∧
      ∀ k v, (k, v) ∈ cells ↔ ∃ p ∈ ps, ∃ as i, u.dest p.leaf p.pa true = .ok as ∧ i < 16 ∧ m.testBit i = true ∧
        k = tileKey o.d.toNat p.key (16 * u.curCl + i) ∧
        v = BitVec.ofNat 32 (leNat (((u.view (as.headD p.pa) 64).drop (4 * i)).take 4)) := by
  intro u hdest
  obtain ⟨bs, hbs, hmem⟩ := State.loadPieces_ok 64 hdest
  have hdone : vldDone o h u = .ok (u.resultOf h.since (.tile (bs.flatMap fun b => segCells o.d.toNat b.1 (u.maskLanes m) b.2))) := by
    simp only [vldDone, hv, List.drop_succ_cons, List.drop_zero, Piece.unpack_pack, hbs, List.getD_cons_zero]
  refine ⟨_, completes_of_closeTrap hheld (r := vldDone o h) (by rw [complete, hi]) hdone, fun k v => ?_⟩
  simp only [List.mem_flatMap, hmem, State.maskLanes, mem_segCells]
  constructor
  · rintro ⟨b, ⟨p, hp, as, has, rfl⟩, i, hrest⟩
    exact ⟨p, hp, as, i, has, hrest⟩
  · rintro ⟨p, hp, as, i, has, hrest⟩
    exact ⟨_, ⟨p, hp, as, has, rfl⟩, i, hrest⟩

/-! ### VST (R188) -/

theorem bodyVst_refused {o : TMem} {s : State} {e : Nat × Word} (hal : (s.x o.a).toNat % 64 = 0)
    (h : s.checkAll .store 64 ((List.range 16).map fun i => (i, segAddr s o i)) = .error e) (he : e.1 ≠ cOrder) :
    bodyVst o s = .trap e.1 e.2 := by
  simp only [bodyVst, if_neg (not_not_intro hal), h]
  exact Res.denied_trap he

/-- A segment is stored element by element. -/
theorem State.setCells_segment (t : State) (pa c : Nat) (f : Nat → Bool) (g : Nat → Elem) :
    t.setCells pa ((((List.range 16).filter f).map fun i => (i, 16 * c + i)).flatMap fun l => elemBytes (4 * l.1) (g l.2)) =
      ((List.range 16).filter f).foldl (fun (t : State) i => t.setBytes (pa + 4 * i) (leBytes 4 (g (16 * c + i)).toNat)) t := by
  simp only [← State.setCells_elemBytes]
  rw [State.setCells, List.foldl_flatMap, List.foldl_map]
  rfl

theorem bodyVst_own {o : TMem} {s u : State} {ps : List Piece} (hal : (s.x o.a).toNat % 64 = 0)
    (h : s.checkAll .store 64 ((List.range 16).map fun i => (i, segAddr s o i)) = .ok (u, ps))
    (hown : ∀ p ∈ ps, u.own p.pa = true ∧ pteKind p.ent ≠ 3) : ∃ t, bodyVst o s = .done t ∧ t.mem = (ps.foldl (fun (t : State) p =>
      ((List.range 16).filter fun i => (s.p o.pred).getLsbD i).foldl (fun (t : State) i =>
        t.setBytes (p.pa + 4 * i) (leBytes 4 (s.myCore.tile o.d.toNat p.key (16 * s.curCl + i)).toNat)) t) u).mem := by
  have hu := (State.checkAll_filled h).storeOnly
  obtain ⟨t, ht, hmem⟩ := storePieces_own 64 (s := u) (l := ps.map fun p =>
    (p, (u.lanes o.pred).flatMap fun l => elemBytes (4 * l.1) (u.myCore.tile o.d.toNat p.key l.2))) (by simpa using hown)
  refine ⟨t, ?_, hmem.trans ?_⟩
  · simp only [bodyVst, if_neg (not_not_intro hal), h]
    exact ht
  · have htile (r j : Nat) : u.myCore.tile o.d.toNat r j = s.myCore.tile o.d.toNat r j := by
      rw [Core.tile, Core.tile, tiles_of_storeOnly hu]
    simp only [List.foldl_map, htile, State.lanes, State.setCells_segment, p_of_storeOnly hu, curCl_of_storeOnly hu]

theorem tileLoadStore : Claim.TileLoadStore := by
  refine ⟨fun o s u ps hi hlock hal h hown => ?own, fun o s u ps hi hlock hal h haway => ?away,
    fun o s h m ps hheld hi hv => vld_completes hheld hi hv, fun o s u ps hi hal h hown => ?store⟩
  case own =>
    refine ⟨_, State.issue_done hi (bodyVld_own (s := s.fresh) hlock hal h hown), fun k v => ?_⟩
    simp only [List.mem_flatMap, State.lanes, mem_segCells]
    rfl
  case away =>
    obtain ⟨g, hbody, hg⟩ := bodyVld_away (s := s.fresh) hlock hal h haway
    exact ⟨g, State.issue_hold hi hbody, hg⟩
  case store =>
    obtain ⟨t, hbody, hmem⟩ := bodyVst_own (s := s.fresh) hal h hown
    exact ⟨t, State.issue_done hi hbody, hmem⟩

/-! ### VLDG, VSTS (R189) -/

theorem bodyVldg_refused {o : TIdx} {s : State} {e : Nat × Word} (hlock : s.myCore.locked o.d.toNat = false)
    (hal : (s.x o.a).toNat % 4 = 0) (h : s.checkAll .load 4 (gatherAddrs s o) = .error e) (he : e.1 ≠ cOrder) :
    bodyVldg o s = .trap e.1 e.2 := by
  simp only [bodyVldg, hlock, Bool.false_eq_true, if_false, if_neg (not_not_intro hal), h]
  exact Res.denied_trap he

theorem bodyVldg_holds {o : TIdx} {s u : State} {ps : List Piece} (hlock : s.myCore.locked o.d.toNat = false)
    (hal : (s.x o.a).toNat % 4 = 0) (h : s.checkAll .load 4 (gatherAddrs s o) = .ok (u, ps)) :
    ∃ (t : State) (g : Hold), bodyVldg o s = .hold t g ∧ g.instr = .vldg o ∧ g.kind = .blocking ∧ g.vals = Piece.pack ps := by
  simp only [bodyVldg, hlock, Bool.false_eq_true, if_false, if_neg (not_not_intro hal), h]
  exact ⟨_, _, rfl, rfl, rfl, rfl⟩

theorem vldg_completes {o : TIdx} {s : State} {h : Hold} {ps : List Piece} (hheld : Claim.held s h) (hi : h.instr = .vldg o)
    (hv : h.vals = Piece.pack ps) :
    let u := Claim.woken s
    (∀ p ∈ ps, ∃ as, u.dest p.leaf p.pa true = .ok as) → ∃ cells, Claim.completes s h (.tile cells) ∧
      ∀ k v, (k, v) ∈ cells ↔ ∃ p ∈ ps, ∃ as, u.dest p.leaf p.pa true = .ok as ∧ k = 1024 * o.d.toNat + p.key ∧
        v = BitVec.ofNat 32 (leNat (u.view (as.headD p.pa) 4)) := by
  intro u hdest
  obtain ⟨bs, hbs, hmem⟩ := State.loadPieces_ok 4 hdest
  have hdone : vldgDone o h u = .ok (u.resultOf h.since
      (.tile (bs.map fun b => (1024 * o.d.toNat + b.1, BitVec.ofNat 32 (leNat b.2))))) := by
    simp only [vldgDone, hv, Piece.unpack_pack, hbs]
  refine ⟨_, completes_of_closeTrap hheld (r := vldgDone o h) (by rw [complete, hi]) hdone, fun k v => ?_⟩
  simp only [List.mem_map, hmem, Prod.mk.injEq]
  constructor
  · rintro ⟨b, ⟨p, hp, as, has, rfl⟩, rfl, rfl⟩
    exact ⟨p, hp, as, has, rfl, rfl⟩
  · rintro ⟨p, hp, as, has, rfl, rfl⟩
    exact ⟨_, ⟨p, hp, as, has, rfl⟩, rfl, rfl⟩

theorem bodyVsts_refused {o : TIdx} {s : State} {e : Nat × Word} (hal : (s.x o.a).toNat % 4 = 0)
    (h : s.checkAll .store 4 (gatherAddrs s o) = .error e) (he : e.1 ≠ cOrder) : bodyVsts o s = .trap e.1 e.2 := by
  simp only [bodyVsts, if_neg (not_not_intro hal), h]
  exact Res.denied_trap he

theorem bodyVsts_own {o : TIdx} {s u : State} {ps : List Piece} (hal : (s.x o.a).toNat % 4 = 0)
    (h : s.checkAll .store 4 (gatherAddrs s o) = .ok (u, ps)) (hown : ∀ p ∈ ps, u.own p.pa = true ∧ pteKind p.ent ≠ 3) :
    ∃ t, bodyVsts o s = .done t ∧ t.mem = (ps.foldl (fun (t : State) p =>
      t.setBytes p.pa (leBytes 4 (SMap.get 0 s.myCore.tiles (1024 * o.d.toNat + p.key)).toNat)) u).mem := by
  obtain ⟨t, ht, hmem⟩ := storePieces_own 4 (s := u) (l := ps.map fun p =>
    (p, elemBytes 0 (SMap.get 0 u.myCore.tiles (1024 * o.d.toNat + p.key)))) (by simpa using hown)
  refine ⟨t, ?_, hmem.trans ?_⟩
  · simp only [bodyVsts, if_neg (not_not_intro hal), h]
    exact ht
  · simp only [List.foldl_map, State.setCells_elemBytes, tiles_of_storeOnly (State.checkAll_filled h).storeOnly, Nat.add_zero]

/-! ### VQPOP, VQPUSH (R190) -/

theorem queueRead_filled {q : Nat} {f : Nat → State → Res} {s : State} (hne : s.myCore.qCount q ≠ 0)
    (hst : (s.myCore.qEntry q (s.myCore.qHead q)).st = .filled) :
    queueRead q true f s = f (s.myCore.qEntry q (s.myCore.qHead q)).data (s.modMyCore fun k => k.qDrop q) := by
  simp only [queueRead, if_neg hne, hst, if_true]

theorem queueWrite_free {q data : Nat} {s : State} (hfree : s.myCore.qCount q ≠ 8) :
    queueWrite q data s = .done ((s.modMyCore fun k => k.qReserve q 0).result 1 (.queue q (s.myCore.qTail q) data)) :=
  if_neg hfree

theorem Core.qHead_qDrop (k : Core) (q : Nat) : (k.qDrop q).qHead q = (k.qHead q + 1) % 8 := SMap.get_set_same ..

theorem State.lanes_qDrop (s : State) (q : Nat) (n : BitVec 3) : (s.modMyCore fun k => k.qDrop q).lanes n = s.lanes n := by
  have hme : (s.modMyCore fun k => k.qDrop q).me = s.me := State.me_modMyCore s _
  rw [State.lanes, State.lanes, State.p, hme]
  rfl

/-- The elements that four rows of the enabled columns receive from the 256 bytes of an entry. -/
def State.entryCells (s : State) (n : BitVec 3) (d row data : Nat) : List (Nat × Elem) :=
  (List.range 4).flatMap fun r => (s.lanes n).map fun l =>
    (tileKey d (row + r) l.2, BitVec.ofNat 32 (fld data (8 * (64 * r + 4 * l.1)) 32))

theorem State.mem_entryCells {s : State} {n : BitVec 3} {d row data k : Nat} {v : Elem} :
    (k, v) ∈ s.entryCells n d row data ↔ ∃ r i, r < 4 ∧ i < 16 ∧ (s.p n).getLsbD i = true ∧
      k = tileKey d (row + r) (16 * s.curCl + i) ∧ v = BitVec.ofNat 32 (fld data (8 * (64 * r + 4 * i)) 32) := by
  simp only [State.entryCells, List.mem_flatMap, List.mem_map, List.mem_range, State.mem_lanes, Prod.mk.injEq]
  constructor
  · rintro ⟨r, hr, l, ⟨i, hlane, hp, rfl⟩, rfl, rfl⟩
    exact ⟨r, i, hr, hlane, hp, rfl, rfl⟩
  · rintro ⟨r, i, hr, hlane, hp, rfl, rfl⟩
    exact ⟨r, hr, _, ⟨i, hlane, hp, rfl⟩, rfl, rfl⟩

theorem bodyVqpop_filled {o : TQueue} {s : State} (hlock : s.myCore.locked o.d.toNat = false) (hne : s.myCore.qCount o.q.toNat ≠ 0)
    (hst : (s.myCore.qEntry o.q.toNat (s.myCore.qHead o.q.toNat)).st = .filled) :
    bodyVqpop o s = .done ((s.modMyCore fun k => k.qDrop o.q.toNat).result 4 (.tile (s.entryCells o.pred o.d.toNat (4 * o.g.toNat)
      (s.myCore.qEntry o.q.toNat (s.myCore.qHead o.q.toNat)).data))) := by
  rw [bodyVqpop, hlock, if_neg Bool.false_ne_true, queueRead_filled hne hst, State.entryCells, State.lanes_qDrop]

/-- The number that the enabled elements of four rows form, a row 64 bytes and an element four. -/
def State.rowsNat (s : State) (n : BitVec 3) (e : Nat → Nat → Elem) : Nat :=
  (List.range 4).foldl (fun acc r => (s.lanes n).foldl (fun acc l => acc + (e r l.2).toNat * 2 ^ (8 * (64 * r + 4 * l.1))) acc) 0

/-- What element `m % 16` of row `m / 16` adds to that number. -/
def State.rowField (s : State) (n : BitVec 3) (e : Nat → Nat → Elem) (m : Nat) : Nat :=
  s.enabled n (fun i => (e (m / 16) (16 * s.curCl + i)).toNat) (m % 16)

theorem State.rowField_mod (s : State) (n : BitVec 3) (e : Nat → Nat → Elem) (m : Nat) :
    s.rowField n e m % 2 ^ 32 = s.rowField n e m := by
  refine Nat.mod_eq_of_lt ?_
  unfold State.rowField State.enabled
  split
  · exact BitVec.isLt _
  · exact Nat.two_pow_pos 32

theorem State.rowField_row (s : State) (n : BitVec 3) (e : Nat → Nat → Elem) (r : Nat) {i : Nat} (hi : i < 16) :
    s.rowField n e (16 * r + i) = s.enabled n (fun i => (e r (16 * s.curCl + i)).toNat) i := by
  have hmod : (16 * r + i) % 16 = i := by omega
  have hdiv : (16 * r + i) / 16 = r := by omega
  rw [State.rowField, hmod, hdiv]

theorem State.foldl_rows (s : State) (n : BitVec 3) (e : Nat → Nat → Elem) (c : Nat) :
    (List.range c).foldl (fun acc r => (s.lanes n).foldl (fun acc l =>
      acc + (e r l.2).toNat * 2 ^ (8 * (64 * r + 4 * l.1))) acc) 0 = packElem 32 (16 * c) (s.rowField n e) := by
  induction c with
  | zero => rfl
  | succ c ih =>
    rw [List.range_succ, List.foldl_append, ih, List.foldl_cons, List.foldl_nil]
    refine State.foldl_lanes_packElem (fun i hi => (s.rowField_mod n e _).trans (s.rowField_row n e c hi)) fun acc i _ => ?_
    have hpos : 32 * (16 * c + i) = 8 * (64 * c + 4 * i) := by omega
    rw [hpos]

theorem State.fld_rowsNat (s : State) (n : BitVec 3) (e : Nat → Nat → Elem) {r i : Nat} (hr : r < 4) (hi : i < 16) :
    fld (s.rowsNat n e) (8 * (64 * r + 4 * i)) 32 = if (s.p n).getLsbD i then (e r (16 * s.curCl + i)).toNat else 0 := by
  have hpos : 8 * (64 * r + 4 * i) = 32 * (16 * r + i) := by omega
  have hsum : s.rowsNat n e = packElem 32 64 (s.rowField n e) := s.foldl_rows n e 4
  rw [hsum, fld, hpos, fld_packElem _ (by omega), State.rowField_mod, State.rowField_row s n e r hi, State.enabled]

theorem vqpush_pushes {o : TQueue} {s : State} (hi : s.issues (.vqpush o)) (hfree : s.myCore.qCount o.q.toNat ≠ 8) :
    ∃ (t : State) (data : Nat),
      exec (.vqpush o) s = .next (t.result 1 (.queue o.q.toNat (s.myCore.qTail o.q.toNat) data)).inSequence ∧ t.mem = s.mem ∧
      ∀ r i, r < 4 → i < 16 → fld data (8 * (64 * r + 4 * i)) 32 =
        if (s.p o.pred).getLsbD i then (s.myCore.tile o.d.toNat (4 * o.g.toNat + r) (16 * s.curCl + i)).toNat else 0 :=
  ⟨s.fresh.modMyCore fun k => k.qReserve o.q.toNat 0, s.rowsNat o.pred fun r j => s.myCore.tile o.d.toNat (4 * o.g.toNat + r) j,
    State.issue_done hi (queueWrite_free (s := s.fresh) hfree), rfl, fun _ _ hr hlane => s.fld_rowsNat _ _ hr hlane⟩

theorem tileGatherQueue : Claim.TileGatherQueue := by
  refine ⟨fun o s u ps hi hlock hal h => ?gather, fun o s h ps hheld hi hv => vldg_completes hheld hi hv,
    fun o s u ps hi hal h hown => ?scatter, fun o s hi hlock hne hst => ?pop, fun o s => vqpush_pushes⟩
  case gather =>
    obtain ⟨t, g, hbody, hg⟩ := bodyVldg_holds (s := s.fresh) hlock hal h
    exact ⟨_, g, State.issue_hold hi hbody, hg⟩
  case scatter =>
    obtain ⟨t, hbody, hmem⟩ := bodyVsts_own (s := s.fresh) hal h hown
    exact ⟨t, State.issue_done hi hbody, hmem⟩
  case pop =>
    exact ⟨_, _, State.issue_done hi (bodyVqpop_filled (s := s.fresh) hlock hne hst),
      (congrArg (Core.qHead · o.q.toNat) (State.myCore_modMyCore s.fresh _)).trans (Core.qHead_qDrop _ _), rfl,
      fun k v => State.mem_entryCells⟩

/-! ### Accesses that fail (R187, R191) -/

theorem recLoad_misaligned {i : Instr} {a : BitVec 5} {chunk n align : Nat} {s : State} (h : (s.x a).toNat % align ≠ 0) :
    recLoad i a chunk n align s = .trap cALIGN (s.x a) := if_pos h

theorem bodyIst_misaligned {o : RecMem} {s : State} (h : (s.x o.a).toNat % 128 ≠ 0) : bodyIst o s = .trap cALIGN (s.x o.a) := by
  have hchk : s.checkAll .store 128 [(0, s.x o.a)] = .error (cALIGN, s.x o.a) :=
    State.checkAll_refused (by simp only [State.checkEach, State.access_misaligned s .store h])
  rw [bodyIst, hchk]
  exact Res.denied_trap (show cALIGN ≠ cOrder by decide)

theorem severalAccessesTrap : Claim.SeveralAccessesTrap :=
  ⟨fun _ s _ hi hl hal h he => State.issue_trap hi (bodyVld_refused (s := s.fresh) hl hal h he),
    fun _ s _ hi hal h he => State.issue_trap hi (bodyVst_refused (s := s.fresh) hal h he),
    fun _ s _ hi hl hal h he => State.issue_trap hi (bodyVldg_refused (s := s.fresh) hl hal h he),
    fun _ s _ hi hal h he => State.issue_trap hi (bodyVsts_refused (s := s.fresh) hal h he),
    fun _ _ _ _ _ _ h => ⟨State.checkAll_of_checkEach h, fun _ _ _ hn hps ha hp => by
      subst hn hps; exact State.checkAll_counter h ha hp⟩,
    fun _ _ _ _ _ h => State.checkAll_refused h,
    fun _ s hi h => State.issue_trap hi (recLoad_misaligned (s := s.fresh) h),
    fun _ s hi h => State.issue_trap hi (recLoad_misaligned (s := s.fresh) h),
    fun _ s hi h => State.issue_trap hi (recLoad_misaligned (s := s.fresh) h),
    fun _ s hi h => State.issue_trap hi (bodyIst_misaligned (s := s.fresh) h)⟩

/-- Settles O35: loads, stores and queue transfers from their bodies, their failures from the checks in order. That CNTSTORE follows the
checks of all accesses is log entry 28, and that a held load delivers what its completion reads is log entry 6. -/
theorem tileMemory : Obligations.TileMemory := ⟨tileLoadStore, tileGatherQueue, severalAccessesTrap⟩

end Sys2Proof.Machine
end
